-- ==== Sys2Proof/Word.lean ====
section
/-! DEFINITION. Word types and their plainest arithmetic. -/

namespace Sys2Proof

/-- A byte of memory. -/
abbrev Byte := BitVec 8
/-- A 64-bit register of the device. -/
abbrev W64 := BitVec 64
/-- A 32-bit word. -/
abbrev W32 := BitVec 32
/-- A vector register of SVX (R445). -/
abbrev VReg := BitVec 1024
/-- A predicate register of SVX (R445). -/
abbrev PReg := BitVec 128

/-- The smallest multiple of `k` that is at least `n`. -/
def ceilDiv (n k : Nat) : Nat := (n + k - 1) / k

end Sys2Proof
end

