-- ==== Sys2Proof/Syntax.lean ====
section
/-! DEFINITION. The commands of the D800: one constructor of `Instr` per row of the opcode table, with the operands
the row's sender supplies. A macro-op row carries the command queue whose slot the sequencer takes; a mailbox
command row carries the mailbox that holds the request; the rest carry what arrives at the unit (a packet, a frame,
a measured count, a level). -/

namespace Sys2Proof

/-- Who makes an access (the columns of the table of R35). -/
inductive Initiator where
  /-- An external host over RoCEv2, through the session named. -/
  | external (session : W32)
  | hostCore (n : Fin 32)
  /-- A heat or its tile movers, by logical number. -/
  | heat (h : Fin 100)
  | stackLogic (s : Fin 8)
  /-- A Relay engine: P0 to P5 are 0 to 5, PP is 6. -/
  | relay (p : Fin 7)
  | starter
  | debug
  deriving DecidableEq, Repr

/-- The symbols in error of each of the two codewords of a line: positions 0 to 143 in each (R269, R270). -/
structure LineErr where
  first : List (Fin 144)
  second : List (Fin 144)
  deriving DecidableEq, Repr

/-- The read-modify-write operations performed at a stack (R268): those of RV64A. -/
inductive AmoOp where
  | swap | add | xor | and | or | min | max | minu | maxu
  deriving DecidableEq, Repr

/-- An update program, by built-in ID or by address (R279). -/
inductive ProgRef where
  | builtin (id : Nat)
  | address (a : Nat)
  deriving DecidableEq, Repr

/-- An update invocation (R279): `chain` names the chain and bucket that waits for its status, if one does. -/
structure Invocation where
  stack : Fin 8
  prog : ProgRef
  streams : List (BitVec 24)
  params : Nat
  u0 : Nat
  u1 : Nat
  job : Nat
  chain : Option (Nat × Nat)
  deriving DecidableEq, Repr

/-- A flit as it arrives (R309, R312 to R314): its place in the frame, and for each codeword that it touches, in order, the
symbols that arrive in error; then the flit's fields. -/
structure Flit where
  slot : Nat
  errors : List (List Nat)
  control : W64
  payload : List Byte
  crc : W32
  deriving DecidableEq, Repr

/-- What a HELLO carries (R333). -/
structure HelloMsg where
  serial : W64
  port : Fin 7
  siteId : Byte
  pairSide : Bool
  generation : Byte
  numerics : Byte
  deriving DecidableEq, Repr

/-- A Relay packet (R325): the header's fields, then the payload. Reserved bits are sent as 0. -/
structure Packet where
  ptype : BitVec 4
  vc : BitVec 2
  job : BitVec 10
  group : BitVec 14
  bucket : W32
  first : W32
  carry : BitVec 3
  len : Byte
  stage : BitVec 4
  contrib : W64
  /-- Valid bit, then z, y and x of the receiving device. -/
  dstValid : Bool
  dst : BitVec 12
  srcValid : Bool
  src : BitVec 12
  pcrc : W32
  payload : List Byte
  deriving DecidableEq, Repr

/-- What passes between two Starters on a port (R329): a packet that arrives, or a request that this device's Starter sends. -/
inductive StarterMove where
  | arrives (k : Packet)
  | sends (message : List Byte)
  deriving DecidableEq, Repr

/-- A wait that a device measures against a stall budget (R384). -/
inductive StallWait where
  /-- The messages that an entry of an armed chain's bucket expects on a port. -/
  | message (chain : Nat) (bucket : Nat) (p : Fin 6)
  /-- The send that waits for credits on a virtual channel of a port. -/
  | credit (p : Fin 6) (vc : Fin 4)
  /-- The barrier chain of a group, from the device's own arrival (R248). -/
  | barrier (job : Nat) (group : Nat)
  deriving DecidableEq, Repr

/-- A unit as fault records and photo finishes name it (R420). -/
structure UnitRef where
  cls : BitVec 4
  index : BitVec 12
  deriving DecidableEq, Repr

/-- A detected fault, or a notice of one that floods in (R406). -/
structure FaultNotice where
  /-- `none`: detected here. `some s`: a notice flooded by the device of serial `s`. -/
  origin : Option W64
  mechanism : Byte
  unit : UnitRef
  job : Option (BitVec 10)
  queue : Option (BitVec 16)
  addr : BitVec 52
  detail : W32
  rank : Option (BitVec 16)
  group : BitVec 14
  serial : W64
  deriving DecidableEq, Repr

/-- A condition outside its die that a receiver on a channel reports that it waits on (R395). -/
inductive OutsideWait where
  | credits | wait | hurdle | fullQueue | stalledChain
  deriving DecidableEq, Repr

/-- A message offered on a channel and not accepted: the channel, and for how many cycles it was offered while the receiver
reported which condition outside its die, if any (R395). -/
structure Offer where
  channel : BitVec 16
  spans : List (Nat × Option OutsideWait)
  deriving DecidableEq, Repr

/-- The fields of an SVX instruction below its operation (R452). -/
structure SvxFields where
  sz : BitVec 2
  b : BitVec 5
  a : BitVec 5
  q : BitVec 3
  d : BitVec 5
  deriving DecidableEq, Repr

/-- The hottest sensor of each part, in degrees Celsius (R533). -/
structure SensorReading where
  cd0 : Int
  cd1 : Int
  hub : Int
  /-- The hottest DRAM die of each of the eight stacks. -/
  dram : List Int
  /-- Each of the six optical engines. -/
  optics : List Int
  deriving DecidableEq, Repr

/-- The strap levels latched at reset release (R528). -/
structure Straps where
  siteId : Byte
  pairSide : Bool
  ethSpeed : Bool
  deriving DecidableEq, Repr

/-- A failure that self-test finds (R546). -/
inductive SelfTestFailure where
  | heat (p : Fin 104)
  | dramDie (s : Fin 8) (die : Fin 16)
  | dramDies (s : Fin 8)
  | hostCore (n : Fin 32)
  | bridge (i : Fin 3)
  | relay (p : Fin 7)
  | optics (p : Fin 6)
  | security
  deriving DecidableEq, Repr

/-- A Suilo packet that a session accepts (R500): the port and source address it arrived from, its header, and its
payload after decryption. -/
structure SuiloPacket where
  port : Fin 8
  from_ : BitVec 160
  /-- Marked CE by the network (R495). -/
  ce : Bool := false
  ackValid : Bool
  ceEcho : Bool
  more : Bool
  relayed : Bool
  session : W32
  serial : W64
  seq : W64
  ack : W64
  payload : List Byte
  deriving DecidableEq, Repr

/-- Why an Ethernet port drops a frame (R492 to R494, R497). -/
inductive DropCause where
  | protocol
  | bufferFull (bytes : Nat)
  | transport
  deriving DecidableEq, Repr

/-- What is wrong with a Suilo packet (R500). -/
inductive SuiloFlaw where
  | header
  | tag
  | serial
  | unknownSession
  deriving DecidableEq, Repr

/-- The commands of the block, one constructor per row of the opcode table. -/
inductive Instr where
  /-- NOP (R199): Command that completes with no effect; a slot of all zero bytes is a NOP. -/
  | nop (q : Nat)
  /-- LOAD (R215): Copies or converts a tensor into cluster stores, optionally replicated to every cluster of the placement. -/
  | load (q : Nat)
  /-- STORE (R215): Copies or converts a tensor out of a cluster store. -/
  | store (q : Nat)
  /-- COPY (R216): Moves a tensor bit for bit under R49, or otherwise converts it element by element. -/
  | copy (q : Nat)
  /-- CONVERT (R216): Converts every element of a tensor, never as a bit move, counting each element. -/
  | convert (q : Nat)
  /-- FILL (R217): Fills a tensor with one converted value or one raw bit pattern. -/
  | fill (q : Nat)
  /-- GATHER (R178): Writes destination rows from source rows selected through an index tensor. -/
  | gather (q : Nat)
  /-- SCATTER (R179): Combines source rows into destination rows through an index tensor, in ascending index order. -/
  | scatter (q : Nat)
  /-- RNG (R219): Fills a tensor of kind random with uniform, normal or raw draws. -/
  | rng (q : Nat)
  /-- GEMM (R220): Computes a matrix product with preload, level 0, optional K split and the finish stage. -/
  | gemm (q : Nat)
  /-- BGEMM (R221): Computes a batched matrix product with broadcast batch dimensions. -/
  | bgemm (q : Nat)
  /-- BWD2 (R133): Computes dX and dW of a matrix product on both arrays, with train mask and optional dW accumulation. -/
  | bwd2 (q : Nat)
  /-- EWISE (R174): Runs an element-wise lane program over every tile of its written streams. -/
  | ewise (q : Nat)
  /-- STENCIL (R175): Runs a lane program with neighbour loads under per-dimension boundary modes. -/
  | stencil (q : Nat)
  /-- REDUCE (R224): Sums, sums squares or takes the largest magnitude along one dimension, to a tensor or a scalar register. -/
  | reduce (q : Nat)
  /-- ARGRED (R125): Finds the maximum or minimum with its index along one dimension. -/
  | argred (q : Nat)
  /-- NORM (R147): Applies layer or RMS normalisation to rows. -/
  | norm (q : Nat)
  /-- NORMB (R148): Computes the backward pass of NORM, with optional gamma and beta gradients. -/
  | normb (q : Nat)
  /-- SMAX (R149): Computes softmax of rows. -/
  | smax (q : Nat)
  /-- SMAXB (R149): Computes the backward pass of softmax. -/
  | smaxb (q : Nat)
  /-- SCAL (R230): Performs a scalar register operation, including GET, LDM and STM. -/
  | scal (q : Nat)
  /-- BR (R236): Branches on a comparison of scalar registers, closing Laps whose body excludes the target. -/
  | br (q : Nat)
  /-- LAP (R237): Latches a count and opens a hardware loop, or skips the body for a count of 0. -/
  | lap (q : Nat)
  /-- ENDLAP (R239): Ends an iteration of the innermost Lap and loops or closes it. -/
  | endlap (q : Nat)
  /-- WAIT (R244): Holds the queue until a signal word reaches a threshold. -/
  | wait (q : Nat)
  /-- SIGNAL_ADD (R245): Adds a value to a signal word once earlier writes are visible. -/
  | signalAdd (q : Nat)
  /-- SIGNAL_POST (R246): Writes a 32-byte message to a message queue, waiting if it is full. -/
  | signalPost (q : Nat)
  /-- HURDLE_LOCAL (R247): Arrives at a barrier word for n queues and waits for the round to complete. -/
  | hurdleLocal (q : Nat)
  /-- HURDLE_GROUP (R248): Counts local arrivals and runs the group barrier chain across devices. -/
  | hurdleGroup (q : Nat)
  /-- TRIG (R353): Checks and arms a triggered chain, or arms nothing outside the thinning step. -/
  | trig (q : Nat)
  /-- PHASE (R251): Switches the queue between LEARN and GENERATE. -/
  | phase (q : Nat)
  /-- STASH (R154): Copies a tensor into the queue's stash share or records a recompute entry. -/
  | stash (q : Nat)
  /-- UNSTASH (R156): Restores or reports a stashed tensor and writes a result code to a scalar register. -/
  | unstash (q : Nat)
  /-- CKPT (R257): Requests a checkpoint generation at the next COMMIT. -/
  | ckpt (q : Nat)
  /-- COMMIT (R253): Marks the end of a training step for its queue and waits for the whole job. -/
  | commit (q : Nat)
  /-- TAG (R258): Records a tag and completes with no effect. -/
  | tag (q : Nat)
  /-- FENCE (R259): Holds later commands until earlier writes are visible and armed chains have completed. -/
  | fence (q : Nat)
  /-- HALT (R260): Halts the queue with status HALTED and a completion record. -/
  | halt (q : Nat)
  /-- COMMIT_CLOSE (R254): When all COMMIT conditions hold, records committed state, writes watch records, empties stashes and
  completes the COMMITs. -/
  | commitClose (job : Nat)
  /-- WAIT_SATISFIED (R244): A write to a signal word satisfies a waiting WAIT or local Hurdle, and the queue continues. -/
  | waitSatisfied (q : Nat)
  /-- FENCE_RELEASE (R259): A waiting FENCE releases its queue once writes are visible and chains have completed. -/
  | fenceRelease (q : Nat)
  /-- CQ_SLOT_FREE (R205): A completion queue slot frees and a queue in WAIT_CQ completes its command. -/
  | cqSlotFree (q : Nat)
  /-- MESSAGE_SLOT_FREE (R246): A message queue slot frees and a waiting SIGNAL POST writes its message. -/
  | messageSlotFree (q : Nat)
  /-- BREAK (R262): A debug break slot fires before decode and halts the queue with status BREAK. -/
  | breakFires (q : Nat)
  /-- DOORBELL (R188): An aligned 8-byte write to qw.db is judged and advances the queue's write position or posts DOORBELL_BAD. -/
  | doorbell (q : Nat) (v : W64)
  /-- SESSION_CLOSE (R508): Closes the requesting session. -/
  | sessionClose (m : Fin 64)
  /-- OWNER_ADD (R509): Enrols an owner public key and returns its key ID. -/
  | ownerAdd (m : Fin 64)
  /-- OWNER_REVOKE (R509): Revokes an owner key and closes sessions opened with it. -/
  | ownerRevoke (m : Fin 64)
  /-- REGION_ADD (R509): Registers an Edern range for RDMA and returns an R_Key. -/
  | regionAdd (m : Fin 64)
  /-- REGION_REMOVE (R509): Removes a registered RDMA region. -/
  | regionRemove (m : Fin 64)
  /-- QP_CONNECT (R509): Connects a RoCEv2 queue pair on a port with a receive ring. -/
  | qpConnect (m : Fin 64)
  /-- QP_DESTROY (R509): Ends a RoCEv2 queue pair. -/
  | qpDestroy (m : Fin 64)
  /-- SUBSCRIBE (R509): Starts pushing an event queue's records to the session. -/
  | subscribe (m : Fin 64)
  /-- UNSUBSCRIBE (R509): Stops pushing an event queue's records. -/
  | unsubscribe (m : Fin 64)
  /-- NET_PORT (R509): Sets an Ethernet port's speed, flow control, VLAN and addressing until reset. -/
  | netPort (m : Fin 64)
  /-- JOB_CREATE (R474): Creates a job with its areas, event queue, seed, lap lengths and optional restore record. -/
  | jobCreate (m : Fin 64)
  /-- JOB_DESTROY (R473): Aborts a job's commands and chains, sends destroy markers and releases its queues, groups and
  generations. -/
  | jobDestroy (m : Fin 64)
  /-- JOB_RESUME (R473): Restarts a held job at event 3 of the restart sequence. -/
  | jobResume (m : Fin 64)
  /-- JOB_SPARES (R411): Enrols warm spare devices for a job. -/
  | jobSpares (m : Fin 64)
  /-- JOB_STATUS (R473): Returns a job's state, hold cause, committed steps and restore point. -/
  | jobStatus (m : Fin 64)
  /-- QUEUE_CREATE (R475): Creates a command, completion, event or message queue. -/
  | queueCreate (m : Fin 64)
  /-- QUEUE_BIND (R476): Binds a command queue to a team of heats with a stash share. -/
  | queueBind (m : Fin 64)
  /-- QUEUE_RESUME (R477): Refetches or skips the command of a stopped queue, or resumes a halted one. -/
  | queueResume (m : Fin 64)
  /-- QUEUE_SREG (R478): Reads or writes a queue's scalar registers. -/
  | queueSreg (m : Fin 64)
  /-- QUEUE_DESTROY (R473): Destroys a queue in an allowed state. -/
  | queueDestroy (m : Fin 64)
  /-- DESC_LOAD (R479): Checks and writes up to 63 descriptors into a job's table. -/
  | descLoad (m : Fin 64)
  /-- GROUP_JOIN (R480): Joins a group with its geometry, members, rank and stall budget. -/
  | groupJoin (m : Fin 64)
  /-- GROUP_LEAVE (R473): Leaves a group with no pending chain or Hurdle. -/
  | groupLeave (m : Fin 64)
  /-- CKPT_POLICY (R481): Sets a job's checkpoint terms, checkpoint set and snapshot pools. -/
  | ckptPolicy (m : Fin 64)
  /-- PAIR_MODE (R482): Records a requested pair mode and shadow regions. -/
  | pairMode (m : Fin 64)
  /-- PAIR_DETACH (R482): Detaches from the twin, discards its shadows and enters UNPAIRED. -/
  | pairDetach (m : Fin 64)
  /-- PACE_SET (R532): Requests a pace and starts a supply transition. -/
  | paceSet (m : Fin 64)
  /-- TELEMETRY_READ (R473): Returns register values of a CSR block. -/
  | telemetryRead (m : Fin 64)
  /-- TELEMETRY_PHOTO_FINISH (R417): Injects photo-finish markers into every Track channel, or queues the request. -/
  | telemetryPhotoFinish (m : Fin 64)
  /-- DEVICE_TUNE (R473): Writes the Judge rate, patrol period or channel watchdog limit. -/
  | deviceTune (m : Fin 64)
  /-- CORE_ASSIGN (R442): Assigns a host core to a job or releases it. -/
  | coreAssign (m : Fin 64)
  /-- FW_UPDATE (R515): Checks an image, writes it to the inactive slot and marks it for trial. -/
  | fwUpdate (m : Fin 64)
  /-- ATTEST_REPORT (R516): Returns a signed attestation report with an optional certificate chain. -/
  | attestReport (m : Fin 64)
  /-- DEBUG_BREAK (R261): Sets or clears a debug break slot of a queue. -/
  | debugBreak (m : Fin 64)
  /-- MAILBOX_DOORBELL (R467): A write of 1 to a mailbox doorbell hands the request to the Starter or sets overrun. -/
  | mailboxDoorbell (src : Initiator) (m : Fin 64) (v : W64)
  /-- STARTER_WATCHDOG_KICK (R463): Aimucor writes top.starter.wdog, restarting the watchdog count. -/
  | starterWatchdogKick (limit : W32)
  /-- STARTER_WATCHDOG (R464): The watchdog count exceeds its limit, raising WDOG, or twice its limit, resetting the device. -/
  | starterWatchdog
  /-- LINK_ENABLE (R332): Setting or clearing link_ctl.enable brings a port up or turns it off. -/
  | linkEnable (p : Fin 7) (on : Bool)
  /-- LOOPBACK (R343): Setting link_ctl.loopback places a port in internal loopback for self-test. -/
  | loopback (p : Fin 7) (on : Bool)
  /-- TRACE_ENABLE (R444): The debug port turns host-core trace capture on or off. -/
  | traceEnable (n : Fin 32) (on : Bool)
  /-- ALERT_DRIVE (R528): A write of timer.alert_drive pulls ALERT_N low or releases it. -/
  | alertDrive (on : Bool)
  /-- READ_CLEAR (R11): A read of an RC register returns its value and clears it. -/
  | readClear (src : Initiator) (addr : Nat)
  /-- REGISTER_WRITE (R11): A write to a register with no row of its own, under its access code. -/
  | registerWrite (src : Initiator) (addr : Nat) (data : List Byte)
  /-- DEBUG_ACCESS (R31): A debug access to a physical heat, returning ABSENT for FUSED or RETIRED heats. -/
  | debugAccess (heat : Fin 104) (offset : Nat) (write : Option W64)
  /-- LINE_READ (R273): A stack reads a line, correcting, poisoning or marking a die as the ECC finds. -/
  | lineRead (src : Initiator) (addr : Nat) (err : LineErr)
  /-- LINE_WRITE (R267): A stack writes a line, with read-modify-write for partial writes and copy-on-write of shared granules. -/
  | lineWrite (src : Initiator) (addr : Nat) (data : List Byte)
  /-- STACK_AMO (R268): An atomic, SIGNAL, Hurdle arrival or chain addition is performed at the stack as one read-modify-write. -/
  | stackAmo (addr : Nat) (op : AmoOp) (double : Bool) (v : W64)
  /-- PATROL_READ (R275): Patrol reads its next line in its time slot and corrects or poisons it. -/
  | patrolRead (st : Fin 8) (err : LineErr)
  /-- REFRESH (R274): The logic die refreshes its DRAM dies at the standard or halved interval. -/
  | refresh (st : Fin 8)
  /-- UPDATE_INVOCATION (R279): A stack logic engine checks and runs an update program over a unit range of a shard. -/
  | updateInvocation (inv : Invocation)
  /-- SHADOW_STREAM (R303): After a freeze, each stack streams changed granules and the generation record to the twin. -/
  | shadowStream (job : Nat) (st : Fin 8)
  /-- SHADOW_CONFIRM (R304): The twin confirms every granule and the record, and the generation becomes SHADOWED. -/
  | shadowConfirm (job : Nat) (step : Nat)
  /-- LOCAL_RESTORE (R302): Sets the live mapping of the checkpoint set to a generation and frees newer pool granules. -/
  | localRestore (job : Nat) (step : Nat)
  /-- FLIT_RECEIVED (R316): A receiver judges a flit, accepting, discarding or requesting replay, and applies acks and credits. -/
  | flitReceived (p : Fin 7) (f : Flit)
  /-- ACK_TIMEOUT (R317): The ack timeout of the oldest unacknowledged flit expires and starts a replay. -/
  | ackTimeout (p : Fin 7)
  /-- ACK_RETURN (R318): A receiver sends its next expected sequence number at least every 100 timer cycles. -/
  | ackReturn (p : Fin 7)
  /-- RETRAIN_COMPLETE (R320): A retrain ends and the port replays every unacknowledged flit. -/
  | retrainComplete (p : Fin 7)
  /-- RETRAIN_TIMEOUT (R319): A retrain lasts beyond 5 ms, or retrains exceed their count, and the link goes DOWN. -/
  | retrainTimeout (p : Fin 7)
  /-- LANE_LOCK_LOST (R337): A lane loses lock; the pair port falls back to half width or goes DOWN. -/
  | laneLockLost (p : Fin 7) (lane : Fin 128)
  /-- TRAINING_RESEND (R332): A port that has not locked resends its training sequence every 100 ms. -/
  | trainingResend (p : Fin 7)
  /-- PORT_ABSENT (R332): A port not UP 30 s after enable is recorded ABSENT. -/
  | portAbsent (p : Fin 7)
  /-- PORT_HELLO (R333): HELLO is exchanged and checked during port bring-up, recording torus links or refusing equal pair sides. -/
  | portHello (p : Fin 7) (h : HelloMsg)
  /-- LINK_UP (R332): A port reaches UP and initialises its credits. -/
  | linkUp (p : Fin 7)
  /-- REDUCE_PACKET (R330): A REDUCE packet is hop-checked and added in the link adder or held as early. -/
  | reducePacket (p : Fin 7) (k : Packet)
  /-- PUT (R330): A PUT packet is hop-checked and its bytes written or forwarded. -/
  | putPacket (p : Fin 7) (k : Packet)
  /-- AGREE (R364): An AGREE or VERDICT dissemination packet is received and combined. -/
  | agreePacket (p : Fin 7) (k : Packet)
  /-- ARRIVE (R380): A Hurdle arrival packet is received for the group barrier round. -/
  | arrivePacket (p : Fin 7) (k : Packet)
  /-- CTRL (R385): A CTRL packet carries an abort, destroy marker or restart notice. -/
  | ctrlPacket (p : Fin 7) (k : Packet)
  /-- TOPO (R335): A TOPO packet updates the device's origin, coordinates and sizes. -/
  | topoPacket (p : Fin 7) (k : Packet)
  /-- TOPO_SEND (R335): A device resends its TOPO state every 100,000 timer cycles. -/
  | topoSend
  /-- TOPO_DECLARE (R336): After 100 ms unchanged, a device declares its position and checks its neighbours. -/
  | topoDeclare
  /-- STARTER (R329): A STARTER packet delivers a mailbox request or response between Starters. -/
  | starterPacket (p : Fin 7) (m : StarterMove)
  /-- STARTER_REQUEST_TIMEOUT (R329): A STARTER request without response within 100 ms ends with FAILED. -/
  | starterRequestTimeout (p : Fin 7)
  /-- BEAT (R339): A BEAT from the twin is received and its job entry recorded. -/
  | beatPacket (k : Packet)
  /-- BEAT_SEND (R338): The device sends a BEAT on the pair port every 10,000 timer cycles. -/
  | beatSend
  /-- HEARTBEAT_LOSS (R338): No valid BEAT for more than 80,000 cycles declares the twin lost. -/
  | heartbeatLoss
  /-- SHADOW (R303): A SHADOW packet writes a granule or generation record into a shadow region and is CRC-checked. -/
  | shadowPacket (k : Packet)
  /-- DIGEST (R402): The twin's per-step digest is received and compared in mirror mode. -/
  | digestPacket (k : Packet)
  /-- RELAY (R511): A RELAY packet carries an Ethernet frame of a relayed host session. -/
  | relayPacket (k : Packet)
  /-- PAIRCTL (R400): A PAIRCTL packet joins, sets the mode of, or detaches the pair. -/
  | pairctlPacket (k : Packet)
  /-- PAIRCTL_RESET (R342): A PAIRCTL reset from the twin resets the device as RESET_N would. -/
  | pairctlReset (k : Packet)
  /-- PAIR_EPISODE_CLOSE (R341): A pair-event episode closes after 1 ms quiet and the device acts once on the state found. -/
  | pairEpisodeClose
  /-- CHAIN_ENTRY_START (R358): A bucket starts its next chain entry once the previous entry has completed on this device. -/
  | chainEntryStart (chain : Nat) (bucket : Nat)
  /-- VERDICT_PASS (R372): After REDUCE_SCATTER of every bucket, the device runs the non-finite verdict pass. -/
  | verdictPass (chain : Nat)
  /-- CHAIN_COMPLETE (R359): A chain writes its status records and raises its completion word. -/
  | chainComplete (chain : Nat)
  /-- JUDGE_COMPARE (R381): A Judge completes a recomputation of a sampled packet and compares it bit for bit. -/
  | judgeCompare (j : Fin 3) (seen : Option (List Byte))
  /-- STALL (R385): A wait exceeds the stall budget; the device aborts the job's chains and blames a member. -/
  | stall (w : StallWait)
  /-- FAULT_NOTICE (R406): A detected fault or received fault notice halts the job's queues and chains on this device. -/
  | faultNotice (n : FaultNotice)
  /-- COORDINATOR_ELECTION (R405): A device whose flooded smallest serial is its own for 100 ms takes the coordinator role. -/
  | coordinatorElection (job : Nat)
  /-- RESTORE_POINT_AGREED (R407): The coordinator agrees the restore point and each device restores locally or from
  its twin; the operands say which spares fit the rank of each device (R346, R411). -/
  | restorePointAgreed (job : Nat) (devices : List W64) (fits : List (List W64))
  /-- PATH_NOTICE (R412): A device records and floods the twin's path notice for a restore transfer. -/
  | pathNotice (p : Fin 6) (job : Nat) (spare : W64)
  /-- PATH_CLAIM (R412): A path claim is forwarded towards the twin and forwarding chains are armed. -/
  | pathClaim (p : Fin 6) (job : Nat)
  /-- RESTORE_COMPLETE (R413): Every restore is complete; groups rejoin and sequence counters are restored. -/
  | restoreComplete (job : Nat)
  /-- JOB_RESUMED (R413): Every queue leaves FROZEN at its committed position and JOB_RESUMED is posted. -/
  | jobResumed (job : Nat)
  /-- CHANNEL_WATCHDOG (R395): A Track or bridge channel watchdog exceeds its limit, a detected fault of the receiver. -/
  | channelWatchdog (die : Fin 2) (offer : Offer) (receiver : UnitRef) (job : Option Nat)
  /-- HC_LOCKSTEP_DIVERGENCE (R439): The two halves of a host core diverge; the core stops and the device becomes unfit. -/
  | hcLockstepDivergence (n : Fin 32)
  /-- STARTER_LOCKSTEP (R394): The Starter's halves diverge and the device stops. -/
  | starterLockstep
  /-- PHOTO_DONE (R417): The last unit latches, the Starter writes the record and starts any queued request. -/
  | photoDone
  /-- SVX_ADD (R453): Vector integer addition. -/
  | svxAdd (n : Fin 32) (f : SvxFields)
  /-- SVX_SUB (R453): Vector integer subtraction. -/
  | svxSub (n : Fin 32) (f : SvxFields)
  /-- SVX_MUL (R453): Vector integer multiplication, low bits. -/
  | svxMul (n : Fin 32) (f : SvxFields)
  /-- SVX_MIN (R453): Vector signed minimum. -/
  | svxMin (n : Fin 32) (f : SvxFields)
  /-- SVX_MAX (R453): Vector signed maximum. -/
  | svxMax (n : Fin 32) (f : SvxFields)
  /-- SVX_AND (R453): Vector bitwise and. -/
  | svxAnd (n : Fin 32) (f : SvxFields)
  /-- SVX_OR (R453): Vector bitwise or. -/
  | svxOr (n : Fin 32) (f : SvxFields)
  /-- SVX_XOR (R453): Vector bitwise exclusive or. -/
  | svxXor (n : Fin 32) (f : SvxFields)
  /-- SVX_SLL (R453): Vector shift left. -/
  | svxSll (n : Fin 32) (f : SvxFields)
  /-- SVX_SRL (R453): Vector logical shift right. -/
  | svxSrl (n : Fin 32) (f : SvxFields)
  /-- SVX_SRA (R453): Vector arithmetic shift right. -/
  | svxSra (n : Fin 32) (f : SvxFields)
  /-- SVX_MINU (R453): Vector unsigned minimum. -/
  | svxMinu (n : Fin 32) (f : SvxFields)
  /-- SVX_MAXU (R453): Vector unsigned maximum. -/
  | svxMaxu (n : Fin 32) (f : SvxFields)
  /-- SVX_FADD (R453): Vector floating-point addition. -/
  | svxFadd (n : Fin 32) (f : SvxFields)
  /-- SVX_FSUB (R453): Vector floating-point subtraction. -/
  | svxFsub (n : Fin 32) (f : SvxFields)
  /-- SVX_FMUL (R453): Vector floating-point multiplication. -/
  | svxFmul (n : Fin 32) (f : SvxFields)
  /-- SVX_FDIV (R453): Vector floating-point division. -/
  | svxFdiv (n : Fin 32) (f : SvxFields)
  /-- SVX_FMIN (R453): Vector floating-point minimum. -/
  | svxFmin (n : Fin 32) (f : SvxFields)
  /-- SVX_FMAX (R453): Vector floating-point maximum. -/
  | svxFmax (n : Fin 32) (f : SvxFields)
  /-- SVX_FSQRT (R453): Vector floating-point square root. -/
  | svxFsqrt (n : Fin 32) (f : SvxFields)
  /-- SVX_FSGNJ (R453): Vector sign injection. -/
  | svxFsgnj (n : Fin 32) (f : SvxFields)
  /-- SVX_FSGNJN (R453): Vector negated sign injection. -/
  | svxFsgnjn (n : Fin 32) (f : SvxFields)
  /-- SVX_FSGNJX (R453): Vector exclusive-or sign injection. -/
  | svxFsgnjx (n : Fin 32) (f : SvxFields)
  /-- SVX_SEL (R453): Vector select of every element by predicate. -/
  | svxSel (n : Fin 32) (f : SvxFields)
  /-- SVX_FMA (R454): Vector fused multiply-add into the destination. -/
  | svxFma (n : Fin 32) (f : SvxFields)
  /-- SVX_FNMA (R454): Vector fused negated multiply-add into the destination. -/
  | svxFnma (n : Fin 32) (f : SvxFields)
  /-- SVX_IMA (R454): Vector integer multiply-add. -/
  | svxIma (n : Fin 32) (f : SvxFields)
  /-- SVX_FWMUL (R454): Vector widening exact floating-point multiply, low or high half. -/
  | svxFwmul (n : Fin 32) (h : Bool) (f : SvxFields)
  /-- SVX_FWMA (R454): Vector widening floating-point multiply-add, low or high half. -/
  | svxFwma (n : Fin 32) (h : Bool) (f : SvxFields)
  /-- SVX_IWMUL (R454): Vector widening signed integer multiply. -/
  | svxIwmul (n : Fin 32) (h : Bool) (f : SvxFields)
  /-- SVX_IWMA (R454): Vector widening signed integer multiply-add. -/
  | svxIwma (n : Fin 32) (h : Bool) (f : SvxFields)
  /-- SVX_FDOT (R454): Vector two-term floating-point dot product with one rounding. -/
  | svxFdot (n : Fin 32) (f : SvxFields)
  /-- SVX_IDOT (R454): Vector four-term signed integer dot product. -/
  | svxIdot (n : Fin 32) (f : SvxFields)
  /-- SVX_IDOTU (R454): Vector four-term unsigned integer dot product. -/
  | svxIdotu (n : Fin 32) (f : SvxFields)
  /-- SVX_VLD (R455): Vector unit-stride or structure load. -/
  | svxVld (n : Fin 32) (nf : BitVec 2) (f : SvxFields)
  /-- SVX_VLDS (R455): Vector strided load. -/
  | svxVlds (n : Fin 32) (nf : BitVec 2) (f : SvxFields)
  /-- SVX_VLDX (R455): Vector indexed load. -/
  | svxVldx (n : Fin 32) (nf : BitVec 2) (f : SvxFields)
  /-- SVX_VLDR (R455): Vector load of one value into every active element. -/
  | svxVldr (n : Fin 32) (nf : BitVec 2) (f : SvxFields)
  /-- SVX_VST (R455): Vector unit-stride or structure store. -/
  | svxVst (n : Fin 32) (nf : BitVec 2) (f : SvxFields)
  /-- SVX_VSTS (R455): Vector strided store. -/
  | svxVsts (n : Fin 32) (nf : BitVec 2) (f : SvxFields)
  /-- SVX_VSTX (R455): Vector indexed store. -/
  | svxVstx (n : Fin 32) (nf : BitVec 2) (f : SvxFields)
  /-- SVX_CMPEQ (R457): Vector integer equality into a predicate. -/
  | svxCmpeq (n : Fin 32) (f : SvxFields)
  /-- SVX_CMPLT (R457): Vector signed less-than into a predicate. -/
  | svxCmplt (n : Fin 32) (f : SvxFields)
  /-- SVX_CMPLTU (R457): Vector unsigned less-than into a predicate. -/
  | svxCmpltu (n : Fin 32) (f : SvxFields)
  /-- SVX_FCMPEQ (R457): Vector quiet floating-point equality. -/
  | svxFcmpeq (n : Fin 32) (f : SvxFields)
  /-- SVX_FCMPLT (R457): Vector signalling floating-point less-than. -/
  | svxFcmplt (n : Fin 32) (f : SvxFields)
  /-- SVX_FCMPLE (R457): Vector signalling floating-point less-or-equal. -/
  | svxFcmple (n : Fin 32) (f : SvxFields)
  /-- SVX_FCMPUN (R457): Vector unordered test. -/
  | svxFcmpun (n : Fin 32) (f : SvxFields)
  /-- SVX_PRANGE (R457): Sets a predicate for elements within a range bound. -/
  | svxPrange (n : Fin 32) (f : SvxFields)
  /-- SVX_PLOG (R457): Logical operation on predicates. -/
  | svxPlog (n : Fin 32) (f : SvxFields)
  /-- SVX_PCNT (R457): Counts set predicate bits into an integer register. -/
  | svxPcnt (n : Fin 32) (f : SvxFields)
  /-- SVX_PFIRST (R457): Finds the lowest set predicate bit. -/
  | svxPfirst (n : Fin 32) (f : SvxFields)
  /-- SVX_PTOX (R457): Moves 64 predicate bits to an integer register. -/
  | svxPtox (n : Fin 32) (f : SvxFields)
  /-- SVX_XTOP (R457): Moves an integer register into 64 predicate bits. -/
  | svxXtop (n : Fin 32) (f : SvxFields)
  /-- SVX_SPLAT (R457): Broadcasts an integer register to active elements. -/
  | svxSplat (n : Fin 32) (f : SvxFields)
  /-- SVX_FSPLAT (R457): Broadcasts a floating-point element to active elements. -/
  | svxFsplat (n : Fin 32) (f : SvxFields)
  /-- SVX_EXTR (R457): Extracts one vector element into an integer register. -/
  | svxExtr (n : Fin 32) (f : SvxFields)
  /-- SVX_INSR (R457): Inserts an integer register into one vector element. -/
  | svxInsr (n : Fin 32) (f : SvxFields)
  /-- SVX_IDX (R457): Writes element indices to active elements. -/
  | svxIdx (n : Fin 32) (f : SvxFields)
  /-- SVX_ADDV (R457): Integer sum of active elements. -/
  | svxAddv (n : Fin 32) (f : SvxFields)
  /-- SVX_FADDV (R457): Ordered floating-point sum of active elements into a scalar. -/
  | svxFaddv (n : Fin 32) (f : SvxFields)
  /-- SVX_FMAXV (R457): Ordered floating-point maximum of active elements. -/
  | svxFmaxv (n : Fin 32) (f : SvxFields)
  /-- SVX_FMINV (R457): Ordered floating-point minimum of active elements. -/
  | svxFminv (n : Fin 32) (f : SvxFields)
  /-- SVX_FCVT (R458): Vector format conversion of the kind selected. -/
  | svxFcvt (n : Fin 32) (f : SvxFields)
  /-- CBO_CLEAN (R436): Writes a dirty cache block back to its stack and keeps it. -/
  | cboClean (n : Fin 32) (rs1 : BitVec 5)
  /-- CBO_FLUSH (R436): Writes a dirty cache block back and invalidates it. -/
  | cboFlush (n : Fin 32) (rs1 : BitVec 5)
  /-- CBO_ZERO (R436): Writes 64 zero bytes at the stack as one aligned write. -/
  | cboZero (n : Fin 32) (rs1 : BitVec 5)
  /-- CBO_INVAL (R436): Invalidates a cache block, or flushes it where CBIE so selects. -/
  | cboInval (n : Fin 32) (rs1 : BitVec 5)
  /-- AMO (R268): A host-core RV64A atomic on Edern memory performed at the stack. -/
  | hcAmo (n : Fin 32) (op : AmoOp) (double : Bool) (rd rs1 rs2 : BitVec 5)
  /-- LR_SC (R438): A load-reserved or store-conditional on a 256-byte reservation set. -/
  | lrSc (n : Fin 32) (sc : Bool) (double : Bool) (rd rs1 rs2 : BitVec 5)
  /-- HC_FENCE (R435): A host-core FENCE orders accesses to every region. -/
  | hcFence (n : Fin 32) (pred succ : BitVec 4)
  /-- TIMER_INTERRUPT (R441): The timer reaches stimecmp or mtimecmp and a timer interrupt becomes pending. -/
  | timerInterrupt (n : Fin 32)
  /-- PACER_WINDOW (R521): A Pacer window ends and is judged, locking to the crystal or switching to the internal oscillator. -/
  | pacerWindow (count : Nat)
  /-- INTERNAL_OSCILLATOR_FAIL (R523): A window exceeds 131,072 crystal cycles and the device becomes unfit. -/
  | internalOscillatorFail
  /-- CRYSTAL_START_TIMEOUT (R525): The crystal is not judged stable within 100 ms of hub reset release. -/
  | crystalStartTimeout
  /-- PACE_SETTLED (R532): The supply settles at the new pace and pace.set responds. -/
  | paceSettled
  /-- SENSOR_READING (R533): Temperatures are read every 100 µs and compared with the limits. -/
  | sensorReading (r : SensorReading)
  /-- THROTTLE_STEP (R534): While a die is above its throttle limit, the thermal limit falls one pace every 10 ms. -/
  | throttleStep
  /-- THROTTLE_RELEASE (R534): After 1 s at or below release, the thermal limit rises one pace. -/
  | throttleRelease
  /-- VIN_RISE (R545): The 48 V input rises through 40 V and power-up begins. -/
  | vinRise
  /-- VIN_FALL (R537): The input falls below 38 V; PWR_GOOD deasserts and every rail turns off. -/
  | vinFall (below : Nat)
  /-- RESET_N (R556): A filtered assertion of RESET_N requests a reset. -/
  | resetN (asserted : Bool)
  /-- RESET_RELEASE (R544): After at least 1 ms and RESET_N deasserted, the hub leaves reset and the timer starts. -/
  | resetRelease (straps : Straps)
  /-- PAIR_PRESENT (R556): A filtered change of PAIR_PRESENT after bring-up is a pair event. -/
  | pairPresent (asserted : Bool)
  /-- ALERT_N (R557): A filtered assertion of ALERT_N by another driver posts one ALERT event and masks further ones. -/
  | alertN (asserted : Bool)
  /-- ALERT_RELEASE_CHECK (R557): 1 µs after the device releases ALERT_N, a still-asserted line counts as an assertion. -/
  | alertReleaseCheck
  /-- IMAGE_CHECK (R514): The Starter checks the active Aimucor image and runs it. -/
  | imageCheck (ok : Bool)
  /-- SELFTEST_COMPLETE (R546): Self-test completes, retiring or marking failed units, and ports are enabled. -/
  | selftestComplete (failures : List SelfTestFailure)
  /-- PAIRING_RESOLVED (R547): Pairing resolves when the twins join or after 10 s. -/
  | pairingResolved
  /-- LINKS_RESOLVED (R547): Links resolve when every enabled port is UP or 10 s have passed. -/
  | linksResolved
  /-- ADDRESSING_RESOLVED (R547): Addressing resolves when every up Ethernet port has addresses or 5 s have passed. -/
  | addressingResolved
  /-- OS_BOOT (R545): The system image is checked and the host cores are released into it. -/
  | osBoot (entry : BitVec 52)
  /-- READY (R545): The claim session is offered and READY or UNFIT is posted. -/
  | ready
  /-- TRIAL_BOOT_TIMEOUT (R515): A trial image that does not reach READY within 45 s resets into the previous slot. -/
  | trialBootTimeout
  /-- ETH_LINK_UP (R491): An Ethernet port completes auto-negotiation and comes up. -/
  | ethLinkUp (e : Fin 8)
  /-- ETH_LINK_DOWN (R510): An Ethernet port goes down; its sessions move path and its queue pairs enter error. -/
  | ethLinkDown (e : Fin 8)
  /-- ARP (R494): The port answers an ARP request. -/
  | arp (e : Fin 8) (target : W32)
  /-- NEIGHBOR_DISCOVERY (R494): The port answers IPv6 neighbour discovery. -/
  | neighborDiscovery (e : Fin 8) (target : BitVec 128)
  /-- ECHO (R494): The port answers an ICMPv4 or ICMPv6 echo request. -/
  | echo (e : Fin 8) (v6 : Bool) (target : BitVec 128) (data : List Byte)
  /-- DHCP_LEASE (R494): A DHCPv4 or SLAAC exchange assigns a port address. -/
  | dhcpLease (e : Fin 8) (v4 : Option W32) (v6 : Option (BitVec 128))
  /-- PAUSE_FRAME (R493): A received pause or PFC frame pauses transmission. -/
  | pauseFrame (e : Fin 8) (prio : Byte) (quanta : Nat)
  /-- XON (R493): The receive buffer drains to 512 KiB and the port sends XON. -/
  | xon (e : Fin 8)
  /-- SEND (R499): A RoCEv2 SEND consumes a receive-ring record. -/
  | send (qp : Nat) (imm : Option W32) (ce : Bool) (data : List Byte)
  /-- RDMA_WRITE (R498): A RoCEv2 RDMA WRITE writes a registered region or rings a doorbell. -/
  | rdmaWrite (qp : Nat) (rkey : W32) (va : W64) (imm : Option W32) (ce : Bool) (data : List Byte)
  /-- RDMA_READ (R498): A RoCEv2 RDMA READ returns bytes of a registered region. -/
  | rdmaRead (qp : Nat) (rkey : W32) (va : W64) (len : Nat) (ce : Bool)
  /-- RDMA_ATOMIC (R497): An atomic or other unsupported request gets an invalid-request NAK and errors the queue pair. -/
  | rdmaAtomic (qp : Nat)
  /-- CNP (R495): A received congestion notification halves a queue pair's READ response rate. -/
  | cnp (qp : Nat)
  /-- CNP_RATE_RECOVERY (R495): Each 50 µs without a CNP raises the queue pair's rate by 1/16 of the port rate. -/
  | cnpRateRecovery (qp : Nat)
  /-- HELLO (R505): A Suilo HELLO assigns a mailbox and starts a session handshake. -/
  | suiloHello (k : SuiloPacket)
  /-- AUTH (R506): A Suilo AUTH completes or refuses authentication and derives session keys. -/
  | suiloAuth (k : SuiloPacket)
  /-- MBX (R503): A Suilo MBX packet writes a request into the session's mailbox and rings it. -/
  | suiloMbx (k : SuiloPacket)
  /-- SUILO_DOORBELL (R503): A Suilo DOORBELL packet applies queue doorbell writes in entry order. -/
  | suiloDoorbell (k : SuiloPacket)
  /-- ACK (R502): A Suilo ACK acknowledges delivered packets. -/
  | suiloAck (k : SuiloPacket)
  /-- KEEPALIVE (R502): A Suilo KEEPALIVE packet is received. -/
  | suiloKeepalive (k : SuiloPacket)
  /-- PATH (R510): A Suilo PATH probe or reply is received, possibly moving the session path. -/
  | suiloPath (k : SuiloPacket)
  /-- CLOSE (R508): A Suilo CLOSE ends the session. -/
  | suiloClose (k : SuiloPacket)
  /-- SUILO_RETRANSMIT (R502): An unacknowledged Suilo packet is resent after its backoff interval. -/
  | suiloRetransmit (session : W32) (seq : Nat)
  /-- SUILO_ACK_TIMER (R502): A receiver acknowledges within 100,000 timer cycles of receipt. -/
  | suiloAckTimer (session : W32)
  /-- KEEPALIVE_TIMER (R502): After 10 ms with nothing to send, the device sends KEEPALIVE. -/
  | keepaliveTimer (session : W32)
  /-- SESSION_IDLE_TIMEOUT (R508): A session without an authenticated packet for 30 s closes. -/
  | sessionIdleTimeout (session : W32)
  /-- HANDSHAKE_TIMEOUT (R505): A handshake not authenticated within 1 s ends with REFUSE. -/
  | handshakeTimeout (session : W32)
  /-- CLOSING_TIMEOUT (R505): A CLOSING session ends in CLOSED after its timeout. -/
  | closingTimeout (session : W32)
  /-- PATH_LOSS (R510): A path silent for 30 ms is left and PATH probes go out on every candidate. -/
  | pathLoss (session : W32)
  /-- PATH_PROBE_RETRY (R510): Without a reply, path probes are resent every 100 ms. -/
  | pathProbeRetry (session : W32)
  /-- ALERT_STATUS (R560): SMBus read or write-one-to-clear of the alert status byte. -/
  | alertStatus (write : Option Byte)
  /-- ALERT_MASK (R559): SMBus read or write of the alert mask. -/
  | alertMask (write : Option Byte)
  /-- STATE (R559): SMBus read of the device state. -/
  | smbState
  /-- TEMP (R559): SMBus block read of the hottest temperatures. -/
  | smbTemp
  /-- POWER (R559): SMBus read of module input power. -/
  | smbPower
  /-- VIN (R559): SMBus read of input voltage. -/
  | smbVin
  /-- SERIAL (R559): SMBus block read of the identity serial. -/
  | smbSerial
  /-- SITE (R559): SMBus read of the latched SITE_ID. -/
  | smbSite
  /-- ALERT_RESPONSE_ADDRESS (R558): The SMBus target answers the Alert Response Address while it drives ALERT_N. -/
  | alertResponseAddress
  /-- FRU_READ (R559): SMBus read of FRU data at address 0x50. -/
  | fruRead (offset : BitVec 12)
  /-- EXTEST (R562): JTAG boundary-scan external test, holding the device in reset. -/
  | tapExtest
  /-- SAMPLE_PRELOAD (R562): JTAG sample or preload of the boundary register. -/
  | samplePreload (load : Option (List Bool))
  /-- IDCODE (R562): JTAG read of the IDCODE 0x1D80_0A6F. -/
  | tapIdcode
  /-- EXTEST_PULSE (R562): IEEE 1149.6 AC test of ETH and PP lanes. -/
  | extestPulse
  /-- EXTEST_TRAIN (R562): IEEE 1149.6 pulse-train test of ETH and PP lanes. -/
  | extestTrain
  /-- DEBUG (R562): JTAG instruction selecting the debug port. -/
  | tapDebug
  /-- BYPASS (R562): JTAG bypass, selected by every unlisted code. -/
  | tapBypass (code : Byte)
  /-- SCALAR_INSTRUCTION (R428): A host core executes an ordinary RV64GC instruction: load, store, scalar floating point, CSR
  access, branch, WFI or trap. -/
  | scalarInstruction (n : Fin 32) (w : W32)
  /-- BACKGROUND_SELF_TEST (R392): Background self-test of a SPARE heat completes, and a heat that fails it becomes RETIRED with
  a SELFTEST fault record. -/
  | backgroundSelfTest (heat : Fin 104) (passed : Bool)
  /-- UNIT_SELF_TEST (R410): The self-test that the D800 runs on the units concerned after a link DOWN, Judge mismatch or digest
  mismatch completes, retiring a failing unit, declaring the device unfit, or recording cause CABLE. -/
  | unitSelfTest (port : Fin 7) (unit : UnitRef) (passed : Bool) (partnerPassed : Bool)
  /-- LANE_LOCK (R332): Every receive lane of a port locks to the partner's training sequence (event 3 of port bring-up). -/
  | laneLock (p : Fin 7)
  /-- FEC_LOCK (R332): Frame phase and deskew are found and FEC lock is gained, after which HELLO is exchanged (event 4). -/
  | fecLock (p : Fin 7)
  /-- PWR_GOOD (R545): Every rail reaches regulation, the internal oscillator runs, PWR_GOOD is asserted and RESET_N sampling
  begins (event 2 of power-up). -/
  | pwrGood
  /-- TRST_N (R562): Assertion of TRST_N puts the TAP in Test-Logic-Reset, ending any EXTEST hold of the device. -/
  | trstN
  /-- RX_DROP (R494): An Ethernet port receives a frame that it drops and counts in rx_drop: an unaccepted protocol, a full
  receive buffer without flow control, or an unsupported RoCEv2 transport. -/
  | rxDrop (e : Fin 8) (why : DropCause)
  /-- SUILO_BAD (R500): A Suilo packet with a wrong version, reserved type, nonzero reserved field, failing tag or foreign
  serial is discarded and counted, or one for an unknown session is answered with a rate-limited REFUSE. -/
  | suiloBad (e : Fin 8) (why : SuiloFlaw) (from_ : BitVec 160)
  deriving DecidableEq, Repr

end Sys2Proof
end

