-- ==== Sys2Proof/Decode.lean ====
section
/-! DEFINITION. The word form of commands. The opcode table gives its rows no bits: a macro-op's slot is read from queue
memory by its sequencer, and every other row is an event of the block. -/

namespace Sys2Proof

/-- The command that a word spells by the table's bits: no row has any. DESIGN CHOICE, log 8. -/
def decodeTableWord (_nbits _w : Nat) : Option Instr := none

end Sys2Proof
end

