-- ==== Sys2Proof/Config.lean ====
section
/-! DEFINITION. What an implementation fixes and what the spec leaves open: constants without a body. Nothing in Lean
can evaluate them, so a statement about the model holds for every value of them. -/

namespace Sys2Proof.Config

/-- Free words: the value the spec leaves open at the `n`-th use of a free value (State.free counts them).
DESIGN CHOICE, log 12. -/
opaque freeValue : Nat → W64

/-- The exact value of an elementary function where no enclosure of up to 4,096 fraction bits separates it from a
rounding boundary: function code (R121, R168), the operand's bits. DESIGN CHOICE, log 9. -/
opaque unresolved : Nat → Nat → Nat

/-- What the module was built with: fuses, boot store and image words that the spec names but does not state.
DESIGN CHOICE, log 3. -/
opaque fuseByte : Nat → Byte

/-- Inbound channels of a unit besides the one on which a marker first reaches it, by unit field (R420). -/
opaque inbound : Nat → Nat

/-- SHA-512 of a byte list (64 bytes), cited by R506, R509, R513 and R516. DESIGN CHOICE, log 10. -/
opaque sha512 : List Byte → List Byte

/-- ECDSA over P-521 with SHA-512: the signature of a message under a private key (named by a number), 132 bytes. -/
opaque ecdsaSign : Nat → List Byte → List Byte

/-- ECDSA verification: public key, message, signature. DESIGN CHOICE, log 10. -/
opaque ecdsaVerify : List Byte → List Byte → List Byte → Bool

/-- The session keys of R507: the handshake's transcript to a pair of keys, host-to-device and device-to-host.
DESIGN CHOICE, log 10. -/
opaque sessionKeys : List Byte → List Byte × List Byte

/-- The device's ephemeral or SPAKE2+ share for a handshake, 133 bytes, from a free number. -/
opaque ephemeralShare : Nat → List Byte

/-- The SPAKE2+ confirmations of RFC 9383: `true` for confirmP, `false` for confirmV, 64 bytes each. -/
opaque spakeConfirm : Bool → List Byte → List Byte

/-- AES-256-GCM sealing of a packet under a key: header, payload. DESIGN CHOICE, log 10. -/
opaque sealPacket : List Byte → List Byte → List Byte → List Byte

/-- Whether a firmware image checks against Iantokan's key (R513, R514). -/
opaque imageVerifies : List Byte → Bool

end Sys2Proof.Config
end

