-- ==== Sys2Proof/Machine/Numbers.lean ====
section
/-! DEFINITION. Exact numbers and their rounding: values as signed dyadics, exact addition and multiplication, the
rounding procedure of R52, and quotients and roots as dyadics with a sticky last bit. -/

namespace Sys2Proof.Machine

/-- A value of a floating-point path: NaN, an infinity, or the finite value (−1)^neg · m · 2^e; m = 0 is the zero of
that sign. -/
inductive Num where
  | nan
  | inf (neg : Bool)
  | fin (neg : Bool) (m : Nat) (e : Int)
  deriving DecidableEq, Repr

/-- Rounding modes: the four of R50, and the three further ones of the RISC-V host cores (R48). -/
inductive RMode where
  | rne | rtz | rto | sr | rdn | rup | rmm
  deriving DecidableEq, Repr

/-- The rounding code of R50. -/
def RMode.ofCode (c : Nat) : RMode :=
  match c with
  | 0 => .rne
  | 1 => .rtz
  | 2 => .rto
  | _ => .sr

namespace Num

def zero (neg : Bool := false) : Num := .fin neg 0 0

def one : Num := .fin false 1 0

def ofInt (i : Int) : Num := .fin (i < 0) i.natAbs 0

def isNaN : Num → Bool
  | .nan => true
  | _ => false

def isInf : Num → Bool
  | .inf _ => true
  | _ => false

def isFinite : Num → Bool
  | .fin _ _ _ => true
  | _ => false

def isZero : Num → Bool
  | .fin _ 0 _ => true
  | _ => false

def sign : Num → Bool
  | .nan => false
  | .inf n => n
  | .fin n _ _ => n

def neg : Num → Num
  | .nan => .nan
  | .inf n => .inf (!n)
  | .fin n m e => .fin (!n) m e

def abs : Num → Num
  | .nan => .nan
  | .inf _ => .inf false
  | .fin _ m e => .fin false m e

def withSign (neg : Bool) : Num → Num
  | .nan => .nan
  | .inf _ => .inf neg
  | .fin _ m e => .fin neg m e

end Num

/-- The signed integer `±m`. -/
def sInt (neg : Bool) (m : Nat) : Int := if neg then -(m : Int) else (m : Int)

/-- `m · 2^k` for `k` at least 0, and `floor (m / 2^(-k))` otherwise. -/
def shiftNat (m : Nat) (k : Int) : Nat :=
  if 0 ≤ k then m <<< k.toNat else m >>> (-k).toNat

/-- `floor (i · 2^k)` on signed integers. -/
def shiftFloor (i : Int) (k : Int) : Int :=
  if 0 ≤ k then i * ((1 <<< k.toNat : Nat) : Int) else Int.fdiv i ((1 <<< (-k).toNat : Nat) : Int)

/-- The order of two dyadic magnitudes. -/
def cmpMag (m1 : Nat) (e1 : Int) (m2 : Nat) (e2 : Int) : Ordering :=
  if m1 = 0 ∨ m2 = 0 then compare m1 m2
  else
    let h1 := e1 + (m1.log2 : Int)
    let h2 := e2 + (m2.log2 : Int)
    if h1 < h2 then .lt
    else if h2 < h1 then .gt
    else
      let e := min e1 e2
      compare (m1 <<< (e1 - e).toNat) (m2 <<< (e2 - e).toNat)

namespace Num

/-- The order of two numbers; none if either is NaN. Zeros of either sign compare equal. -/
def cmp (a b : Num) : Option Ordering :=
  match a, b with
  | .nan, _ => none
  | _, .nan => none
  | .inf x, .inf y => some (if x = y then .eq else if x then .lt else .gt)
  | .inf x, .fin _ _ _ => some (if x then .lt else .gt)
  | .fin _ _ _, .inf y => some (if y then .gt else .lt)
  | .fin x m1 e1, .fin y m2 e2 =>
    if m1 = 0 ∧ m2 = 0 then some .eq
    else if m1 = 0 then some (if y then .gt else .lt)
    else if m2 = 0 then some (if x then .lt else .gt)
    else
      match x, y with
      | false, true => some .gt
      | true, false => some .lt
      | false, false => some (cmpMag m1 e1 m2 e2)
      | true, true => some (cmpMag m2 e2 m1 e1)

def lt (a b : Num) : Bool := cmp a b == some .lt
def le (a b : Num) : Bool := cmp a b == some .lt || cmp a b == some .eq
def eqv (a b : Num) : Bool := cmp a b == some .eq

/-- The exact sum; an exact zero from operands that are not both negative zeros is +0 (R99). -/
def add (a b : Num) : Num :=
  match a, b with
  | .nan, _ => .nan
  | _, .nan => .nan
  | .inf x, .inf y => if x = y then .inf x else .nan
  | .inf x, .fin _ _ _ => .inf x
  | .fin _ _ _, .inf y => .inf y
  | .fin x m1 e1, .fin y m2 e2 =>
    if m1 = 0 ∧ m2 = 0 then .fin (x && y) 0 0
    else if m1 = 0 then .fin y m2 e2
    else if m2 = 0 then .fin x m1 e1
    else
      let e := min e1 e2
      let i := sInt x (m1 <<< (e1 - e).toNat) + sInt y (m2 <<< (e2 - e).toNat)
      if i = 0 then .fin false 0 0 else .fin (i < 0) i.natAbs e

def sub (a b : Num) : Num := add a (neg b)

/-- The exact product; an infinity times a zero is NaN. -/
def mul (a b : Num) : Num :=
  match a, b with
  | .nan, _ => .nan
  | _, .nan => .nan
  | .inf x, .inf y => .inf (x != y)
  | .inf x, .fin y m _ => if m = 0 then .nan else .inf (x != y)
  | .fin x m _, .inf y => if m = 0 then .nan else .inf (x != y)
  | .fin x m1 e1, .fin y m2 e2 => .fin (x != y) (m1 * m2) (e1 + e2)

/-- Append a sticky bit to a truncated magnitude: the value rounds as the exact one does at every coarser step. -/
def sticky (neg : Bool) (q : Nat) (inexact : Bool) (e : Int) : Num :=
  .fin neg (2 * q + (if inexact then 1 else 0)) (e - 1)

/-- The quotient, to at least 128 bits with a sticky bit. A finite nonzero divided by a zero is an infinity. -/
def div (a b : Num) : Num :=
  match a, b with
  | .nan, _ => .nan
  | _, .nan => .nan
  | .inf _, .inf _ => .nan
  | .inf x, .fin y _ _ => .inf (x != y)
  | .fin x _ _, .inf y => .fin (x != y) 0 0
  | .fin x m1 e1, .fin y m2 e2 =>
    if m2 = 0 then (if m1 = 0 then .nan else .inf (x != y))
    else if m1 = 0 then .fin (x != y) 0 0
    else
      let k := 128 + m2.log2
      let n := m1 <<< k
      sticky (x != y) (n / m2) (n % m2 != 0) (e1 - e2 - (k : Int))

/-- Digit-by-digit integer square root: the largest `r` below `acc + 2^k` with `r² ≤ n`. -/
def isqrtAux (n : Nat) : Nat → Nat → Nat
  | 0, acc => acc
  | k + 1, acc =>
    let t := acc + (1 <<< k)
    isqrtAux n k (if t * t ≤ n then t else acc)

def isqrt (n : Nat) : Nat := isqrtAux n (n.log2 / 2 + 1) 0

/-- The square root, to at least 128 bits with a sticky bit; of a negative nonzero number, NaN. -/
def sqrt (a : Num) : Num :=
  match a with
  | .nan => .nan
  | .inf true => .nan
  | .inf false => .inf false
  | .fin x m e =>
    if m = 0 then .fin x 0 0
    else if x then .nan
    else
      let odd := e % 2
      let n := m <<< (256 + odd.toNat)
      let r := isqrt n
      sticky false r (r * r != n) ((e - odd - 256) / 2)

/-- The smaller (larger) operand under R169: NaN if either is NaN, the first on equality. -/
def minR (a b : Num) : Num :=
  if isNaN a || isNaN b then .nan else if lt b a then b else a

def maxR (a b : Num) : Num :=
  if isNaN a || isNaN b then .nan else if lt a b then b else a

end Num

/-- The multiple `n` of the step 2^u that R52 rounds the magnitude m · 2^e to; `r` is the 16-bit draw of SR. -/
def roundAt (mode : RMode) (r : Nat) (neg : Bool) (m : Nat) (e u : Int) : Nat :=
  if u ≤ e then m <<< (e - u).toNat
  else
    let sh := (u - e).toNat
    let n := m >>> sh
    let rem := m - (n <<< sh)
    let half := 1 <<< (sh - 1)
    let up : Bool :=
      match mode with
      | .rne => decide (half < rem) || (decide (rem = half) && decide (n % 2 = 1))
      | .rmm => decide (half ≤ rem)
      | .rtz => false
      | .rto => decide (0 < rem) && decide (n % 2 = 0)
      | .rdn => neg && decide (0 < rem)
      | .rup => !neg && decide (0 < rem)
      | .sr => decide (2 ^ 16 ≤ ((rem <<< 16) >>> sh) + r)
    if up then n + 1 else n

/-- R52 for a floating-point target of `p` significand bits: the rounded magnitude. `qmin` is the exponent of the
smallest step, none where the path flushes. -/
def roundMag (p : Nat) (qmin : Option Int) (mode : RMode) (r : Nat) (neg : Bool) (m : Nat) (e : Int) : Nat × Int :=
  if m = 0 then (0, 0)
  else
    let u0 := e + (m.log2 : Int) - (p : Int) + 1
    let u := match qmin with
      | none => u0
      | some q => max u0 q
    (roundAt mode r neg m e u, u)

/-- R52 for an integer target: the rounded integer. -/
def roundInt (mode : RMode) (r : Nat) (neg : Bool) (m : Nat) (e : Int) (u : Int := 0) : Int :=
  sInt neg (roundAt mode r neg m e u)

end Sys2Proof.Machine
end

