-- ==== Sys2Proof/Machine/Functions.lean ====
section
/-! DEFINITION. The elementary functions of R121 and R168 by their exact values: enclosures in fixed point at growing
precision until the value's leading bits are settled, delivered as a dyadic with a sticky bit. -/

namespace Sys2Proof.Machine

/-- An enclosure: the value times 2^w lies between `lo` and `hi`. -/
structure Encl where
  lo : Int
  hi : Int
  deriving DecidableEq, Repr

namespace Encl

def ceilDivI (a b : Int) : Int := -(Int.fdiv (-a) b)

def point (i : Int) : Encl := ⟨i, i⟩
def ofNat (w n : Nat) : Encl := point ((n <<< w : Nat) : Int)
def add (a b : Encl) : Encl := ⟨a.lo + b.lo, a.hi + b.hi⟩
def neg (a : Encl) : Encl := ⟨-a.hi, -a.lo⟩
def sub (a b : Encl) : Encl := add a (neg b)

def mul (w : Nat) (a b : Encl) : Encl :=
  let x1 := a.lo * b.lo
  let x2 := a.lo * b.hi
  let x3 := a.hi * b.lo
  let x4 := a.hi * b.hi
  let d : Int := ((1 <<< w : Nat) : Int)
  ⟨Int.fdiv (min (min x1 x2) (min x3 x4)) d, ceilDivI (max (max x1 x2) (max x3 x4)) d⟩

def divNat (a : Encl) (n : Nat) : Encl := ⟨Int.fdiv a.lo n, ceilDivI a.hi n⟩

/-- The quotient by an enclosure of a positive number. -/
def div (w : Nat) (a b : Encl) : Encl :=
  let s : Int := ((1 <<< w : Nat) : Int)
  let b1 := max b.lo 1
  let b2 := max b.hi 1
  ⟨min (Int.fdiv (a.lo * s) b1) (Int.fdiv (a.lo * s) b2), max (ceilDivI (a.hi * s) b1) (ceilDivI (a.hi * s) b2)⟩

def shift (a : Encl) (k : Int) : Encl := ⟨shiftFloor a.lo k, -(shiftFloor (-a.hi) k)⟩

def widen (a : Encl) (k : Int) : Encl := ⟨a.lo - k, a.hi + k⟩

/-- The dyadic `±m · 2^e` at `w` fraction bits. -/
def ofDyadic (w : Nat) (neg : Bool) (m : Nat) (e : Int) : Encl :=
  shift (point (sInt neg m)) (e + w)

end Encl

open Encl

/-- Σ x^(2k+1) / (2k+1), k from `k0`, for `n` terms: atanh for `alt` false, atan for `alt` true. -/
def oddSeries (w : Nat) (alt : Bool) (x2 : Encl) : Nat → Nat → Encl → Encl → Encl
  | 0, _, _, acc => acc
  | n + 1, k, p, acc =>
    let t := divNat p (2 * k + 1)
    oddSeries w alt x2 n (k + 1) (mul w p x2) (if alt && k % 2 == 1 then sub acc t else add acc t)

/-- atanh of an enclosure of magnitude at most 1/3. -/
def atanhE (w : Nat) (z : Encl) : Encl :=
  widen (oddSeries w false (mul w z z) (w / 3 + 8) 0 z (point 0)) 2

/-- atan (1 / n) for n at least 5. -/
def atanInv (w n : Nat) : Encl :=
  let z := divNat (ofNat w 1) n
  widen (oddSeries w true (mul w z z) (w / 4 + 8) 0 z (point 0)) 2

def ln2E (w : Nat) : Encl := shift (atanhE w (divNat (ofNat w 1) 3)) 1

def piE (w : Nat) : Encl :=
  sub (shift (atanInv w 5) 4) (shift (atanInv w 239) 2)

/-- Σ x^k / k!, for `n` terms from `k`. -/
def expSeries (w : Nat) (x : Encl) : Nat → Nat → Encl → Encl → Encl
  | 0, _, _, acc => acc
  | n + 1, k, t, acc =>
    let t' := divNat (mul w t x) (k + 1)
    expSeries w x n (k + 1) t' (add acc t')

/-- e^x of an enclosure of magnitude at most 2^11. -/
def expE (w : Nat) (x : Encl) : Encl :=
  let g := w + 16
  let x := shift x 16
  let l := ln2E g
  let k := Int.fdiv (x.lo + Int.fdiv l.lo 2) l.lo
  let r := sub x ⟨min (k * l.lo) (k * l.hi), max (k * l.lo) (k * l.hi)⟩
  let s := widen (expSeries g r (g / 2 + 8) 0 (ofNat g 1) (ofNat g 1)) 2
  shift (shift s k) (-16)

/-- ln of a positive dyadic m · 2^e. -/
def lnDyadic (w : Nat) (m : Nat) (e : Int) : Encl :=
  let b := m.log2
  -- the mantissa scaled into [1, 2), and halved where it is above 4/3 or so
  let big : Bool := decide (4 * (1 <<< b) < 3 * m)
  let k : Int := e + b + (if big then 1 else 0)
  let one : Nat := if big then 2 <<< b else 1 <<< b
  let num : Int := (m : Int) - (one : Int)
  let den : Int := (m : Int) + (one : Int)
  let s : Int := ((1 <<< w : Nat) : Int)
  let z : Encl := ⟨Int.fdiv (num * s) den, ceilDivI (num * s) den⟩
  let l := ln2E w
  add ⟨min (k * l.lo) (k * l.hi), max (k * l.lo) (k * l.hi)⟩ (shift (atanhE w z) 1)

/-- ln (1 + t) of an enclosure of t in [0, 1]. -/
def ln1pE (w : Nat) (t : Encl) : Encl :=
  shift (atanhE w (div w t (add t (ofNat w 2)))) 1

/-- Alternating series of sine (start 1) and cosine (start 0). -/
def trigSeries (w : Nat) (x2 : Encl) : Nat → Nat → Encl → Encl → Encl
  | 0, _, _, acc => acc
  | n + 1, k, t, acc =>
    let t' := neg (divNat (divNat (mul w t x2) (k + 1)) (k + 2))
    trigSeries w x2 n (k + 2) t' (add acc t')

def sinSmall (w : Nat) (x : Encl) : Encl :=
  widen (trigSeries w (mul w x x) (w / 4 + 8) 1 x x) 2

def cosSmall (w : Nat) (x : Encl) : Encl :=
  widen (trigSeries w (mul w x x) (w / 4 + 8) 0 (ofNat w 1) (ofNat w 1)) 2

/-- Sine (`q` = 0) or cosine (`q` = 1) of the dyadic x. -/
def sinE (w : Nat) (q : Int) (neg : Bool) (m : Nat) (e : Int) : Encl :=
  let g := w + 16 + (max 0 (e + m.log2 + 1)).toNat
  let half := shift (piE g) (-1)
  let x := ofDyadic g neg m e
  let k := Int.fdiv (x.lo + Int.fdiv half.lo 2) half.lo
  let r0 := sub x ⟨min (k * half.lo) (k * half.hi), max (k * half.lo) (k * half.hi)⟩
  let r := shift r0 ((w : Int) - (g : Int))
  match (k + q) % 4 with
  | 0 => sinSmall w r
  | 1 => cosSmall w r
  | 2 => Encl.neg (sinSmall w r)
  | _ => Encl.neg (cosSmall w r)

/-- The terms of Σ 2^n x^(2n+1) / (2n+1)!!, all positive. -/
def erfSeries (w : Nat) (x2 : Encl) : Nat → Nat → Encl → Encl → Encl × Encl
  | 0, _, t, acc => (t, acc)
  | n + 1, k, t, acc =>
    let t' := divNat (shift (mul w t x2) 1) (2 * k + 3)
    erfSeries w x2 n (k + 1) t' (add acc t')

def sqrtNatE (w : Nat) (n : Encl) : Encl :=
  let a := Num.isqrt ((max 0 n.lo).toNat <<< w)
  let b := Num.isqrt ((max 0 n.hi).toNat <<< w)
  ⟨a, b + 1⟩

/-- erf of an enclosure of a number in [0, 32]. -/
def erfE (w : Nat) (x : Encl) : Encl :=
  let x2 := mul w x x
  let bound := (shiftFloor x2.hi (-(w : Int))).toNat + 1
  let (t, s) := erfSeries w x2 (4 * bound + w + 16) 0 x x
  let s := Encl.mk s.lo (s.hi + t.hi + 1)
  -- 2 / sqrt(pi) · e^(-x²) · s
  shift (div w (mul w (expE w (Encl.neg x2)) s) (sqrtNatE w (piE w))) 1

/-- The leading bits of the value that the enclosures close in on, with a sticky bit. DESIGN CHOICE, log 9. -/
def settle (f : Nat → Encl) : List Nat → Option Num
  | [] => none
  | w :: ws =>
    let v := f w
    let sgn : Bool := decide (v.hi < 0)
    let a := if sgn then -v.hi else v.lo
    let b := if sgn then -v.lo else v.hi
    if a ≤ 0 then settle f ws
    else
      let k := a.toNat.log2
      if k < 100 then settle f ws
      else
        let sh := k - 99
        let qa := a.toNat >>> sh
        let qb := b.toNat >>> sh
        if qa = qb ∧ qa <<< sh ≠ a.toNat then some (Num.sticky sgn qa true ((sh : Int) - (w : Int)))
        else settle f ws

/-- The precisions tried, in fraction bits. DESIGN CHOICE, log 9. -/
def precisions : List Nat := [192, 512, 1300, 4096]

/-- The settled value, or a free value where no precision settles it. DESIGN CHOICE, log 9. -/
def resolve (code bits : Nat) (f : Nat → Encl) : Num :=
  match settle f precisions with
  | some v => v
  | none => .fin false (Config.unresolved code bits) 0

/-- A positive magnitude below every format's smallest step, and one above every format's largest. -/
def tiny (neg : Bool) : Num := .fin neg 1 (-2000)
def huge (neg : Bool) : Num := .fin neg 1 2000

/-- The value just below (`down`) or above m · 2^e in magnitude. -/
def nudge (neg : Bool) (m : Nat) (e : Int) (down : Bool) : Num :=
  .fin neg (if down then (m <<< 200) - 1 else (m <<< 200) + 1) (e - 200)

/-- The function codes of R168 (EXP to SOFTPLUS); RSQRT and RECIP stand among them. -/
inductive Fn where
  | exp | log | exp2 | log2 | sin | cos | tanh | sigmoid | erf | rsqrt | recip
  | geluTanh | geluErf | silu | softplus
  deriving DecidableEq, Repr

def Fn.ofCode (c : Nat) : Option Fn :=
  [Fn.exp, .log, .exp2, .log2, .sin, .cos, .tanh, .sigmoid, .erf, .rsqrt, .recip, .geluTanh, .geluErf, .silu,
    .softplus][c]?

/-- Whether the magnitude m · 2^e exceeds 2^k. -/
def above (m : Nat) (e : Int) (k : Int) : Bool := cmpMag m e 1 k == .gt

/-- 1 / (1 + e^-x) at precision w. -/
def sigmoidE (w : Nat) (x : Encl) : Encl :=
  div w (ofNat w 1) (add (ofNat w 1) (expE w (Encl.neg x)))

/-- tanh x = 1 - 2 / (e^(2x) + 1). -/
def tanhE (w : Nat) (x : Encl) : Encl :=
  sub (ofNat w 1) (shift (div w (ofNat w 1) (add (ofNat w 1) (expE w (shift x 1)))) 1)

/-- erf of a signed enclosure. -/
def erfSigned (w : Nat) (neg : Bool) (x : Encl) : Encl :=
  if neg then Encl.neg (erfE w (Encl.neg x)) else erfE w x

/-- The exact value of a function at a finite nonzero x (R121, R168), sticky. -/
def fnFinite (f : Fn) (neg : Bool) (m : Nat) (e : Int) : Num :=
  let x (w : Nat) : Encl := ofDyadic w neg m e
  let bits := m
  match f with
  | .exp => if above m e 10 then (if neg then tiny false else huge false) else resolve 0 bits fun w => expE w (x w)
  | .log =>
    if neg then .nan
    else if cmpMag m e 1 0 == .eq then .zero
    else resolve 1 bits fun w => lnDyadic w m e
  | .exp2 =>
    if above m e 11 then (if neg then tiny false else huge false)
    else
      let fl := shiftFloor (sInt neg m) e
      if 0 ≤ e ∨ Encl.ofDyadic 0 neg m e = ⟨fl, fl⟩ then .fin false 1 fl
      else resolve 2 bits fun w => expE w (mul w (x w) (ln2E w))
  | .log2 =>
    if neg then .nan
    else if m = 1 <<< m.log2 then .ofInt (e + m.log2)
    else resolve 3 bits fun w => div w (lnDyadic w m e) (ln2E w)
  | .sin => resolve 4 bits fun w => sinE w 0 neg m e
  | .cos => resolve 5 bits fun w => sinE w 1 neg m e
  | .tanh => if above m e 10 then nudge neg 1 0 true else resolve 6 bits fun w => tanhE w (x w)
  | .sigmoid =>
    if above m e 10 then (if neg then tiny false else nudge false 1 0 true)
    else resolve 7 bits fun w => sigmoidE w (x w)
  | .erf => if above m e 5 then nudge neg 1 0 true else resolve 8 bits fun w => erfSigned w neg (x w)
  | .rsqrt => if neg then .nan else .div .one (.sqrt (.fin false m e))
  | .recip => .div .one (.fin neg m e)
  | .geluTanh =>
    -- beyond 24 the distance from x, or from 0, is below 2^-1400
    if cmpMag m e 3 3 == .gt then (if neg then tiny true else nudge false m e true)
    else resolve 11 bits fun w =>
      let x := x w
      let x3 := mul w x (mul w x x)
      let c := sqrtNatE w (div w (ofNat w 2) (piE w))
      let t := mul w c (add x (divNat ⟨x3.lo * 44715, x3.hi * 44715⟩ 1000000))
      -- 0.5 · x · (1 + tanh t) = x / (1 + e^(-2t))
      mul w x (sigmoidE w (shift t 1))
  | .geluErf =>
    -- beyond 40 it is below 2^-1100
    if cmpMag m e 5 3 == .gt then (if neg then tiny true else nudge false m e true)
    else resolve 12 bits fun w =>
      let x := x w
      let s := div w x (sqrtNatE w (ofNat w 2))
      mul w x (shift (add (ofNat w 1) (erfSigned w neg s)) (-1))
  | .silu =>
    if above m e 11 then (if neg then tiny true else nudge false m e true)
    else resolve 13 bits fun w => mul w (x w) (sigmoidE w (x w))
  | .softplus =>
    if above m e 11 then (if neg then tiny false else nudge false m e false)
    else resolve 14 bits fun w =>
      let x := x w
      if neg then ln1pE w (expE w x) else add x (ln1pE w (expE w (Encl.neg x)))

/-- A function's exact value at any operand (R123, and IEEE 754-2019 where it recommends the function). ERF, which neither
names, has its limits ±1 at the infinities and keeps the sign of a zero. DESIGN CHOICE, log 9, DESIGN CHOICE, log 124. -/
def fnValue (f : Fn) (a : Num) : Num :=
  match a with
  | .nan => .nan
  | .inf n =>
    match f with
    | .exp | .exp2 | .sigmoid | .softplus =>
      if n then .zero else (if f = .sigmoid then .one else .inf false)
    | .log | .log2 => if n then .nan else .inf false
    | .sin | .cos => .nan
    | .tanh | .erf => .fin n 1 0
    | .rsqrt => if n then .nan else .zero
    | .recip => .zero n
    | .geluTanh | .geluErf | .silu => if n then .zero true else .inf false
  | .fin n m e =>
    if m = 0 then
      match f with
      | .exp | .exp2 | .cos => .one
      | .log | .log2 => .inf true
      | .sin | .tanh | .erf | .geluTanh | .geluErf | .silu => .zero n
      | .sigmoid => .fin false 1 (-1)
      | .rsqrt | .recip => .inf n
      | .softplus => resolve 14 0 fun w => ln2E w
    else fnFinite f n m e

/-- exp (x) / s for finite x and a positive finite s (the quotients of R149), sticky. -/
def expOver (x : Num) (s : Num) : Num :=
  match x, s with
  | .fin n m e, .fin _ ms es =>
    if m = 0 then .div .one s
    else if above m e 11 then (if n then tiny false else huge false)
    else resolve 16 m fun w => div w (expE w (ofDyadic w n m e)) (ofDyadic w false ms es)
  | _, _ => .div (fnValue .exp x) s

end Sys2Proof.Machine
end

