-- ==== Sys2Proof/Machine/Formats.lean ====
section
/-! DEFINITION. The fifteen formats (R38 to R44), the flush rules (R45 to R47), conversions and their outcomes (R50 to
R63), and block-scaled data (R64 to R71). -/

namespace Sys2Proof.Machine

/-- The format codes of R38. -/
inductive Fmt where
  | fp64 | fp32 | fp19 | bf16 | fp16 | fp8e4 | fp8e5 | fp6e3 | fp6e2 | fp4 | int32 | int8 | int4 | sce8 | wfx640
  deriving DecidableEq, Repr

namespace Fmt

def all : List Fmt :=
  [.fp64, .fp32, .fp19, .bf16, .fp16, .fp8e4, .fp8e5, .fp6e3, .fp6e2, .fp4, .int32, .int8, .int4, .sce8, .wfx640]

/-- The format of a 4-bit code; 0xF is invalid (R38). -/
def ofCode (c : Nat) : Option Fmt := all[c]?

def code : Fmt → Nat
  | .fp64 => 0 | .fp32 => 1 | .fp19 => 2 | .bf16 => 3 | .fp16 => 4 | .fp8e4 => 5 | .fp8e5 => 6 | .fp6e3 => 7
  | .fp6e2 => 8 | .fp4 => 9 | .int32 => 10 | .int8 => 11 | .int4 => 12 | .sce8 => 13 | .wfx640 => 14

/-- Bits an element occupies in memory (R39, R41, R42, R61). -/
def bits : Fmt → Nat
  | .fp64 => 64 | .fp32 => 32 | .fp19 => 32 | .bf16 => 16 | .fp16 => 16 | .fp8e4 => 8 | .fp8e5 => 8 | .fp6e3 => 6
  | .fp6e2 => 6 | .fp4 => 4 | .int32 => 32 | .int8 => 8 | .int4 => 4 | .sce8 => 8 | .wfx640 => 640

end Fmt

/-- How a floating-point format encodes NaN. -/
inductive NanKind where
  /-- Exponent all ones, fraction nonzero; infinities with fraction zero. -/
  | ieee
  /-- Exponent and fraction all ones only; no infinity (FP8E4). -/
  | allOnes
  /-- Neither NaN nor infinity. -/
  | none
  deriving DecidableEq, Repr

/-- A floating-point format's fields and limits (R39, R40). `shift` is where its bits begin in the container. -/
structure FloatSpec where
  expBits : Nat
  frac : Nat
  bias : Int
  kind : NanKind
  shift : Nat
  /-- The largest finite magnitude, maxM · 2^maxE. -/
  maxM : Nat
  maxE : Int
  deriving DecidableEq, Repr

namespace FloatSpec

def p (f : FloatSpec) : Nat := f.frac + 1
/-- The exponent of the smallest normal magnitude. -/
def emin (f : FloatSpec) : Int := 1 - f.bias
/-- The exponent of the smallest subnormal magnitude. -/
def qmin (f : FloatSpec) : Int := f.emin - f.frac
def width (f : FloatSpec) : Nat := 1 + f.expBits + f.frac

end FloatSpec

def Fmt.spec : Fmt → Option FloatSpec
  | .fp64 => some ⟨11, 52, 1023, .ieee, 0, 2 ^ 53 - 1, 971⟩
  | .fp32 => some ⟨8, 23, 127, .ieee, 0, 2 ^ 24 - 1, 104⟩
  | .fp19 => some ⟨8, 10, 127, .ieee, 13, 2 ^ 11 - 1, 117⟩
  | .bf16 => some ⟨8, 7, 127, .ieee, 0, 2 ^ 8 - 1, 120⟩
  | .fp16 => some ⟨5, 10, 15, .ieee, 0, 2 ^ 11 - 1, 5⟩
  | .fp8e4 => some ⟨4, 3, 7, .allOnes, 0, 7, 6⟩
  | .fp8e5 => some ⟨5, 2, 15, .ieee, 0, 7, 13⟩
  | .fp6e3 => some ⟨3, 2, 3, .none, 0, 7, 2⟩
  | .fp6e2 => some ⟨2, 3, 1, .none, 0, 15, -1⟩
  | .fp4 => some ⟨2, 1, 1, .none, 0, 3, 1⟩
  | _ => none

def Fmt.isFloat (f : Fmt) : Bool := f.spec.isSome

/-- The range of an integer format (R40). -/
def Fmt.intBits : Fmt → Option Nat
  | .int32 => some 32
  | .int8 => some 8
  | .int4 => some 4
  | _ => none

def Fmt.isInt (f : Fmt) : Bool := f.intBits.isSome

/-- Two's complement reading of the low `n` bits. -/
def signedOf (n w : Nat) : Int :=
  let v := w % 2 ^ n
  if v < 2 ^ (n - 1) then (v : Int) else (v : Int) - (2 ^ n : Nat)

/-- Two's complement writing in `n` bits. -/
def unsignedOf (n : Nat) (i : Int) : Nat := (i % ((2 ^ n : Nat) : Int)).toNat

/-- Clamp to the range of `n` bits. -/
def clampInt (n : Nat) (i : Int) : Int :=
  max (-((2 ^ (n - 1) : Nat) : Int)) (min i (((2 ^ (n - 1) : Nat) : Int) - 1))

/-- The fields of a raw pattern: sign, exponent, fraction. -/
def FloatSpec.fields (f : FloatSpec) (raw : Nat) : Bool × Nat × Nat :=
  let v := raw >>> f.shift
  ((v >>> (f.expBits + f.frac)) % 2 = 1, (v >>> f.frac) % 2 ^ f.expBits, v % 2 ^ f.frac)

/-- The value of a raw pattern (R39), subnormals kept. -/
def FloatSpec.decode (f : FloatSpec) (raw : Nat) : Num :=
  let (s, e, m) := f.fields raw
  if e = 0 then .fin s m f.qmin
  else if e = 2 ^ f.expBits - 1 ∧ f.kind = .ieee then (if m = 0 then .inf s else .nan)
  else if e = 2 ^ f.expBits - 1 ∧ m = 2 ^ f.frac - 1 ∧ f.kind = .allOnes then .nan
  else .fin s (2 ^ f.frac + m) ((e : Int) - f.bias - f.frac)

/-- Whether a raw pattern is a nonzero subnormal. -/
def FloatSpec.subnormal (f : FloatSpec) (raw : Nat) : Bool :=
  let (_, e, m) := f.fields raw
  e == 0 && m != 0

/-- The canonical quiet NaN (R43). -/
def FloatSpec.nanBits (f : FloatSpec) : Nat :=
  (match f.kind with
    | .allOnes => 2 ^ (f.expBits + f.frac) - 1
    | _ => (2 ^ f.expBits - 1) * 2 ^ f.frac + 2 ^ (f.frac - 1)) <<< f.shift

/-- The pattern of a value that the format represents exactly (subnormals included). -/
def FloatSpec.encode (f : FloatSpec) (x : Num) : Nat :=
  let sb (s : Bool) : Nat := if s then 2 ^ (f.expBits + f.frac) else 0
  match x with
  | .nan => f.nanBits
  | .inf s => (sb s + (2 ^ f.expBits - 1) * 2 ^ f.frac) <<< f.shift
  | .fin s m e =>
    if m = 0 then sb s <<< f.shift
    else
      let top := e + m.log2
      if top < f.emin then (sb s + shiftNat m (e - f.qmin)) <<< f.shift
      else
        let m1 := shiftNat m (e - (top - f.frac))
        (sb s + ((top + f.bias).toNat * 2 ^ f.frac + (m1 - 2 ^ f.frac))) <<< f.shift

/-- An element as a conversion reads it: its value after R45, whether R45 read a nonzero subnormal as zero, whether it
belongs to a NaN block (R69), and whether its INT32 saturation flag is set (R101). -/
structure Elem where
  val : Num
  flushed : Bool := false
  nanBlock : Bool := false
  satFlag : Bool := false
  deriving DecidableEq, Repr

/-- The outcomes of R63. -/
inductive Outc where
  | nonfinite | zero | vanished | overflowed | saturated | ordinary
  deriving DecidableEq, Repr

/-- WFX640 as a number (R61). -/
def wfxDecode (raw : Nat) : Num :=
  if raw % 2 ^ 640 = 2 ^ 639 then .nan
  else
    let i := signedOf 640 raw
    .fin (i < 0) i.natAbs (-320)

/-- The unscaled reading of a raw element on a tensor path (R45). -/
def readElem (f : Fmt) (raw : Nat) : Elem :=
  match f.spec with
  | some fs =>
    if fs.subnormal raw then { val := .zero (fs.fields raw).1, flushed := true }
    else { val := fs.decode raw }
  | none =>
    match f with
    | .int32 => { val := .ofInt (signedOf 32 raw) }
    | .int8 => { val := .ofInt (signedOf 8 raw) }
    | .int4 => { val := .ofInt (signedOf 4 raw) }
    | .sce8 => if raw % 256 = 255 then { val := .nan } else { val := .fin false 1 ((raw % 256 : Nat) - 127) }
    | _ => { val := wfxDecode raw }

/-- Rounding of a value to a floating-point format: the result, whether the rounded magnitude exceeded the largest
finite one, and whether it was flushed (R46, R52, R54). `block` selects the block-element row and keeps subnormals. An
infinity has no place in a format without infinities: it gives NaN, as its block does (R69; DEDUCED, log 123). -/
def FloatSpec.round (f : FloatSpec) (block : Bool) (mode : RMode) (sat : Bool) (r : Nat) (x : Num) : Num × Bool × Bool :=
  let top : Num := .fin x.sign f.maxM f.maxE
  match x with
  | .nan => (.nan, false, false)
  | .inf s =>
    if f.kind == .ieee then (.inf s, false, false)
    else if f.kind == .allOnes then (if sat then top else .nan, false, false)
    else (.nan, false, false)
  | .fin s m e =>
    if m = 0 then (.fin s 0 0, false, false)
    else
      let (n, u) := roundMag f.p (if block then some f.qmin else none) mode r s m e
      if cmpMag n u f.maxM f.maxE == .gt then
        if sat || block || mode == .rtz || mode == .rto then (top, true, false)
        else if f.kind == .ieee then (.inf s, true, false)
        else if f.kind == .allOnes then (.nan, true, false)
        else (top, true, false)
      else if n = 0 then (.fin s 0 0, false, true)
      else if !block && cmpMag n u 1 f.emin == .lt then (.fin s 0 0, false, true)
      else (.fin s n u, false, false)

/-- Stage 1 of a staged conversion (R56): FP64 to FP32 in RTO, never to an infinity; true where a finite value was
above FP32's largest. -/
def stageOne (x : Num) : Num × Bool :=
  match Fmt.spec .fp32 with
  | some f =>
    match x with
    | .fin _ _ _ => let (v, big, _) := f.round false .rto true 0 x; (v, big)
    | _ => (x, false)
  | none => (x, false)

/-- Whether a conversion from FP64 to the target is staged (R56). -/
def Fmt.stagedFromFp64 : Fmt → Bool
  | .fp19 | .bf16 | .fp16 | .fp8e4 | .fp8e5 | .fp6e3 | .fp6e2 | .fp4 => true
  | _ => false

/-- Classify a converted element (R63); a set saturation flag counts under R101 before the zero rows (DEDUCED, log 33). -/
def outcomeOf (x : Elem) (res : Num) (exceeded : Bool) : Outc :=
  if !x.val.isFinite || x.nanBlock then .nonfinite
  else if x.satFlag && res.isFinite then .saturated
  else if x.val.isZero && !x.flushed then .zero
  else if x.flushed || res.isZero then .vanished
  else if !res.isFinite then .overflowed
  else if exceeded then .saturated
  else .ordinary

/-- R60: a value to an SCE8 code. -/
def toSce8 (x : Num) : Nat :=
  match x with
  | .nan => 0xFF
  | .inf _ => 0xFE
  | .fin _ m e => if m = 0 then 0 else (max 0 (min 254 (e + m.log2 + 127))).toNat

/-- R61: a value to WFX640; exact for the formats that convert. -/
def toWfx (x : Num) : Nat :=
  match x with
  | .fin s m e => unsignedOf 640 (sInt s (shiftNat m (e + 320)))
  | _ => 2 ^ 639

/-- One element's unscaled conversion (R55 to R61): the raw result and its outcome. `from64` says that the source is
unscaled FP64. -/
def convertElem (from64 : Bool) (dst : Fmt) (mode : RMode) (sat : Bool) (r : Nat) (x : Elem) : Nat × Outc :=
  match dst.spec with
  | some f =>
    let (v, big1) := if from64 && dst.stagedFromFp64 then stageOne x.val else (x.val, false)
    let (y, big2, _) := f.round false mode sat r v
    (f.encode y, outcomeOf x y (big1 || big2))
  | none =>
    match dst.intBits with
    | some n =>
      match x.val with
      | .nan => (0, outcomeOf x .zero false)
      | .inf s => (unsignedOf n (if s then clampInt n (-(2 ^ 64 : Nat)) else clampInt n (2 ^ 64 : Nat)), outcomeOf x .one false)
      | .fin s m e =>
        let i := roundInt mode r s m e
        let c := clampInt n i
        (unsignedOf n c, outcomeOf x (.ofInt c) (c != i))
    | none =>
      if dst = .sce8 then (toSce8 x.val, outcomeOf x (if x.val.isZero then .zero else .one) false)
      else (toWfx x.val, outcomeOf x (if x.val.isZero then .zero else .one) false)

/-- Whether this spec defines the conversion of an unscaled source format to an unscaled target (R62). -/
def pairDefined (a b : Fmt) : Bool :=
  match a, b with
  | .sce8, .fp32 => true
  | .fp32, .sce8 => true
  | .sce8, _ => false
  | _, .sce8 => false
  | .wfx640, .wfx640 => false
  | .wfx640, .fp32 => true
  | .wfx640, .fp64 => true
  | .wfx640, _ => false
  | .fp32, .wfx640 => true
  | .fp19, .wfx640 => true
  | .bf16, .wfx640 => true
  | .fp16, .wfx640 => true
  | .int32, .wfx640 => true
  | _, .wfx640 => false
  | _, _ => true

/-- Whether a conversion is exact for unscaled sources, so that it draws nothing under SR (R53, R55). -/
def exactPair (a b : Fmt) : Bool :=
  match a with
  | .fp64 => b == .fp64
  | .fp32 => [.fp64, .fp32, .wfx640].contains b
  | .fp19 => [.fp64, .fp32, .fp19, .wfx640].contains b
  | .bf16 => [.fp64, .fp32, .fp19, .bf16, .wfx640].contains b
  | .fp16 => [.fp64, .fp32, .fp19, .fp16, .wfx640].contains b
  | .fp8e4 => [.fp64, .fp32, .fp19, .bf16, .fp16, .fp8e4].contains b
  | .fp8e5 => [.fp64, .fp32, .fp19, .bf16, .fp16, .fp8e5].contains b
  | .int32 => [.fp64, .wfx640, .int32].contains b
  | .int8 => [.fp64, .fp32, .fp19, .bf16, .fp16, .int32, .int8].contains b
  | .int4 => [.fp64, .fp32, .fp19, .bf16, .fp16, .fp8e4, .fp8e5, .int32, .int8, .int4].contains b
  | _ => a == b

/-! ### Block-scaled data -/

/-- emax of an element format (R66). -/
def Fmt.blockEmax : Fmt → Int
  | .fp8e4 => 8
  | .fp8e5 => 15
  | .fp6e3 => 4
  | .fp6e2 => 2
  | .fp4 => 2
  | _ => 0

/-- Multiply by 2^k. -/
def Num.scale (x : Num) (k : Int) : Num :=
  match x with
  | .fin s m e => .fin s m (e + k)
  | y => y

/-- One element of a block, under the block's 16-bit header (R70). -/
def decodeBlockElem (f : Fmt) (header raw : Nat) : Elem :=
  let scale := header % 256
  if scale = 255 then { val := .nan, nanBlock := true }
  else if (header >>> 8) % 2 = 1 then
    match f.spec with
    | some fs => { val := .zero (fs.fields raw).1 }
    | none => { val := .zero }
  else
    match f.spec with
    | some fs => { val := (fs.decode raw).scale ((scale : Int) - 127) }
    | none => { val := (Num.ofInt (signedOf 8 raw)).scale ((scale : Int) - 133) }

/-- The exponent of the leading bit of a finite magnitude. -/
def Num.topExp (x : Num) : Int :=
  match x with
  | .fin _ m e => e + m.log2
  | _ => 0

/-- The largest finite magnitude of a list, as a number (zero when there is none). -/
def amaxOf (xs : List Num) : Num :=
  xs.foldl (fun acc x => if x.isFinite && Num.lt acc x.abs then x.abs else acc) .zero

/-- The recipe variants of R74. -/
inductive BlockRule where
  /-- k of R66 as written. -/
  | floor
  /-- The smallest scale at which no finite element exceeds the largest element magnitude. -/
  | fit
  /-- The scale of FLOOR raised by one binade. -/
  | headroom
  deriving DecidableEq, Repr

/-- The largest finite magnitude of a block element format (R40; 127 · 2^−6 for INT8). -/
def Fmt.maxElem (f : Fmt) : Num :=
  match f.spec with
  | some fs => .fin false fs.maxM fs.maxE
  | none => .fin false 127 (-6)

/-- The scaled encoding of one element (R67): its code, value within the block, and whether it exceeded the largest. -/
def encodeBlockElem (f : Fmt) (k : Int) (mode : RMode) (r : Nat) (x : Num) : Nat × Num × Bool :=
  let y := x.scale (-k)
  match f.spec with
  | some fs =>
    let (v, big, _) := fs.round true mode false r y
    match x with
    | .inf s => (fs.encode (.inf s), .inf s, false)
    | _ => (fs.encode v, v, big)
  | none =>
    match y with
    | .fin s m e =>
      let i := roundInt mode r s m e (-6)
      let c := max (-127) (min 127 i)
      (unsignedOf 8 c, .ofInt c, c != i)
    | _ => (0, .zero, false)

/-- The scale exponent k of a block with a nonzero finite amax (R66, R75). -/
def blockScale (f : Fmt) (rule : BlockRule) (amax : Num) : Int :=
  let k := min (max (amax.topExp - f.blockEmax) (-127)) 127
  match rule with
  | .floor => k
  | .headroom => min (k + 1) 127
  | .fit => if Num.lt f.maxElem (amax.scale (-k)) then min (k + 1) 127 else k

/-- A block's header and codes with each element's outcome (R66 to R69). Each input is the element after R45 (and
stage 1, where the conversion is staged, with whether that stage met a magnitude above its largest) with its draw; the
outcome is that of the whole conversion (R63). -/
def encodeBlock (f : Fmt) (rule : BlockRule) (mode : RMode) (xs : List (Elem × (Num × Bool) × Nat)) :
    Nat × List (Nat × Outc) :=
  let vals := xs.map fun x => x.2.1.1
  let anyNaN := vals.any Num.isNaN
  let anyInf := vals.any Num.isInf
  if anyNaN || (anyInf && f != .fp8e5) then (0xFF, xs.map fun _ => (0, .nonfinite))
  else
    let amax := amaxOf vals
    if amax.isZero && !anyInf then
      (0x100, xs.map fun (x, (v, _), _) =>
        (match f.spec with
          | some fs => fs.encode (.zero v.sign)
          | none => 0, outcomeOf x .zero false))
    else
      let k := if amax.isZero then 0 else blockScale f rule amax
      ((k + 127).toNat, xs.map fun (x, (v, big1), r) =>
        let (c, y, big) := encodeBlockElem f k mode r v
        (c, outcomeOf x y (big1 || big)))

end Sys2Proof.Machine
end

