-- ==== Sys2Proof/Machine/Flags.lean ====
section
/-! DEFINITION. IEEE 754-2019 rounding with subnormals kept, and its exception flags: the arithmetic of the heat
sequencers (R231) and of the host cores (R48). -/

namespace Sys2Proof.Machine

/-- The accrued exception flags of the RISC-V `fcsr`. -/
structure FFlags where
  nv : Bool := false
  dz : Bool := false
  overflow : Bool := false
  uf : Bool := false
  nx : Bool := false
  deriving DecidableEq, Repr

namespace FFlags

def or (a b : FFlags) : FFlags :=
  { nv := a.nv || b.nv, dz := a.dz || b.dz, overflow := a.overflow || b.overflow, uf := a.uf || b.uf, nx := a.nx || b.nx }

/-- `fflags`: NV 16, DZ 8, OF 4, UF 2, NX 1. -/
def code (f : FFlags) : Nat :=
  (if f.nv then 16 else 0) + (if f.dz then 8 else 0) + (if f.overflow then 4 else 0) + (if f.uf then 2 else 0) +
    (if f.nx then 1 else 0)

def invalid : FFlags := { nv := true }

end FFlags

/-- Whether a finite overflow gives the largest finite number in a mode. -/
def overflowsToMax (mode : RMode) (neg : Bool) : Bool :=
  match mode with
  | .rtz => true
  | .rto => true
  | .rdn => !neg
  | .rup => neg
  | _ => false

/-- Round an exact (or sticky) value to a format with subnormals: the value and the flags overflow, underflow (after
rounding) and inexact. -/
def ieeeRound (fs : FloatSpec) (mode : RMode) (x : Num) : Num × FFlags :=
  match x with
  | .nan => (.nan, {})
  | .inf s => (.inf s, {})
  | .fin s m e =>
    if m = 0 then (.fin s 0 0, {})
    else
      let (n, u) := roundMag fs.p (some fs.qmin) mode 0 s m e
      let nx := cmpMag n u m e != .eq
      if cmpMag n u fs.maxM fs.maxE == .gt then
        (if overflowsToMax mode s then .fin s fs.maxM fs.maxE else .inf s, { overflow := true, nx := true })
      else
        let (n1, u1) := roundMag fs.p none mode 0 s m e
        let tiny := cmpMag n1 u1 1 fs.emin == .lt
        (.fin s n u, { uf := tiny && nx, nx := nx })

/-- A value of a raw pattern with subnormals kept, and whether it is a signalling NaN. -/
def ieeeRead (fs : FloatSpec) (raw : Nat) : Num × Bool :=
  let v := fs.decode raw
  (v, v.isNaN && !bitAt0 (raw >>> fs.shift) (fs.frac - 1))
where
  /-- Bit i of a number. -/
  bitAt0 (n i : Nat) : Bool := n.testBit i

/-- The binary64 and binary32 formats. -/
def f64 : FloatSpec := (Fmt.spec .fp64).getD ⟨11, 52, 1023, .ieee, 0, 2 ^ 53 - 1, 971⟩
def f32 : FloatSpec := (Fmt.spec .fp32).getD ⟨8, 23, 127, .ieee, 0, 2 ^ 24 - 1, 104⟩

/-- A binary64 operation of a heat sequencer: operands and result as bits, RNE, no flags (R231). -/
def seqRead (v : W64) : Num := f64.decode v.toNat

def seqWrite (x : Num) : W64 := BitVec.ofNat 64 (f64.encode (ieeeRound f64 .rne x).1)

end Sys2Proof.Machine
end

