-- ==== Sys2Proof/Machine/Codes.lean ====
section
/-! DEFINITION. The error-correcting codes: Reed–Solomon over GF(2^8) in the Edern stacks (R269, R270) and over GF(2^10) on the
Relay links (R309 to R312), the places of their symbols, and what their decoders correct. -/

namespace Sys2Proof.Machine

/-! ### Fields and codes -/

/-- A field GF(2^bits), by its polynomial; α is x. -/
structure Gf where
  bits : Nat
  poly : Nat

namespace Gf

/-- α times an element. -/
def timesX (g : Gf) (a : Nat) : Nat := if 2 * a < 2 ^ g.bits then 2 * a else 2 * a ^^^ g.poly

/-- The product of two elements. -/
def mul (g : Gf) (a b : Nat) : Nat :=
  (List.range g.bits).foldr (fun i acc => g.timesX acc ^^^ (if b.testBit i then a else 0)) 0

/-- α to a power. -/
def pow (g : Gf) : Nat → Nat
  | 0 => 1
  | n + 1 => g.timesX (g.pow n)

/-- A polynomial with the coefficients given, highest degree first, at a point. -/
def eval (g : Gf) (x : Nat) (cs : List Nat) : Nat := cs.foldl (fun acc c => g.mul acc x ^^^ c) 0

end Gf

/-- A Reed–Solomon code: its field, its data and check symbols. The generator has the roots α^0 to α^(check − 1). -/
structure Rs where
  gf : Gf
  data : Nat
  check : Nat

namespace Rs

/-- RS(144, 128) of a line (R269). -/
def line : Rs := { gf := { bits := 8, poly := 0x11D }, data := 128, check := 16 }

/-- RS(672, 640) of a partner port (R309). -/
def partner : Rs := { gf := { bits := 10, poly := 0x409 }, data := 640, check := 32 }

/-- RS(544, 514) of the pair port, as IEEE 802.3 Clause 91 defines it (R311). PRESUMED, log 135. -/
def pair : Rs := { gf := { bits := 10, poly := 0x409 }, data := 514, check := 30 }

/-- The code of a port. -/
def ofPort (p : Nat) : Rs := if p = 6 then pair else partner

/-- Symbols of a codeword. -/
def len (c : Rs) : Nat := c.data + c.check

/-- A polynomial times x + α^i, highest degree first. -/
def timesRoot (g : Gf) (cs : List Nat) (i : Nat) : List Nat :=
  List.zipWith (fun a b => a ^^^ b) (cs ++ [0]) (0 :: cs.map (g.mul (g.pow i)))

/-- The generator polynomial, highest degree first. -/
def generator (c : Rs) : List Nat := (List.range c.check).foldl (timesRoot c.gf) [1]

/-- One symbol of the division by the generator: the remainder so far, highest degree first. -/
def divStep (c : Rs) (gen rem : List Nat) (d : Nat) : List Nat :=
  let f := d ^^^ rem.headD 0
  List.zipWith (fun a b => a ^^^ c.gf.mul f b) (rem.drop 1 ++ [0]) (gen.drop 1)

/-- The check symbols of data symbols: the remainder of the data, raised by the check symbols, by the generator. The first
symbol is the coefficient of the highest degree. PRESUMED, log 135. -/
def checks (c : Rs) (d : List Nat) : List Nat := d.foldl (c.divStep c.generator) (List.replicate c.check 0)

/-- A codeword: the data symbols, then the check symbols. -/
def codeword (c : Rs) (d : List Nat) : List Nat := d ++ c.checks d

/-- Whether a word is a codeword: every root of the generator is one of its roots. -/
def holds (c : Rs) (w : List Nat) : Bool := (List.range c.check).all fun i => c.gf.eval (c.gf.pow i) w == 0

/-- Whether the decoder corrects symbols in error with other symbols erased: 2e + f is at most the number of check symbols. -/
def corrects (c : Rs) (err erased : List Nat) : Bool :=
  decide (2 * ((err.filter fun k => !erased.contains k).eraseDups).length + erased.length ≤ c.check)

end Rs

/-- The low `n` digits of a number in base 2^bits, lowest first. -/
def digits (bits : Nat) : Nat → Nat → List Nat
  | 0, _ => []
  | n + 1, v => v % 2 ^ bits :: digits bits n (v / 2 ^ bits)

/-! ### Lines in a stack (R264, R265, R269) -/

namespace Ecc

/-- The channel of a line, by its offset in the stack (R265). -/
def channel (off : Nat) : Nat :=
  let f (i : Nat) := off / 2 ^ i % 32
  f 8 ^^^ f 13 ^^^ f 18 ^^^ f 23 ^^^ f 28 ^^^ (off / 2 ^ 33 % 16)

/-- The DRAM die that stores a symbol: data symbol k on die k / 8, check symbol 128 + j on die j (R269). -/
def symbolDie (k : Nat) : Nat := if k < 128 then k / 8 else k - 128

/-- Where a symbol of a line stands: the DRAM die, its slice, and whether in the check array (R264, R269). -/
structure Place where
  die : Nat
  slice : Nat
  check : Bool
  deriving DecidableEq, Repr

/-- The place of symbol k of each codeword of the line at an offset. -/
def place (off k : Nat) : Place := { die := symbolDie k, slice := channel off, check := decide (128 ≤ k) }

/-- Bytes of a die's data array and of its check array: 48 Gib and 6 Gib (R264). -/
def dieData : Nat := 48 * 2 ^ 30 / 8
def dieCheck : Nat := 6 * 2 ^ 30 / 8

/-- The two codewords that store the 256 bytes of a line (R269). -/
def codewords (bytes : List Nat) : List (List Nat) :=
  [Rs.line.codeword (bytes.take 128), Rs.line.codeword ((bytes.drop 128).take 128)]

/-- The bytes of the line that stored codewords hold: their data symbols. -/
def dataOf (ws : List (List Nat)) : List Nat := ws.flatMap fun w => w.take 128

/-- What the logic die makes of a codeword. -/
inductive Verdict where
  | clean
  /-- Corrected: the dies that the errors are attributed to, and the die whose symbols had to be treated as erased. -/
  | corrected (dies : List Nat) (erased : Option Nat)
  | uncorrectable
  deriving DecidableEq, Repr

/-- The nine symbols of a codeword that a die holds. -/
def dieSymbols (d : Nat) : List Nat := (List.range 144).filter fun k => symbolDie k == d

/-- The table of R270 for the symbols in error of one codeword, under the stack's mark: errors alone, or with the symbols of
one die erased. DEDUCED, log 48. -/
def judge (mark : Option Nat) (err : List (Fin 144)) : Verdict :=
  let e := (err.map Fin.val).eraseDups
  let dies := (e.map symbolDie).eraseDups
  if e.isEmpty then .clean
  else
    match mark with
    | some d => if Rs.line.corrects e (dieSymbols d) then .corrected dies none else .uncorrectable
    | none =>
      if Rs.line.corrects e [] then .corrected dies none
      else
        match dies with
        | [d] => .corrected dies (some d)
        | _ => .uncorrectable

def Verdict.isCorrected : Verdict → Bool
  | .corrected _ _ => true
  | _ => false

def Verdict.dies : Verdict → List Nat
  | .corrected ds _ => ds
  | _ => []

def Verdict.erased : Verdict → Option Nat
  | .corrected _ d => d
  | _ => none

end Ecc

/-! ### Flits, frames and lanes (R309 to R313) -/

namespace Fec

/-- Bytes of a flit, and its payload bytes (R312). -/
def flitBytes (p : Nat) : Nat := if p = 6 then 3084 else 512
def flitPayload (p : Nat) : Nat := flitBytes p - 12

/-- Codewords and flits of a frame (R312). -/
def frameWords (p : Nat) : Nat := if p = 6 then 24 else 16
def frameFlits (p : Nat) : Nat := if p = 6 then 5 else 25

/-- Data bits of a codeword. -/
def wordBits (p : Nat) : Nat := 10 * (Rs.ofPort p).data

/-- The first codeword that a flit of the frame touches, and how many it touches. -/
def firstWord (p slot : Nat) : Nat := 8 * flitBytes p * slot / wordBits p
def lastWord (p slot : Nat) : Nat := (8 * flitBytes p * (slot + 1) - 1) / wordBits p
def touched (p slot : Nat) : Nat := lastWord p slot + 1 - firstWord p slot

/-- Whether the `i`-th codeword that a flit touches begins in it. -/
def beginsIn (p slot i : Nat) : Bool := decide (8 * flitBytes p * slot ≤ wordBits p * (firstWord p slot + i))

/-- The lane that carries symbol m of codeword c of a frame: position 4m + c of its block on a partner port, 21 positions to a
lane; on the pair port m mod 16, or m mod 8 of the half in use (R310, R311, R337). -/
def lane (p : Nat) (half : Bool) (low : Nat) (c m : Nat) : Nat :=
  if p = 6 then (if half then low + m % 8 else m % 16) else (4 * m + c % 4) / 21

/-- The symbols of codeword c that lanes without lock carry: they count as erasures on a partner port (R309). -/
def erasures (p : Nat) (lost : BitVec 128) (c : Nat) : List Nat :=
  if p = 6 ∨ lost = 0 then [] else (List.range (Rs.ofPort p).len).filter fun m => lost.getLsbD (lane p false 0 c m)

/-- The data symbols of the bytes of a frame: bits least significant first, ten to a symbol (R309). -/
def symbols (bytes : List Nat) : List Nat :=
  digits 10 (8 * bytes.length / 10) (bytes.foldr (fun b acc => b + 256 * acc) 0)

/-- The codewords of a frame's bytes, in order (R309, R312). -/
def words (p : Nat) (bytes : List Nat) : List (List Nat) :=
  let c := Rs.ofPort p
  let d := symbols bytes
  (List.range (frameWords p)).map fun i => c.codeword ((d.drop (c.data * i)).take c.data)

/-- The symbols of some codewords on a lane, in the order in which the lane carries them: blocks of four codewords by
position on a partner port; codeword after codeword on the pair port (R310, R311). -/
def onLane (p : Nat) (half : Bool) (low : Nat) (ws : List (List Nat)) (l : Nat) : List Nat :=
  if p = 6 then
    ws.flatMap fun w => (w.zipIdx.filter fun x => lane p half low 0 x.2 == l).map Prod.fst
  else
    (List.range (ws.length / 4)).flatMap fun b => (List.range 21).map fun i =>
      let s := 21 * l + i
      (ws.getD (4 * b + s % 4) []).getD (s / 4) 0

/-- Lanes of a direction of a port (R306, R337). -/
def lanesOf (p : Nat) : Nat := if p = 6 then 16 else 128

/-- The symbols of a frame's bytes on every lane. -/
def lanes (p : Nat) (half : Bool) (low : Nat) (bytes : List Nat) : List (List Nat) :=
  (List.range (lanesOf p)).map (onLane p half low (words p bytes))

end Fec

end Sys2Proof.Machine
end

