-- ==== Sys2Proof/Machine/State.lean ====
section
/-! DEFINITION. The state of the block as plain data, and the state after reset. -/

namespace Sys2Proof.Machine

/-! ### Memory -/

/-- Memory: addresses strictly rising, no entry equal to what an unlisted address reads as (zero). DESIGN CHOICE, log 5. -/
abbrev Memory := List Host.Cell

/-- The canonical form above `lo`. -/
def Memory.sortedFrom : Nat → Memory → Bool
  | _, [] => true
  | lo, (a, b) :: m => decide (lo ≤ a) && (b != 0) && Memory.sortedFrom (a + 1) m

/-- The canonical form of memory. -/
def Memory.wf (m : Memory) : Bool := Memory.sortedFrom 0 m

/-! ### Statuses -/

/-- Status codes of R200 and R471. -/
inductive Status where
  | ok | badOpcode | badUnit | badHandle | badDesc | badOperand | badProgram | badTarget | noperm | decerr
  | stashFull | stashMiss | lapDepth | break_ | halted | fault | aborted | absent
  | badCommand | badLength | noAuth | badState | busy | notReady | exists_ | noSuch | failed
  deriving DecidableEq, Repr

def Status.code : Status → Nat
  | .ok => 0 | .badOpcode => 1 | .badUnit => 2 | .badHandle => 3 | .badDesc => 4 | .badOperand => 5
  | .badProgram => 6 | .badTarget => 7 | .noperm => 8 | .decerr => 9 | .stashFull => 10 | .stashMiss => 11
  | .lapDepth => 12 | .break_ => 16 | .halted => 17 | .fault => 18 | .aborted => 19 | .absent => 20
  | .badCommand => 0x100 | .badLength => 0x101 | .noAuth => 0x102 | .badState => 0x103 | .busy => 0x104
  | .notReady => 0x105 | .exists_ => 0x106 | .noSuch => 0x107 | .failed => 0x108

/-! ### Command queues (R185 to R205, R227 to R262) -/

/-- The queue states of R186. -/
inductive QState where
  | unbound | idle | running | waiting | stopped | halted | waitCq | frozen
  deriving DecidableEq, Repr

def QState.code : QState → Nat
  | .unbound => 0 | .idle => 1 | .running => 2 | .waiting => 3 | .stopped => 4 | .halted => 5 | .waitCq => 6
  | .frozen => 7

/-- An open Lap: its LAP position, d, latched count and iteration count (R237, R256). -/
structure Lap where
  pos : W64
  d : Nat
  count : W64
  iter : W64
  deriving DecidableEq, Repr

/-- A debug break slot (R261). -/
inductive BreakKind where
  | off | count | tag
  deriving DecidableEq, Repr

structure BreakSlot where
  kind : BreakKind := .off
  value : W64 := 0
  mask : BitVec 16 := 0
  deriving DecidableEq, Repr

/-- A command that has run and is to be completed: its status, the position that follows, and the counts of its
record (R204). -/
structure Done where
  status : Status
  next : W64
  countA : Nat
  countB : Nat
  deriving DecidableEq, Repr

/-- What holds a queue that waits (R205, R244 to R259). -/
inductive Wait where
  | none
  | word (addr : Nat) (threshold : W64)
  | group (id : Nat) (round : Nat)
  | post (mq : Nat) (value : W64)
  | fence
  | commit
  | cq (done : Done)
  deriving DecidableEq, Repr

/-- The committed state of a queue (R256). -/
structure Committed where
  position : W64
  sregs : List W64
  laps : List Lap
  generate : Bool
  /-- Group, local arrival count, round number. -/
  hurdles : List (Nat × Nat × Nat)
  deriving DecidableEq, Repr

structure CmdQueue where
  id : Nat
  job : Nat
  base : Nat
  slots : Nat
  cq : Nat
  eq : Nat
  state : QState
  status : Nat
  team : BitVec 128
  share : Nat
  hdr : Nat
  shareOff : Nat
  write : W64
  pos : W64
  next : W64
  lastOpcode : Nat
  lastTag : Nat
  count : W64
  sregs : List W64
  /-- Open Laps, innermost first. -/
  laps : List Lap
  generate : Bool
  wait : Wait
  /-- First word of the slot of the command that waits. -/
  cur : BitVec 32
  breaks : List BreakSlot
  /-- No TAG break fires on the command at this position: the queue resumed there (R262). -/
  resumedAt : Option W64
  committed : Committed
  /-- Chains armed by TRIGs of this queue (R259). -/
  armed : List Nat
  deriving DecidableEq, Repr

/-- The kinds of ring with the header of R205: completion, event and message queues. -/
inductive RingKind where
  | completion | event | message
  deriving DecidableEq, Repr

structure RingQ where
  id : Nat
  kind : RingKind
  /-- The owning job; none for a session's device event queue. -/
  job : Option Nat
  base : Nat
  slots : Nat
  /-- The host core whose interrupt a message queue drives (R440). -/
  core : Option Nat
  deriving DecidableEq, Repr

/-! ### The watch (R84 to R93) -/

/-- One side of a record: counts of R63 and the exponent range. -/
structure WatchSide where
  total : Nat := 0
  zero : Nat := 0
  vanished : Nat := 0
  saturated : Nat := 0
  overflowed : Nat := 0
  nonfinite : Nat := 0
  emax : Option Int := none
  emin : Option Int := none
  deriving DecidableEq, Repr

/-- A watch key: handle, format code, kind code (R87). -/
structure WatchKey where
  handle : Nat
  fmt : Nat
  kind : Nat
  deriving DecidableEq, Repr

structure WatchEntry where
  key : WatchKey
  st : WatchSide := {}
  ld : WatchSide := {}
  deriving DecidableEq, Repr

structure FmtSummary where
  fmt : Nat
  st : WatchSide := {}
  ld : WatchSide := {}
  arith : Nat := 0
  deriving DecidableEq, Repr

/-- The counts of a job's training step in progress: keys ascending, format codes ascending. -/
structure Watch where
  entries : List WatchEntry := []
  sums : List FmtSummary := []
  full : Bool := false
  deriving DecidableEq, Repr

/-! ### Jobs, groups and generations -/

/-- The states of a generation (R301). -/
inductive GenState where
  | frozen | shadowed | lostLocal | released
  deriving DecidableEq, Repr

/-- A checkpoint generation: the generation record, the granule maps (granule address to physical granule) and the
bytes of the set at the freeze (R296 to R300). -/
structure Gen where
  step : Nat
  record : List Byte
  map : List (Nat × Nat)
  cells : List Host.Cell
  committed : List (Nat × Committed)
  seqs : List (Nat × Nat)
  lap : Nat
  warm : Bool
  state : GenState
  /-- Stacks that have streamed all their granules, and whether the record went (R303). -/
  streamed : List Nat
  lostLocal : Bool
  /-- What has been streamed, and what of it the twin has confirmed: granules by address, and the record (R304). -/
  sent : List Nat := []
  confirmed : List Nat := []
  /-- Lines of the set that the generation holds poisoned. -/
  poisoned : List Nat := []
  deriving DecidableEq, Repr

/-- A range or pool of the checkpoint set (R294). -/
structure Range where
  base : Nat
  len : Nat
  deriving DecidableEq, Repr

inductive JobPhase where
  | running | restarting | held (cause : Nat)
  deriving DecidableEq, Repr

/-- How far the restart of a halted job has come on this device (R405 to R414). -/
structure Restart where
  fault : Nat := 0
  smallest : W64 := 0
  changedAt : Nat := 0
  coordinator : Bool := false
  /-- Stalls reported in this restart: reporter, blamed device, group (R385); devices that have failed; the restorable steps that
  each device has answered with; and when the coordinator asked for them, which follows event 2 (R405, R407, R413). -/
  blames : List (W64 × W64 × Nat) := []
  failed : List W64 := []
  answers : List (W64 × List Nat) := []
  askedAt : Option Nat := none
  restorePoint : Option Nat := none
  restored : Bool := false
  /-- Parts of a generation that came back damaged and have been asked for again (R305, R412). -/
  missing : List Nat := []
  /-- Groups have rejoined and take their counters from the record (event 6 of R413). -/
  rejoined : Bool := false
  deriving DecidableEq, Repr

structure Job where
  id : Nat
  /-- Step policy ZERO (R373). -/
  zeroPolicy : Bool
  lapStart : Nat
  lapRecovery : Nat
  lap : Nat
  seed : W64
  descBase : Nat
  descEntries : Nat
  stashBase : Nat
  stashBytes : Nat
  watchBase : Nat
  watchSlots : Nat
  eq : Nat
  eqBase : Nat
  eqSlots : Nat
  /-- Number of the training step in progress. -/
  step : Nat
  lastSkip : Bool
  /-- The step policy skips the training step in progress (R373). -/
  skipping : Bool
  updateArmed : Bool
  ckptRequested : Bool
  ckptSteps : Nat
  ckptSeconds : Nat
  ranges : List Range
  pools : List Range
  /-- Ranges and pools that take effect at the next COMMIT (R481). -/
  newPolicy : Option (List Range × List Range × Nat × Nat)
  lastFreeze : Nat
  owed : Bool
  freezeAt : Option Nat
  wholeNext : Bool
  /-- Live granule map where it differs from the identity (R296). -/
  map : List (Nat × Nat)
  gens : List Gen
  /-- Records of a restored job: committed states by queue, sequence counters by group (R474). -/
  restoreQueues : List (Nat × Committed)
  restoreSeqs : List (Nat × Nat)
  watch : Watch
  /-- The digest of the training step in progress, and those of twin and device awaiting comparison (R402). -/
  digest : W64
  ownDigests : List (Nat × W64)
  twinDigests : List (Nat × W64)
  lastMismatch : Option Nat
  phase : JobPhase
  restorePoint : Nat
  restart : Restart
  spares : List W64
  faultStep : Bool
  /-- Notices already flooded: kind, origin, number (R405). -/
  seen : List (Nat × W64 × Nat) := []
  deriving DecidableEq, Repr

/-! ### Heats and the unit map (R24 to R34) -/

/-- The states of a physical heat (R24). -/
inductive HeatState where
  | active | spare | retired | fused
  deriving DecidableEq, Repr

def HeatState.code : HeatState → Nat
  | .active => 0 | .spare => 1 | .retired => 2 | .fused => 3

/-- The unit map: a state per physical heat, the physical heat of each logical heat, the generation count (R34). -/
structure UnitMap where
  state : List HeatState
  phys : List Nat
  gen : Nat
  deriving DecidableEq, Repr

/-- One of the two copies of the unit map in the boot store, with the CRC-32C that protects it (R24). -/
structure MapCopy where
  map : UnitMap
  crc : W32
  deriving DecidableEq, Repr

/-- The assignment of R26 on a device with no FUSED heat (DESIGN CHOICE, log 4). -/
def UnitMap.firstPowerUp : UnitMap where
  state := List.replicate 50 .active ++ [.spare, .spare] ++ List.replicate 50 .active ++ [.spare, .spare]
  phys := List.range' 0 50 ++ List.range' 52 50
  gen := 1

/-- The top-level device state (R463). -/
inductive DevState where
  | reset | selftest | pairing | links | addressing | osBoot | ready | unfit
  deriving DecidableEq, Repr

def DevState.code : DevState → Nat
  | .reset => 0 | .selftest => 1 | .pairing => 2 | .links => 3 | .addressing => 4 | .osBoot => 5 | .ready => 6
  | .unfit => 7

/-! ### Edern stacks (R264 to R305) -/

structure Edern where
  secondDie : Bool := false
  markedDie : Option Nat := none
  eccCe : Nat := 0
  /-- Codewords corrected since reset (R421). -/
  ceTotal : Nat := 0
  eccUe : Nat := 0
  eccUeAddr : Nat := 0
  patrolPeriod : Nat := 240
  /-- The period in force for the pass that runs, its start (in timer cycles, times the number of lines of the stack)
  and the offset of its next line (R275). -/
  passPeriod : Nat := 240
  passStart : Nat := 0
  patrolPos : Nat := 0
  passes : Nat := 0
  lastPass : Nat := 0
  shadowSent : Nat := 0
  invocations : Nat := 0
  /-- Lines of this pass to which corrections attributed errors, by die (R271). -/
  corrected : List (Nat × Nat) := []
  /-- The hottest DRAM die as last read, and whether refresh runs at half the interval (R274). -/
  temp : Int := 0
  refreshHalved : Bool := false
  deriving DecidableEq, Repr

/-- A 64-byte block of Edern memory that a host core's cache holds. `stale` is none for a clean block; for a dirty
one it is what the stack still holds, while memory shows the core's bytes: every other initiator's access recalls
them first (R289 to R291). DESIGN CHOICE, log 47. -/
structure CacheBlock where
  core : Nat
  addr : Nat
  stale : Option (List Byte)
  deriving DecidableEq, Repr

/-- A generation of the twin that a shadow region holds (R303 to R305). -/
structure Shadow where
  job : Nat
  step : Nat
  granules : List (Nat × List Byte)
  record : List Byte
  complete : Bool
  /-- Parts that failed their check and have been asked for again (R304). -/
  missing : List Nat := []
  /-- The stream has been refused for want of space (R401). -/
  refused : Bool := false
  deriving DecidableEq, Repr

/-! ### What leaves the device, and the fault log -/

/-- A flit that a port sends (R313, R314). -/
structure FlitImage where
  control : W64
  payload : List Byte
  crc : W32
  deriving DecidableEq, Repr

/-- What a command sent out of the device, in order: the model's record of its outputs (DESIGN CHOICE, log 13). -/
inductive Sent where
  /-- A Relay packet on a port: 0 to 5 are P0 to P5, 6 is PP. -/
  | packet (port : Nat) (k : Packet)
  /-- A flit, and whether it is resent. -/
  | flit (port : Nat) (f : FlitImage) (resent : Bool)
  /-- The symbols that the lanes of a port carry for a whole frame (R309 to R312), lane by lane. -/
  | lanes (port : Nat) (symbols : List (List Nat))
  /-- HELLO on a port, and a training sequence. -/
  | hello (port : Nat) (h : HelloMsg)
  | training (port : Nat)
  /-- An Ethernet frame's payload to an address (RoCEv2 and network protocols). -/
  | eth (port : Nat) (dst : BitVec 160) (bytes : List Byte)
  /-- A Suilo packet: port, address, type, session, seq, ack, relayed, payload. -/
  | suilo (port : Nat) (dst : BitVec 160) (type : Nat) (session : W32) (seq : Nat) (ack : Nat) (relayed : Bool)
      (payload : List Byte)
  /-- A frame handed to the twin for transmission on its port (R511). -/
  | frame (port : Nat) (bytes : List Byte)
  deriving DecidableEq, Repr

/-! ### Groups and chains (R344 to R385) -/

inductive Geometry where
  | ring | torus | neighbours
  deriving DecidableEq, Repr

/-- A dissemination pass (R364): the value so far, the level, and what each ring step of each level received. -/
structure Dissem where
  level : Nat := 0
  value : Option Int := none
  /-- Level, step, value received. -/
  got : List (Nat × Nat × Option Int) := []
  /-- This device's own value has been sent; ring steps sent at this level. -/
  started : Bool := false
  sent : Nat := 0
  complete : Bool := false
  deriving DecidableEq, Repr

/-- A joined group (R344 to R348). `rings` gives the port to the successor and the port to the predecessor in each
dimension that has a ring; `ext` the extent of each dimension. -/
structure Group where
  id : Nat
  job : Nat
  geometry : Geometry
  ports : List Nat
  rank : Nat
  ext : List Nat
  rings : List (Nat × Nat)
  budget : Nat
  mDecl : Nat
  m : Nat
  serials : List W64
  seq : Nat
  round : Nat
  arrivals : Nat
  /-- The device's own arrival of the round has been sent, and when (R248, R384). -/
  sentAt : Option Nat
  barrier : Dissem
  /-- Arrivals of a NEIGHBOURS round, by port and round. -/
  heard : List (Nat × Nat)
  deriving DecidableEq, Repr

/-- A chain entry (R349, R350, R352, R378). -/
inductive ChainEntry where
  | reduceScatter (carry : Nat) (clear : Bool) (src dst : Nat)
  | allGather (src dst : Nat)
  | allReduce (carry : Nat) (clear : Bool) (src dst : Nat)
  | update (prog : ProgRef) (streams : List Nat) (params : Nat)
  | halo (send recv : List Nat)
  | bcast (src dst : Nat) (root : Nat)
  | allToAll (src dst : Nat)
  deriving DecidableEq, Repr

/-- Where a bucket stands in its entry: AGREE, reducing, gathering, or the whole entry done. -/
inductive BucketStage where
  | waiting | agree | reduce | gather | move | update | done
  deriving DecidableEq, Repr

/-- A bucket of a chain (R357 to R359). -/
structure Bucket where
  seq : Nat
  entry : Nat := 0
  stage : BucketStage := .waiting
  status : Status := .ok
  emax : Option Int := none
  agree : Dissem := {}
  contrib : Nat := 0
  contribNonfinite : Nat := 0
  contribVanished : Nat := 0
  owned : Nat := 0
  ownedNonfinite : Nat := 0
  zeroed : Bool := false
  /-- This device's entered contribution, raw carry values by element. -/
  entered : List Nat := []
  /-- Partial sums held after a level: level + 1, element, raw value. -/
  held : List (Nat × Nat × Nat) := []
  /-- What has been received at a stage: stage and port code, first element or unit, count. -/
  got : List (Nat × Nat × Nat) := []
  /-- Blocks that travel: source rank, destination rank, bytes; the step of the exchange, and the message parts received
  for it: port, first unit, bytes (R379). -/
  blocks : List (Nat × Nat × List Byte) := []
  step : Nat := 0
  inbox : List (Nat × Nat × List Byte) := []
  /-- When this device was ready for the messages of a stage: stage + 16 · strand, time (R384). -/
  started : List (Nat × Nat) := []
  deriving DecidableEq, Repr

structure Chain where
  id : Nat
  job : Nat
  group : Nat
  addr : Nat
  word : Nat
  queue : Nat
  seq0 : Nat
  staging : Nat
  sstride : Nat
  statusBase : Nat
  nb : Nat
  /-- The first index and the bucket length of each entry (R351). -/
  ranges : List (Nat × Nat)
  entries : List ChainEntry
  buckets : List Bucket
  verdict : Dissem
  /-- The verdict total once formed (R372). -/
  total : Option Nat
  skipped : Bool
  armedAt : Nat
  status : Status
  deriving DecidableEq, Repr

/-- What a Judge recomputes from its copies (R381): a link adder's sum, a digest, or a granule's CRC-32C. -/
inductive JudgeWork where
  | sum (incoming entered : List Byte)
  | digest
  | crc (data : List Byte)
  deriving DecidableEq, Repr

/-- A sample: the port, the packet, the copies, and what the sampled logic formed (R381). -/
structure JudgeCopy where
  port : Nat
  packet : Packet
  work : JudgeWork
  output : List Byte
  deriving DecidableEq, Repr

/-- A Judge (R381 to R383). -/
structure Judge where
  rate : Nat := 10
  sampled : Nat := 0
  mismatch : Nat := 0
  last : W64 := 0
  /-- Comparisons in progress, oldest first. -/
  pending : List JudgeCopy := []
  deriving DecidableEq, Repr

/-! ### Ports, topology and the pair (R306 to R343, R400 to R404) -/

inductive PortState where
  | off | training | up | retrain | down | absent
  deriving DecidableEq, Repr

def PortState.code : PortState → Nat
  | .off => 0 | .training => 1 | .up => 2 | .retrain => 3 | .down => 4 | .absent => 5

/-- A port engine: its registers of R343, and the link layer of R313 to R322. -/
structure Port where
  loopback : Bool := false
  enable : Bool := false
  cause : Nat := 0
  torus : Bool := false
  half : Bool := false
  partnerPort : Nat := 0
  state : PortState := .off
  partnerId : W64 := 0
  partnerValid : Bool := false
  partner : BitVec 12 := 0
  fecCe : Nat := 0
  fecUe : Nat := 0
  crcErr : Nat := 0
  retryCnt : Nat := 0
  retrainCnt : Nat := 0
  hopFail : Nat := 0
  txBytes : Nat := 0
  rxBytes : Nat := 0
  laneBad : BitVec 128 := 0
  /-- Lanes without lock now, and the symbol errors of the last second: lane, time (R309, R343). -/
  lost : BitVec 128 := 0
  laneErrs : List (Nat × Nat) := []
  /-- Receive side: the next expected sequence number, discarding until a replay, bytes of the current packet due. -/
  rxNext : Nat := 0
  discarding : Bool := false
  rxDue : Nat := 0
  /-- The bytes of a header that a flit cut off, and whether padding holds until the next pstart (R325). -/
  rxHead : List Byte := []
  rxPad : Bool := true
  /-- Flits accepted since the last flit sent, and when that was (R318). -/
  sinceAck : Nat := 0
  lastSent : Nat := 0
  /-- Send side: the next sequence number, the oldest unacknowledged one, when each unacknowledged flit was sent
  (oldest first, R317), how often the oldest was replayed. -/
  txNext : Nat := 0
  oldest : Nat := 0
  sentAt : List Nat := []
  /-- The replay buffer: the unacknowledged DATA flits, oldest first (R317). -/
  kept : List FlitImage := []
  /-- Flits sent of the frame in progress (R312). -/
  txFrame : List FlitImage := []
  replays : Nat := 0
  /-- Replays since reset (R421). -/
  replaysEver : Nat := 0
  naks : List Nat := []
  retrains : List Nat := []
  retrainAt : Nat := 0
  /-- Credits held of the partner's buffers and credits due to the partner, by virtual channel (R321, R322). -/
  credits : List Nat := [0, 0, 0, 0]
  /-- Since when the first packet that waits on a virtual channel has lacked credits (R384). -/
  starved : List (Option Nat) := [none, none, none, none]
  owed : List Nat := [0, 0, 0, 0]
  /-- Packets that wait for credits or replay-buffer space. -/
  sendQ : List Packet := []
  /-- Bytes sent by each VC while another had packets ready (R321). -/
  served : List Nat := [0, 0, 0, 0]
  enabledAt : Nat := 0
  trainedAt : Nat := 0
  locked : Bool := false
  fec : Bool := false
  helloed : Bool := false
  everUp : Bool := false
  /-- The STARTER request outstanding: its message number and when it was sent (R329). -/
  starterReq : Option (Nat × Nat) := none
  starterNext : Nat := 0
  /-- The number of the request from the partner that its mailbox holds (R329). -/
  starterIn : Nat := 0
  deriving DecidableEq, Repr

/-- The position procedure of R335; an infinite component is none. -/
structure Topo where
  origin : W64
  c : List (Option Nat) := [some 0, some 0, some 0]
  size : List Nat := [1, 1, 1]
  declared : Bool := false
  valid : Bool := false
  changedAt : Nat := 0
  sentAt : Nat := 0
  /-- The neighbours have been checked after the declaration (R336). -/
  checked : Bool := false
  deriving DecidableEq, Repr

/-- A restore transfer that this device takes part in (R412): the job, the spare, the generation, the port on which the path
notice first came (none on the twin that sent it), the port of the claim, and the part of a granule received so far.
DESIGN CHOICE, log 120. -/
structure Transfer where
  job : Nat
  spare : W64
  step : Nat := 0
  port : Option Nat
  claim : Option Nat := none
  rx : List Byte := []
  /-- The message in progress and its next unit; messages asked for again; the generation record (R412). -/
  number : Nat := 0
  unit : Nat := 0
  missing : List Nat := []
  record : List Byte := []
  deriving DecidableEq, Repr

inductive PairMode where
  | shadow | mirror | unpaired
  deriving DecidableEq, Repr

def PairMode.code : PairMode → Nat
  | .shadow => 0 | .mirror => 1 | .unpaired => 2

/-- The pair (R338 to R342, R400 to R404). -/
structure Pair where
  mode : PairMode := .unpaired
  own : PairMode := .shadow
  twin : Option PairMode := none
  joined : Bool := false
  twinSerial : W64 := 0
  /-- The next beat number, when the last one was sent, and the job it named (R338, R339). -/
  beat : Nat := 0
  beatAt : Nat := 0
  beatJob : Option Nat := none
  /-- When the last valid BEAT came, the twin's state byte, and its last entry for each job. -/
  heardAt : Option Nat := none
  twinState : Nat := 0
  twinJobs : List (Nat × Nat × Nat) := []
  /-- The open episode's last event; a loss of the twin not yet acted on (R341). -/
  episode : Option Nat := none
  lossPending : Bool := false
  /-- When the last PAIRCTL reset was accepted (R342). -/
  resetAt : Option Nat := none
  /-- The mailbox whose pair.detach awaits the twin's confirmation, and since when (R482). -/
  detach : Option (Nat × Nat) := none
  /-- The part of a SHADOW message received so far. -/
  shadowRx : List Byte := []
  deriving DecidableEq, Repr

/-! ### Host cores (R425 to R460) -/

inductive Priv where
  | u | s | m
  deriving DecidableEq, Repr

def Priv.code : Priv → Nat
  | .u => 0 | .s => 1 | .m => 3

/-- The states of `hc.hcN.state` (R443). -/
inductive CoreState where
  | off | running | wfi | halted | stopped
  deriving DecidableEq, Repr

def CoreState.code : CoreState → Nat
  | .off => 0 | .running => 1 | .wfi => 2 | .halted => 3 | .stopped => 4

/-- The control and status registers that hold a value of their own; the rest are views of these or derived (PRESUMED, log 2). -/
structure Csrs where
  /-- SXL and UXL read 2. -/
  mstatus : W64 := 0xA_0000_0000
  medeleg : W64 := 0
  mideleg : W64 := 0
  mie : W64 := 0
  /-- The bits of `mip` that software holds: SSIP, STIP without Sstc, SEIP. -/
  mip : W64 := 0
  mtvec : W64 := 0
  mscratch : W64 := 0
  mepc : W64 := 0
  mcause : W64 := 0
  mtval : W64 := 0
  mcounteren : W64 := 0
  mcountinhibit : W64 := 0
  menvcfg : W64 := 0
  stvec : W64 := 0
  sscratch : W64 := 0
  sepc : W64 := 0
  scause : W64 := 0
  stval : W64 := 0
  scounteren : W64 := 0
  senvcfg : W64 := 0
  satp : W64 := 0
  stimecmp : W64 := 0
  mtimecmp : W64 := 0
  pmpcfg : List Byte := List.replicate 16 0
  pmpaddr : List W64 := List.replicate 16 0
  cycle : W64 := 0
  instret : W64 := 0
  /-- Counters 3 to 6 and their event selectors (R427). -/
  hpm : List W64 := List.replicate 4 0
  hpmevent : List W64 := List.replicate 4 0
  /-- `frm` in bits [7:5], `fflags` in [4:0]. -/
  fcsr : Byte := 0
  /-- 0 Off, 1 Initial, 2 Clean, 3 Dirty (R449). -/
  svxcsr : BitVec 2 := 0
  svxstart : W64 := 0
  deriving DecidableEq, Repr

structure HostCore where
  pc : W64 := 0
  /-- x1 to x31 at 1 to 31; x0 reads 0. -/
  x : List W64 := List.replicate 32 0
  /-- y0 to y31; bits [63:0] of yn are fn (R445). -/
  y : List VReg := List.replicate 32 0
  /-- q1 to q7 at 1 to 7; q0 reads all ones (R445). -/
  q : List PReg := List.replicate 8 0
  mode : Priv := .m
  csr : Csrs := {}
  state : CoreState := .off
  resetVec : BitVec 52 := 0
  job : Option Nat := none
  dedClean : Nat := 0
  trace : Bool := false
  traceCnt : Nat := 0
  /-- Instructions retired since reset (R421). -/
  retired : Nat := 0
  deriving DecidableEq, Repr

/-! ### Mailboxes, the Starter and the boot store (R461 to R482, R512 to R517) -/

/-- The registers of a mailbox (R466); its message area is its window of memory. -/
structure Mailbox where
  busy : Bool := false
  done : Bool := false
  overrun : Bool := false
  result : Nat := 0
  seq : Nat := 0
  count : Nat := 0
  deriving DecidableEq, Repr

/-- The Starter's own registers (R463) and the boot store's slot states (R515, R517). DESIGN CHOICE, log 1. -/
structure Starter where
  nmi : BitVec 5 := 0
  /-- The timer at the last kick of the watchdog, and its limit. -/
  kickedAt : Nat := 0
  wdogLimit : W32 := 10000000
  /-- 0 power-up, 1 RESET_N, 2 PAIRCTL, 3 watchdog, 4 fw.update. -/
  lastReset : Nat := 0
  /-- The halves of the Starter have diverged: the device has stopped until a reset (R394). -/
  stopped : Bool := false
  /-- Enrolled owner keys, at most 8 (R509). -/
  owners : List (List Byte) := []
  claimFail : Nat := 0
  lockUntil : Nat := 0
  trialFail : Bool := false
  /-- Active slots, slots marked for trial, whether this boot is a trial: Aimucor, then system image. -/
  fwSlot : Bool := false
  osSlot : Bool := false
  fwTrial : Bool := false
  osTrial : Bool := false
  trialBoot : Bool := false
  fwBlown : Nat := 0
  osBlown : Nat := 0
  /-- Source addresses that had a REFUSE, and when (R500). -/
  refused : List (BitVec 160 × Nat) := []
  deriving DecidableEq, Repr

/-! ### Ethernet, sessions and queue pairs (R490 to R511) -/

structure EthPort where
  vlanEn : Bool := false
  vlanId : BitVec 12 := 0
  pcpRoce : BitVec 3 := 3
  pcpSuilo : BitVec 3 := 6
  fc : BitVec 2 := 0
  pfcMask : Byte := 0
  /-- Selected speed, and the speed in force: true for 100G. -/
  speed : Bool := false
  enable : Bool := true
  up : Bool := false
  speedNow : Bool := false
  ipv4 : W32 := 0
  ipv6 : BitVec 128 := 0
  /-- A static IPv4 address in place of DHCPv4, with prefix length and gateway. -/
  fixed : Option (W32 × Nat × W32) := none
  rxFrames : Nat := 0
  txFrames : Nat := 0
  rxDrop : Nat := 0
  fcsErr : Nat := 0
  fecCe : Nat := 0
  fecUe : Nat := 0
  suiloBad : Nat := 0
  cnpTx : Nat := 0
  /-- Bytes in the receive buffer, and whether XOFF was sent last. -/
  fill : Nat := 0
  xoff : Bool := false
  /-- Until when each priority is paused by the partner (R493); pause acts on all eight. -/
  paused : List Nat := List.replicate 8 0
  deriving DecidableEq, Repr

inductive SessionState where
  | handshake | claim | opened | closing
  deriving DecidableEq, Repr

def SessionState.code : SessionState → Nat
  | .handshake => 1 | .claim => 2 | .opened => 3 | .closing => 4

/-- A Suilo packet sent and not yet acknowledged (R502). -/
structure Unacked where
  seq : Nat
  type : Nat
  more : Bool
  payload : List Byte
  /-- The acknowledgement and ce_echo that its header carries. -/
  ack : Nat := 0
  ce : Bool := false
  sentAt : Nat
  interval : Nat
  deriving DecidableEq, Repr

/-- A registered RDMA region (R509). -/
structure RdmaRegion where
  key : W32
  base : Nat
  len : Nat
  read : Bool
  write : Bool
  deriving DecidableEq, Repr

structure Session where
  id : W32
  mailbox : Nat
  state : SessionState
  /-- A claim handshake or session. -/
  claim : Bool
  keyId : W64
  /-- The host's addresses on networks A and B, IPv4 then IPv6. -/
  addrA : BitVec 160
  addrB : BitVec 160
  /-- The path: device port, host address, whether through the twin. -/
  port : Nat
  addr : BitVec 160
  relayed : Bool
  eqBase : Nat
  eqSlots : Nat
  /-- HELLO and HELLO_REPLY as sent, and the session keys: host to device, device to host (R506, R507). -/
  hello : List Byte
  hreply : List Byte
  keyIn : List Byte := []
  keyOut : List Byte := []
  startedAt : Nat
  lastRx : Nat
  lastTx : Nat
  /-- When an authenticated packet last came on the session's path (R510). -/
  pathRx : Nat := 0
  closeAt : Nat := 0
  /-- Send side (R502). -/
  txSeq : Nat := 1
  window : Nat := 64
  clean : Nat := 0
  unacked : List Unacked := []
  /-- Receive side: next expected, the packets ahead of a gap, the packets and the time since the last acknowledgement. -/
  rxSeq : Nat := 1
  ahead : List (Nat × Nat × Bool × List Byte) := []
  ackCount : Nat := 0
  ackSince : Option Nat := none
  ceEcho : Bool := false
  highest : Nat := 0
  /-- The message that a packet with `more` began (R502). -/
  partialMsg : List Byte := []
  /-- Packets that wait behind a full window: type, more, payload. -/
  queued : List (Nat × Bool × List Byte) := []
  /-- Candidates probed since the path was left, and when (R510). -/
  probing : Bool := false
  probe : Nat := 0
  probedAt : Nat := 0
  doorbellKey : W32 := 0
  regions : List RdmaRegion := []
  /-- Subscribed event queues and the next index to push (R504). -/
  subs : List (Nat × W64) := []
  dropped : Nat := 0
  deriving DecidableEq, Repr

/-- A RoCEv2 queue pair (R497 to R499). -/
structure Qp where
  qpn : Nat
  port : Nat
  session : W32
  mtu : Nat
  rnr : Nat
  hostQpn : Nat
  hostPsn : Nat
  psn : Nat
  gid : BitVec 128
  ringBase : Nat
  ringSlots : Nat
  error : Bool := false
  /-- The READ response rate as a fraction of the port rate: numerator over 16 · 2 ^ exponent (R495). -/
  rateNum : Nat := 16
  rateExp : Nat := 0
  cnpSent : Option Nat := none
  cnpHeard : Option Nat := none
  deriving DecidableEq, Repr

/-! ### Clocks, paces, heat, power and bring-up (R518 to R548) -/

structure Pacer where
  /-- Source of the Starter and timer domains: true for the crystal. -/
  crystal : Bool := false
  /-- 0 START, 1 LOCKED, 2 FAILED. -/
  state : Nat := 0
  goodRun : Nat := 0
  /-- The first count of the run of R519, and the failing windows in a row of R521. -/
  first : Nat := 0
  bad : Nat := 0
  intFault : Bool := false
  lastCnt : Nat := 0
  switchCnt : Nat := 0
  failCnt : Nat := 0
  /-- The PACER record of R525 has been written. -/
  lateNoted : Bool := false
  deriving DecidableEq, Repr

inductive Pace where
  | frugal | nominal | sprint
  deriving DecidableEq, Repr

def Pace.code : Pace → Nat
  | .frugal => 0 | .nominal => 1 | .sprint => 2

def Pace.ofCode (c : Nat) : Option Pace := [Pace.frugal, .nominal, .sprint][c]?

/-- Pace and thermal limit (R529 to R536). DEDUCED, log 92. -/
structure PaceCtl where
  requested : Pace := .nominal
  inForce : Pace := .nominal
  ramping : Bool := false
  limit : Pace := .sprint
  /-- The mailbox whose pace.set waits for the transition, and the requests behind it. -/
  waiting : Option Nat := none
  later : List (Nat × Pace) := []
  /-- Whether a compute die is above its throttle limit, and when the limit last moved. -/
  hot : Bool := false
  movedAt : Nat := 0
  /-- Since when both dies have stayed at or below their release limit. -/
  coolSince : Option Nat := none
  throttled : Bool := false
  deriving DecidableEq, Repr

/-- DESIGN CHOICE, log 1. -/
structure Temps where
  cd0 : Int := 0
  cd1 : Int := 0
  hub : Int := 0
  dram : Int := 0
  optics : Int := 0
  deriving DecidableEq, Repr

/-- Power, the held reset and the progress of bring-up (R537, R542 to R547). DESIGN CHOICE, log 1. -/
structure Power where
  vin : Bool := true
  good : Bool := true
  /-- Supplies of the compute dies, stacks and optical engines. -/
  rails : Bool := true
  /-- Event 3 of R544: held in reset. -/
  held : Bool := false
  thermTripN : Bool := true
  trip : BitVec 5 := 0
  /-- Events reached since reset release: image running, self-test complete, pairing, links and addressing resolved. -/
  image : Bool := false
  tested : Bool := false
  testedAt : Nat := 0
  pairing : Bool := false
  links : Bool := false
  /-- When event 9 of R545 came due: the later of events 7 and 8. -/
  addressingAt : Nat := 0
  deriving DecidableEq, Repr

/-! ### Board inputs, SMBus and JTAG (R552 to R562) -/

/-- DESIGN CHOICE, log 1. -/
structure Inputs where
  resetN : Bool := true
  pairPresent : Bool := false
  alertN : Bool := true
  straps : Straps := ⟨0, false, false⟩
  drive : Bool := false
  /-- Transitions in the current window of each input, and that window's number (R555). -/
  chatter : List (Nat × Nat) := [(0, 0), (0, 0), (0, 0)]
  /-- ALERT events are masked; since when the line has been deasserted; when the device released it (R557). -/
  masked : Bool := false
  highSince : Option Nat := none
  releasedAt : Option Nat := none
  alertStatus : Byte := 0
  alertMask : Byte := 0
  /-- TAP instruction register and boundary register (R562). -/
  tap : Byte := 2
  boundary : List Bool := []
  deriving DecidableEq, Repr

/-! ### Telemetry and Track (R395, R417 to R424) -/

/-- A photo finish: buffer, length, the number it carries. -/
structure Photo where
  addr : Nat
  len : Nat
  number : Nat
  deriving DecidableEq, Repr

structure Telem where
  completed : Nat := 0
  /-- The one whose markers are in flight, with its injection time, and those that wait. -/
  running : Option (Photo × Nat) := none
  queue : List Photo := []
  lastInject : Nat := 0
  deriving DecidableEq, Repr

structure Track where
  limit : Nat := 100000
  fired : Nat := 0
  last : BitVec 16 := 0
  marker : Nat := 0
  deriving DecidableEq, Repr

/-- Cumulative counters of a logical heat's sequencer (R421). -/
structure HeatCount where
  commands : Nat := 0
  failures : Nat := 0
  deriving DecidableEq, Repr

/-! ### Faults, refusals and the whole state -/

/-- Why the model stops. -/
inductive Fault where
  /-- An operand outside the shape its row gives it (WellFormed): no sender of the spec forms such a command. Raised
  by every meaning whose operands carry lengths. Safe: the hardware never sees it. -/
  | illFormed
  deriving DecidableEq, Repr

/-- Why the model refuses a command. -/
inductive Refusal where
  /-- No meaning yet. Safe. -/
  | notModelled (mnemonic : String)
  deriving DecidableEq, Repr

structure State where
  mem : Memory
  /-- The commands that are waiting, first in first out. -/
  pending : List Instr
  /-- The model's own counter of free values (DESIGN CHOICE, log 12). -/
  free : Nat
  /-- Command queues, ring queues and jobs by ascending ID. -/
  queues : List CmdQueue
  rings : List RingQ
  jobs : List Job
  /-- Heats (R23 to R34); `unfit` is R22's device state. -/
  unitMap : UnitMap
  unfit : Bool
  /-- The copies of the unit map in the boot store (R24, R28). -/
  mapCopies : List MapCopy
  /-- Host cores that are retired (R21). -/
  retiredCores : List Nat
  /-- The eight stacks, and the lines they hold poisoned (R272). -/
  edern : List Edern
  poisoned : List Nat
  caches : List CacheBlock
  /-- The reservation of each host core, a 256-byte line (R268). -/
  reservations : List (Nat × Nat)
  /-- The twin's generations held here. -/
  shadows : List Shadow
  /-- The regions set aside for the twin's generations, by stack (R401). -/
  shadowRegions : List Range
  /-- The timer of R527, in cycles of 10 ns. -/
  now : Nat
  /-- Identity serial (R463). -/
  serial : W64
  /-- The device's state of R463. -/
  dev : DevState
  /-- Events posted since reset (R484). -/
  events : Nat
  /-- Device events that wait while no session is open, and how many were dropped (R485). -/
  backlog : List (List Byte)
  backlogLost : Nat
  /-- Events written to the UART console, oldest first (R485). -/
  console : List (List Byte)
  /-- The fault log ring of 4,096 records, oldest first, and the counts of R397 and R422. -/
  faultLog : List (List Byte)
  faultsEver : Nat
  faultCnt : Nat
  restarts : Nat
  jobsHeld : Nat
  /-- The outputs so far, oldest first, and what the last command returned to its sender (DESIGN CHOICE, log 13). -/
  out : List Sent
  reply : List Byte
  replyStatus : Nat
  groups : List Group
  chains : List Chain
  /-- Identities given to chains so far, and the end status of each chain that has ended (R359). -/
  chainIds : Nat
  chainEnds : List (Nat × Status)
  /-- Packets that arrived before their chain was armed, with their port, and whether the early-arrival buffer holds them
  (R324). -/
  early : List (Nat × Packet × Bool)
  judges : List Judge
  ports : List Port
  topo : Topo
  pair : Pair
  /-- Restore transfers in progress (R412). -/
  transfers : List Transfer
  /-- The generation record of each job whose generation this device has received as its warm spare (R412). -/
  spareRecords : List (Nat × List Byte)
  /-- Notices that this device has originated (R405). -/
  notices : Nat
  /-- The 32 host cores. -/
  cores : List HostCore
  mailboxes : List Mailbox
  starter : Starter
  eth : List EthPort
  sessions : List Session
  qps : List Qp
  pacer : Pacer
  pace : PaceCtl
  temps : Temps
  power : Power
  inputs : Inputs
  telem : Telem
  tracks : List Track
  heats : List HeatCount
  /-- Logical clusters that have run a work unit since reset (R214, R421). -/
  worked : List Nat
  deriving DecidableEq, Repr

namespace State

/-- The state right after hub reset release (DESIGN CHOICE, log 1). -/
def reset : State where
  mem := []
  pending := []
  free := 0
  queues := []
  rings := []
  jobs := []
  unitMap := .firstPowerUp
  unfit := false
  mapCopies := List.replicate 2 { map := .firstPowerUp, crc := 0x3DCE9D6C }
  retiredCores := []
  edern := List.replicate 8 {}
  poisoned := []
  caches := []
  reservations := []
  shadows := []
  shadowRegions := []
  now := 0
  serial := 0x0D80_0000_0000_0001
  dev := .reset
  events := 0
  backlog := []
  backlogLost := 0
  console := []
  faultLog := []
  faultsEver := 0
  faultCnt := 0
  restarts := 0
  jobsHeld := 0
  out := []
  reply := []
  replyStatus := 0
  groups := []
  chains := []
  chainIds := 0
  chainEnds := []
  early := []
  judges := List.replicate 3 {}
  ports := List.replicate 7 {}
  topo := { origin := 0x0D80_0000_0000_0001 }
  pair := {}
  transfers := []
  spareRecords := []
  notices := 0
  cores := List.replicate 32 {}
  mailboxes := List.replicate 64 {}
  starter := {}
  eth := List.replicate 8 {}
  sessions := []
  qps := []
  pacer := {}
  pace := {}
  temps := {}
  power := {}
  inputs := {}
  telem := {}
  tracks := List.replicate 2 {}
  heats := List.replicate 100 {}
  worked := []

end State

end Sys2Proof.Machine
end

