-- ==== Sys2Proof/Machine/Ops.lean ====
section
/-! DEFINITION. The named operations over memory, the address map and its permissions, rings and events, and the
small functions of the spec that several units share (CRC-32C, mix). -/

namespace Sys2Proof.Machine

/-! ### Bytes -/

/-- Little-endian value of bytes (R10). -/
def leNat : List Byte → Nat
  | [] => 0
  | b :: bs => b.toNat + 256 * leNat bs

/-- `n` little-endian bytes of a value. -/
def toLe : Nat → Nat → List Byte
  | 0, _ => []
  | n + 1, v => BitVec.ofNat 8 v :: toLe n (v / 256)

/-- Bits [lo + n − 1:lo] of a number. -/
def bitsAt (v lo n : Nat) : Nat := (v >>> lo) % 2 ^ n

def bitAt (v i : Nat) : Bool := v.testBit i

/-- The polynomial division step of CRC-32C (R315), reflected. -/
def crcStep : Nat → W32 → W32
  | 0, c => c
  | k + 1, c => crcStep k (if c.getLsbD 0 then (c >>> 1) ^^^ 0x82F63B78 else c >>> 1)

/-- CRC-32C of a byte list (R315). -/
def crc32c (bs : List Byte) : W32 :=
  (bs.foldl (fun c b => crcStep 8 (c ^^^ b.setWidth 32)) 0xFFFFFFFF) ^^^ 0xFFFFFFFF

/-- The mixing function of R180. -/
def mix (z0 : W64) : W64 :=
  let z1 := (z0 ^^^ (z0 >>> 30)) * 0xBF58476D1CE4E5B9
  let z2 := (z1 ^^^ (z1 >>> 27)) * 0x94D049BB133111EB
  z2 ^^^ (z2 >>> 31)

/-- The 16-bit draw of R180. -/
def draw (key : W64) (n : Nat) : Nat :=
  ((mix (key + BitVec.ofNat 64 n * 0x9E3779B97F4A7C15)) >>> 48).toNat

/-- The stream key of R181. -/
def streamKey (seed : W64) (purpose salt tensor tile step : Nat) : W64 :=
  let k1 := mix (seed ^^^ BitVec.ofNat 64 (purpose <<< 56))
  let k2 := mix (k1 ^^^ BitVec.ofNat 64 (salt <<< 24) ^^^ BitVec.ofNat 64 tensor)
  let k3 := mix (k2 ^^^ BitVec.ofNat 64 tile)
  mix (k3 ^^^ BitVec.ofNat 64 step)

/-- Bytes of a record of a ring (R204, R246, R483). -/
def RingKind.recBytes : RingKind → Nat
  | .completion => 32
  | .event => 128
  | .message => 32

/-! ### Memory -/

namespace Memory

/-- The byte at an address; an unlisted address reads as zero. -/
def get : Memory → Nat → Byte
  | [], _ => 0
  | (a, b) :: m, k => if k = a then b else if k < a then 0 else get m k

/-- Write one byte, keeping the canonical form. -/
def set : Memory → Nat → Byte → Memory
  | [], k, v => if v = 0 then [] else [(k, v)]
  | (a, b) :: m, k, v =>
    if k < a then (if v = 0 then (a, b) :: m else (k, v) :: (a, b) :: m)
    else if k = a then (if v = 0 then m else (k, v) :: m)
    else (a, b) :: set m k v

/-- Write bytes at consecutive addresses. -/
def setBytes : Memory → Nat → List Byte → Memory
  | m, _, [] => m
  | m, a, b :: bs => setBytes (set m a b) (a + 1) bs

/-- `n` bytes from an address. -/
def getBytes (m : Memory) (a : Nat) : Nat → List Byte
  | 0 => []
  | n + 1 => get m a :: getBytes m (a + 1) n

/-- Make every byte of a range read as the cells say, and zero where they say nothing (R302). -/
def overlay (m : Memory) (base len : Nat) (cells : List Host.Cell) : Memory :=
  let cleared := m.filter fun c => !(decide (base ≤ c.1) && decide (c.1 < base + len))
  (cells.filter fun c => decide (base ≤ c.1) && decide (c.1 < base + len)).foldl (fun acc c => set acc c.1 c.2) cleared

/-- The listed bytes of a range. -/
def slice (m : Memory) (base len : Nat) : List Host.Cell :=
  m.filter fun c => decide (base ≤ c.1) && decide (c.1 < base + len)

/-- Memory without the bytes of a range: they read as never written. -/
def without (m : Memory) (base len : Nat) : Memory := m.filter fun c => !(decide (base ≤ c.1) && decide (c.1 < base + len))

end Memory

/-! ### The address map (R32) -/

/-- What an address names. -/
inductive Region where
  | edern (s : Nat)
  | cluster (c : Nat)
  | hcStore (n : Nat)
  | hcTrace (n : Nat)
  | doorbell (q : Nat)
  | csr (b : Nat)
  | mailbox (m : Nat)
  | boot
  | reserved
  deriving DecidableEq, Repr

def stackBytes : Nat := 0x0018_0000_0000
def stackStride : Nat := 0x00C0_0000_0000
def clusterBase : Nat := 0x1000_0000_0000
def hcBase : Nat := 0x2000_0000_0000
def doorbellBase : Nat := 0xE000_0000_0000
def csrBase : Nat := 0xF000_0000_0000
def mailboxBase : Nat := 0xF100_0000_0000
def bootBase : Nat := 0xF200_0000_0000

/-- Whether a block index names a register block of R33. -/
def csrBlockDefined (b : Nat) : Bool :=
  b ≤ 5 || (0x10 ≤ b && b ≤ 0x16) || (0x18 ≤ b && b ≤ 0x1A) || (0x20 ≤ b && b ≤ 0x27) || (0x30 ≤ b && b ≤ 0x31) ||
    (0x40 ≤ b && b ≤ 0xA3) || (0xB0 ≤ b && b ≤ 0xCF) || (0x100 ≤ b && b ≤ 0x167)

/-- The region of an address (R32). -/
def regionOf (a : Nat) : Region :=
  if a < 8 * stackStride then
    (if a % stackStride < stackBytes then .edern (a / stackStride) else .reserved)
  else if clusterBase ≤ a ∧ a < clusterBase + 800 * 0x10_0000 then .cluster ((a - clusterBase) / 0x10_0000)
  else if hcBase ≤ a ∧ a < hcBase + 32 * 0x100_0000 then
    let n := (a - hcBase) / 0x100_0000
    let o := (a - hcBase) % 0x100_0000
    if o < 0x8_0000 then .hcStore n else if 0x80_0000 ≤ o ∧ o < 0x81_0000 then .hcTrace n else .reserved
  else if doorbellBase ≤ a ∧ a < doorbellBase + 0x1000_0000 then .doorbell ((a - doorbellBase) / 0x1000)
  else if csrBase ≤ a ∧ a < csrBase + 0x168 * 0x100_0000 then
    (if csrBlockDefined ((a - csrBase) / 0x100_0000) then .csr ((a - csrBase) / 0x100_0000) else .reserved)
  else if mailboxBase ≤ a ∧ a < mailboxBase + 64 * 0x2000 then .mailbox ((a - mailboxBase) / 0x2000)
  else if bootBase ≤ a ∧ a < bootBase + 0x8000_0000 then .boot
  else .reserved

/-- Whether two regions are one unit in the sense of R212: the cluster stores count together. -/
def Region.same : Region → Region → Bool
  | .cluster _, .cluster _ => true
  | a, b => a == b

def isEdern (a : Nat) : Bool :=
  match regionOf a with
  | .edern _ => true
  | _ => false

/-- Whether the bytes [a, a + n) lie in one region (R212). -/
def oneRegion (a n : Nat) : Bool :=
  regionOf a != .reserved && (regionOf a).same (regionOf (a + n - 1)) &&
    (match regionOf a with
      | .edern _ => decide (a % stackStride + n ≤ stackBytes)
      | _ => true)

def Range.contains (r : Range) (a : Nat) : Bool := decide (r.base ≤ a) && decide (a < r.base + r.len)

def Range.meets (r : Range) (a n : Nat) : Bool :=
  decide (0 < n) && decide (0 < r.len) && decide (r.base < a + n) && decide (a < r.base + r.len)

namespace State

/-- The ranges of Edern memory that software must not access: snapshot pools (R294) and shadow regions (R401). -/
def closedRanges (s : State) : List Range :=
  s.shadowRegions ++ s.jobs.flatMap fun j =>
    j.pools ++ (match j.newPolicy with
      | some p => p.2.1
      | none => [])

def inClosed (s : State) (a n : Nat) : Bool := s.closedRanges.any fun r => r.meets a n

/-! ### Reading -/

def byte (s : State) (a : Nat) : Byte := s.mem.get a

def bytes (s : State) (a n : Nat) : List Byte := s.mem.getBytes a n

/-- A little-endian value of `n` bytes. -/
def read (s : State) (a n : Nat) : Nat := leNat (s.mem.getBytes a n)

def read64 (s : State) (a : Nat) : W64 := BitVec.ofNat 64 (s.read a 8)

/-- The lines of 256 bytes that a range touches. -/
def linesOf (a n : Nat) : List Nat :=
  if n = 0 then [] else (List.range' (a / 256) ((a + n - 1) / 256 - a / 256 + 1)).map (· * 256)

/-- Whether a range holds a poisoned line (R272). -/
def poisonIn (s : State) (a n : Nat) : Bool :=
  s.poisoned.any fun l => decide (l < a + n) && decide (a < l + 256)

/-- The aligned doubleword as the stack holds it: a dirty host-core block has not reached the stack (R291).
DESIGN CHOICE, log 47. -/
def stackWord (s : State) (a : Nat) : W64 :=
  match s.caches.find? fun b => decide (b.addr ≤ a) && decide (a < b.addr + 64) && b.stale.isSome with
  | some b => BitVec.ofNat 64 (leNat ((b.stale.getD []).drop (a - b.addr) |>.take 8))
  | none => s.read64 a

/-! ### Copy-on-write granules (R296 to R298) -/

def granule : Nat := 0x1_0000

def stackOf (a : Nat) : Nat := a / stackStride

/-- The physical granule that the live mapping gives a granule of the set. -/
def physOf (map : List (Nat × Nat)) (g : Nat) : Nat :=
  match map.find? fun e => e.1 == g with
  | some e => e.2
  | none => g

/-- The granules of a list of ranges. -/
def granulesOf (rs : List Range) : List Nat :=
  rs.flatMap fun r => (List.range (r.len / granule)).map fun k => r.base + k * granule

/-- The generations that hold granules: those not RELEASED. -/
def liveGens (j : Job) : List Gen := j.gens.filter fun g => g.state != .released

/-- Physical granules mapped by the live mapping or by a generation (R298). -/
def mappedGranules (j : Job) : List Nat :=
  let set := granulesOf j.ranges
  (set.map (physOf j.map) ++ (liveGens j).flatMap fun g => set.map (physOf g.map)).eraseDups

/-- The free physical granules of a job on a stack, pool granules first, each kind ascending (R298, DESIGN CHOICE, log 20). -/
def freeGranules (j : Job) (st : Nat) : List Nat :=
  let used := mappedGranules j
  (granulesOf j.pools ++ granulesOf j.ranges).filter fun g => stackOf g == st && !used.contains g

/-- Free pool bytes of a job on a stack (R298). DESIGN CHOICE, log 20. -/
def freePool (j : Job) (st : Nat) : Nat :=
  if (liveGens j).isEmpty then ((j.pools.filter fun r => stackOf r.base == st).map Range.len).sum
  else granule * (freeGranules j st).length

/-- The first write to a shared granule takes a free granule (R296). DESIGN CHOICE, log 20. -/
def touchGranule (j : Job) (g : Nat) : Job :=
  let p := physOf j.map g
  if (granulesOf j.ranges).contains g && (liveGens j).any (fun gen => physOf gen.map g == p) then
    match freeGranules j (stackOf g) with
    | f :: _ => { j with map := (g, f) :: j.map.filter (fun e => e.1 != g) }
    | [] => j
  else j

/-- The granules that a range touches. -/
def granulesIn (a n : Nat) : List Nat :=
  if n = 0 then [] else (List.range' (a / granule) ((a + n - 1) / granule - a / granule + 1)).map (· * granule)

/-! ### Writing -/

/-- Every write that a stack, a cluster store or a local store performs: the bytes change; whole lines lose their
poison (R272); reservations on the lines end (R268); host-core copies of the lines are invalidated (R290); granules
shared with a generation are copied first (R296). -/
def store (s : State) (a : Nat) (bs : List Byte) : State :=
  let n := bs.length
  let meets (l k : Nat) : Bool := decide (l < a + n) && decide (a < l + k)
  { s with
    mem := s.mem.setBytes a bs
    poisoned := s.poisoned.filter fun l => !(decide (a ≤ l) && decide (l + 256 ≤ a + n))
    reservations := s.reservations.filter fun r => !(meets r.2 256)
    caches := s.caches.filter fun b => !(meets b.addr 64)
    jobs := s.jobs.map fun j => (granulesIn a n).foldl touchGranule j }

def storeNat (s : State) (a n v : Nat) : State := s.store a (toLe n v)

def store64 (s : State) (a : Nat) (v : W64) : State := s.store a (toLe 8 v.toNat)

/-- Several writes in order. -/
def storeAll (s : State) (ws : List (Nat × List Byte)) : State := ws.foldl (fun s w => s.store w.1 w.2) s

/-- A read by an initiator other than a host core recalls dirty blocks: they become clean (R290). DESIGN CHOICE, log 47. -/
def recallBlocks (s : State) (a n : Nat) : State :=
  { s with caches := s.caches.map fun b =>
      if decide (b.addr < a + n) && decide (a < b.addr + 64) then { b with stale := none } else b }

/-! ### Free values -/

/-- The next free word. -/
def fresh (s : State) : W64 × State := (Config.freeValue s.free, { s with free := s.free + 1 })

/-! ### Queues, rings and jobs by ID -/

def queue? (s : State) (q : Nat) : Option CmdQueue := s.queues.find? fun c => c.id == q
def ring? (s : State) (q : Nat) : Option RingQ := s.rings.find? fun r => r.id == q
def job? (s : State) (j : Nat) : Option Job := s.jobs.find? fun x => x.id == j

/-- DESIGN CHOICE, log 113. -/
def setQueue (s : State) (q : CmdQueue) : State :=
  { s with queues := s.queues.map fun c => if c.id == q.id then q else c }

def setJob (s : State) (j : Job) : State :=
  { s with jobs := s.jobs.map fun x => if x.id == j.id then j else x }

def modJob (s : State) (id : Nat) (f : Job → Job) : State :=
  { s with jobs := s.jobs.map fun x => if x.id == id then f x else x }

/-- Chains end with a status (R359): no queue waits for them any more. -/
def endChains (s : State) (f : Chain → Bool) (st : Status) : State :=
  let gone := (s.chains.filter f).map Chain.id
  { s with
    chains := s.chains.filter fun c => !f c
    chainEnds := s.chainEnds ++ gone.map fun i => (i, st)
    queues := s.queues.map fun (q : CmdQueue) => { q with armed := q.armed.filter fun a => !gone.contains a } }

/-- The step number of a job, or 0. -/
def stepOf (s : State) (j : Option Nat) : Nat :=
  match j.bind s.job? with
  | some x => x.step
  | none => 0

end State

/-! ### Fault records (R397, R398) -/

/-- The mechanism codes of R398. -/
inductive Mech where
  | dieMark | eccUe | poisonRead | sramDed | residue | lockstepHc | lockstepSt | hopCheck | pcrc | linkDown | retrain
  | ppHalf | pacer | heartbeat | stall | judge | patrolUe | channelWd | digest | ethFailover | selftest | thermal
  deriving DecidableEq, Repr

def Mech.code : Mech → Nat
  | .dieMark => 1 | .eccUe => 2 | .poisonRead => 3 | .sramDed => 4 | .residue => 5 | .lockstepHc => 6
  | .lockstepSt => 7 | .hopCheck => 8 | .pcrc => 9 | .linkDown => 10 | .retrain => 11 | .ppHalf => 12
  | .pacer => 13 | .heartbeat => 14 | .stall => 15 | .judge => 16 | .patrolUe => 17 | .channelWd => 18
  | .digest => 19 | .ethFailover => 20 | .selftest => 21 | .thermal => 22

/-- The unit classes of R420. -/
inductive UnitClass where
  | heat | cluster | hostCore | stack | port | judge | hub | channel | ethernet
  deriving DecidableEq, Repr

def UnitClass.code : UnitClass → Nat
  | .heat => 0 | .cluster => 1 | .hostCore => 2 | .stack => 3 | .port => 4 | .judge => 5 | .hub => 6
  | .channel => 7 | .ethernet => 8

/-- The outcome codes of R397. -/
inductive FaultOutcome where
  | masked | restarts | retired | unfit | noJob
  deriving DecidableEq, Repr

def FaultOutcome.code : FaultOutcome → Nat
  | .masked => 0 | .restarts => 1 | .retired => 2 | .unfit => 3 | .noJob => 4

/-- What a fault record says besides timer, step and number (R397). -/
structure FaultInfo where
  mech : Nat
  outcome : FaultOutcome := .noJob
  cls : Nat := 6
  index : Nat := 0
  job : Option Nat := none
  queue : Option Nat := none
  addr : Nat := 0
  detail : Nat := 0
  rank : Option Nat := none
  group : Nat := 0
  /-- The device the fault concerns; none: this one. -/
  serial : Option W64 := none
  deriving DecidableEq, Repr

namespace State

/-- The 64 bytes of a fault record (R397). -/
def faultRecord (s : State) (f : FaultInfo) : List Byte :=
  toLe 1 f.mech ++ toLe 1 f.outcome.code ++ toLe 2 (f.cls <<< 12 ||| f.index % 4096) ++
    toLe 2 (match f.job with
      | some j => 0x8000 + j
      | none => 0) ++
    toLe 2 (f.queue.getD 0xFFFF) ++ toLe 8 s.now ++ toLe 8 (s.stepOf f.job) ++ toLe 8 f.addr ++ toLe 4 f.detail ++
    toLe 2 (f.rank.getD 0xFFFF) ++ toLe 2 f.group ++ toLe 8 (f.serial.getD s.serial).toNat ++
    toLe 8 (s.faultsEver + 1) ++ toLe 8 0

/-- A stack counts an uncorrectable or poisoned read and records its line (R272, R277). DEDUCED, log 48. -/
def countUe (s : State) (st addr : Nat) : State :=
  { s with edern := s.edern.modify st fun e => { e with eccUe := e.eccUe + 1, eccUeAddr := addr / 256 * 256 } }

/-! ### Rings (R205, R246, R483) -/

/-- Whether the ring has no free slot. -/
def ringFull (s : State) (r : RingQ) : Bool :=
  (s.read64 r.base - s.read64 (r.base + 8)).toNat ≥ r.slots

/-- The poisoned line that a record written to a ring meets: its slot or the ring's header lies there (R272). -/
def ringLine (s : State) (r : RingQ) : Option Nat :=
  let slot := r.base + 0x40 + ((s.read64 r.base).toNat % r.slots) * r.kind.recBytes
  let meets (l a n : Nat) : Bool := decide (l < a + n) && decide (a < l + 256)
  s.poisoned.find? fun l => meets l r.base 0x40 || meets l slot r.kind.recBytes

/-- Write a record and advance write_index. -/
def ringPut (s : State) (r : RingQ) (rec : List Byte) : State :=
  let w := s.read64 r.base
  let s1 := s.store (r.base + 0x40 + (w.toNat % r.slots) * r.kind.recBytes) rec
  s1.store64 r.base (w + 1)

end State

/-! ### Events (R483 to R487) -/

/-- The event codes of R487. -/
inductive Ev where
  | commandDone | queueStopped | queueHalted | break_ | doorbellBad
  | stepSkipped | watchLost | ckptDeferred | jobRestarting | jobResumed | jobHeld | mirrorDiverged | stallCycle | fault
  | ready | unfit | stackDieMarked | stackUe | shadowFailed | shadowNoSpace | pairEvent | pairLost | ppHalfWidth
  | laneDegraded | topoDeclared | topoConflict | photoDone | clockLost | thermal | alert | chatter
  deriving DecidableEq, Repr

def Ev.code : Ev → Nat
  | .commandDone => 1 | .queueStopped => 2 | .queueHalted => 3 | .break_ => 4 | .doorbellBad => 5
  | .stepSkipped => 0x101 | .watchLost => 0x102 | .ckptDeferred => 0x103 | .jobRestarting => 0x104
  | .jobResumed => 0x105 | .jobHeld => 0x106 | .mirrorDiverged => 0x107 | .stallCycle => 0x108 | .fault => 0x109
  | .ready => 0x201 | .unfit => 0x202 | .stackDieMarked => 0x203 | .stackUe => 0x204 | .shadowFailed => 0x205
  | .shadowNoSpace => 0x206 | .pairEvent => 0x207 | .pairLost => 0x208 | .ppHalfWidth => 0x209
  | .laneDegraded => 0x20A | .topoDeclared => 0x20B | .topoConflict => 0x20C | .photoDone => 0x20D
  | .clockLost => 0x20E | .thermal => 0x20F | .alert => 0x210 | .chatter => 0x211

namespace State

/-- The 128 bytes of an event record (R484). -/
def eventRecord (s : State) (e : Ev) (job queue : Option Nat) (tag : Nat) (step : Nat) (payload : List Byte) : List Byte :=
  toLe 2 e.code ++ toLe 2 (match job with
      | some j => 0x8000 + j
      | none => 0) ++
    toLe 2 (queue.getD 0xFFFF) ++ toLe 2 tag ++ toLe 8 s.now ++ toLe 8 step ++ toLe 8 (s.events + 1) ++
    (payload ++ List.replicate 96 0).take 96

/-- Write an event to one ring; a full ring drops it and counts it in lost (R486). -/
def ringWrite (rec : List Byte) (s : State) (r : RingQ) : State :=
  if s.ringFull r then s.store64 (r.base + 0x10) (s.read64 (r.base + 0x10) + 1)
  else s.ringPut r rec

/-- The rings of device events: the device event queue of every open session (R485). -/
def deviceRings (s : State) : List RingQ := s.rings.filter fun r => r.kind == .event && r.job.isNone

/-- Device events without an open session wait in a backlog of 256 (R485). -/
def toBacklog (s : State) (rec : List Byte) : State :=
  let b := s.backlog ++ [rec]
  if b.length ≤ 256 then { s with backlog := b }
  else { s with backlog := b.drop 1, backlogLost := s.backlogLost + 1 }

/-- Count an event and write it to the console (R484, R485). -/
def noteEvent (s : State) (rec : List Byte) : State :=
  { s with events := s.events + 1, console := s.console ++ [rec] }

/-- Put a fault record into the log, which keeps the newest 4,096 (R399). -/
def logFault (s : State) (rec_ : List Byte) : State :=
  let log := s.faultLog ++ [rec_]
  { s with
    faultLog := if log.length ≤ 4096 then log else log.drop 1
    faultsEver := s.faultsEver + 1
    faultCnt := s.faultCnt + 1 }

/-- A write of the device's own that belongs to no command, chain or invocation meets a poisoned line in part: a detected fault,
and the line stays as it is (R272). No job is affected; the FAULT event goes to the device queues that no poisoned line
holds up. DESIGN CHOICE, log 134. -/
def strike (s : State) (l : Nat) : State :=
  let f : FaultInfo := { mech := Mech.poisonRead.code, cls := 3, index := stackOf l, addr := l }
  let rec_ := s.faultRecord f
  let s1 := (s.countUe (stackOf l) l).logFault rec_
  let ev := s1.eventRecord .fault none none 0 0 rec_
  let s2 := s1.noteEvent ev
  if s2.deviceRings.isEmpty then s2.toBacklog ev
  else (s2.deviceRings.filter fun r => (s2.ringLine r).isNone).foldl (ringWrite ev) s2

/-- The poisoned line that a write meets in part. -/
def partLine (s : State) (a n : Nat) : Option Nat :=
  s.poisoned.find? fun l =>
    decide (l < a + n) && decide (a < l + 256) && !(decide (a ≤ l) && decide (l + 256 ≤ a + n))

/-- A write of the device's own, or the fault in its place (R272). DESIGN CHOICE, log 134. -/
def ownStore (s : State) (a : Nat) (bs : List Byte) : State :=
  match s.partLine a bs.length with
  | some l => s.strike l
  | none => s.store a bs

/-- The same, unless a poisoned line lies where the ring's record goes. -/
def ringEvent (rec : List Byte) (s : State) (r : RingQ) : State :=
  match s.ringLine r with
  | some l => s.strike l
  | none => s.ringWrite rec r

/-- Where an event goes: to the rings named, and to the device event queues where `device` holds (R485). DEDUCED, log 19. -/
def postRecord (s : State) (rings : List Nat) (device : Bool) (rec : List Byte) : State :=
  let s1 := s.noteEvent rec
  let s2 := (s1.rings.filter fun r => r.kind == .event && rings.contains r.id).foldl (ringEvent rec) s1
  if device then
    (if s2.deviceRings.isEmpty then s2.toBacklog rec else s2.deviceRings.foldl (ringEvent rec) s2)
  else s2

/-- A queue event. -/
def postQueue (s : State) (e : Ev) (q : CmdQueue) (tag : Nat) (payload : List Byte) : State :=
  s.postRecord [q.eq] false (s.eventRecord e (some q.job) (some q.id) tag (s.stepOf (some q.job)) payload)

/-- A job event. -/
def postJob (s : State) (e : Ev) (j : Job) (step : Nat) (payload : List Byte) : State :=
  s.postRecord [j.eq] false (s.eventRecord e (some j.id) none 0 step payload)

/-- A filtered transition of an input: counted in its window of 1 s; the 10,001st posts one CHATTER event (R555). -/
def noteEdge (s : State) (i : Nat) : State :=
  let w := s.now / 100000000
  let c := s.inputs.chatter.getD i (0, 0)
  let n := if c.2 = w then c.1 + 1 else 1
  let s1 : State := { s with inputs := { s.inputs with chatter := s.inputs.chatter.set i (n, w) } }
  if n = 10001 then s1.postRecord [] true (s1.eventRecord .chatter none none 0 0 (toLe 1 i)) else s1

/-- Drive ALERT_N, or release it (R528, R557): the wired-AND line changes where no other driver holds it low. DEDUCED, log 105. -/
def setDrive (s : State) (on : Bool) : State :=
  if s.inputs.drive == on then s
  else
    let s1 : State := { s with inputs := { s.inputs with
      drive := on, releasedAt := if on then none else some s.now
      highSince := if on || !s.inputs.alertN then none else some s.now } }
    if s.inputs.alertN then s1.noteEdge 2 else s1

/-- The drive follows the unmasked status bits (R558). -/
def followAlert (s : State) : State := s.setDrive (s.inputs.alertStatus &&& ~~~s.inputs.alertMask != 0)

/-- Set a bit of ALERT_STATUS (R560). -/
def raiseAlert (s : State) (b : Nat) : State :=
  ({ s with inputs := { s.inputs with alertStatus := s.inputs.alertStatus ||| (1 <<< b) } } : State).followAlert

/-- The ALERT_STATUS bit that the posting of an event sets (R560). -/
def Ev.alertBit (e : Ev) : Option Nat :=
  match e with
  | .clockLost => some 0
  | .ready => some 1
  | .unfit => some 2
  | .pairLost => some 5
  | _ => none

/-- A device event. -/
def postDevice (s : State) (e : Ev) (payload : List Byte) : State :=
  let s1 := s.postRecord [] true (s.eventRecord e none none 0 0 payload)
  match Ev.alertBit e with
  | some b => s1.raiseAlert b
  | none => s1

end State

end Sys2Proof.Machine
end

