-- ==== Sys2Proof/Machine/Packets.lean ====
section
/-! DEFINITION. Relay packets: the header's bytes and CRC (R325, R328), credits and the send queue of a port (R317,
R321, R322), and the CTRL notices that flood over a job's groups (R385, R405). -/

namespace Sys2Proof.Machine

/-- Packet type codes (R326). -/
inductive PType where
  | reduce | put | agree | arrive | ctrl | topo | starter | beat | shadow | digest | relay | pairctl
  deriving DecidableEq, Repr

def PType.code : PType → Nat
  | .reduce => 1 | .put => 2 | .agree => 3 | .arrive => 4 | .ctrl => 5 | .topo => 6 | .starter => 7 | .beat => 8
  | .shadow => 9 | .digest => 10 | .relay => 11 | .pairctl => 12

/-- The virtual channel of a type on a partner port and on the pair port (R321); none where it is not allowed. -/
def PType.vcOn (t : PType) (pair : Bool) : Option Nat :=
  if pair then
    match t with
    | .beat => some 0
    | .pairctl => some 0
    | .starter => some 0
    | .digest => some 1
    | .relay => some 2
    | .shadow => some 3
    | _ => none
  else
    match t with
    | .reduce => some 0
    | .agree => some 0
    | .put => some 1
    | .arrive => some 2
    | .ctrl => some 2
    | .starter => some 2
    | .topo => some 3
    | _ => none

/-- Receive buffers in credits of 32 bytes (R321). -/
def vcBuffers (pair : Bool) : List Nat :=
  if pair then [1024, 2048, 8192, 16384] else [32768, 24576, 2048, 1024]

/-- Flits of the replay buffer (R317). -/
def replayFlits (p : Nat) : Nat := if p = 6 then 256 else 2048

namespace Pkt

/-- The 32 header bytes with the pcrc field as given (R325). -/
def header (k : Packet) (pcrc : Nat) : List Byte :=
  toLe 2 (k.ptype.toNat <<< 12 ||| k.vc.toNat <<< 10 ||| k.job.toNat) ++ toLe 2 k.group.toNat ++
    toLe 4 k.bucket.toNat ++ toLe 4 k.first.toNat ++ toLe 2 (k.carry.toNat <<< 13 ||| k.len.toNat) ++
    toLe 2 (k.stage.toNat <<< 12) ++ toLe 8 k.contrib.toNat ++
    toLe 2 ((if k.dstValid then 0x8000 else 0) + k.dst.toNat) ++
    toLe 2 ((if k.srcValid then 0x8000 else 0) + k.src.toNat) ++ toLe 4 pcrc

/-- The packet CRC (R328). -/
def crc (k : Packet) : W32 := crc32c (header k 0 ++ k.payload)

/-- Bytes on the link. -/
def size (k : Packet) : Nat := 32 + k.payload.length

/-- Credits a packet takes (R321). -/
def creditsOf (k : Packet) : Nat := size k / 32

/-- Flits a packet takes when it starts a flit of its own (DESIGN CHOICE, log 21). -/
def flits (p : Nat) (k : Packet) : Nat := ceilDiv (size k) (Fec.flitPayload p)

/-- Pad a payload with zeros to whole 32-byte units. -/
def pad (bs : List Byte) : List Byte := bs ++ List.replicate ((32 - bs.length % 32) % 32) 0

end Pkt

/-- The control word of R314. -/
def Ctl.word (ftype seq ack cvc ccount pstart : Nat) : W64 :=
  BitVec.ofNat 64 (ftype <<< 61 ||| seq <<< 49 ||| ack <<< 37 ||| cvc <<< 35 ||| ccount <<< 23 ||| pstart <<< 11)

/-- The bytes of a flit (R313). -/
def FlitImage.bytes (f : FlitImage) : List Byte := toLe 8 f.control.toNat ++ f.payload ++ toLe 4 f.crc.toNat

/-- Form a flit: the stream padded with zeros to the flit's payload, and the crc over control and payload (R313, R315). -/
def FlitImage.form (p : Nat) (w : W64) (stream : List Byte) : FlitImage :=
  let pay := stream ++ List.replicate (Fec.flitPayload p - stream.length) 0
  { control := w, payload := pay, crc := crc32c (toLe 8 w.toNat ++ pay) }

/-- The VC with credits due to the partner. -/
def owedVc (x : Port) : Option Nat := (List.range 4).find? fun v => decide (0 < x.owed.getD v 0)

/-- A coordinate in the layout of R325: z, y, x. -/
def coordBits (c : List Nat) : BitVec 12 :=
  BitVec.ofNat 12 ((c.getD 2 0 % 16) <<< 8 ||| (c.getD 1 0 % 16) <<< 4 ||| c.getD 0 0 % 16)

/-! ### Sampling by the Judges (R381) -/

/-- Whether a Judge at rate k samples a packet. DEDUCED, log 56. -/
def judgeSamples (k : Nat) (p : Packet) : Bool :=
  let h := mix (mix (BitVec.ofNat 64
    (p.bucket.toNat <<< 32 ^^^ p.group.toNat <<< 16 ^^^ p.job.toNat <<< 4 ^^^ p.stage.toNat)) ^^^ p.first.setWidth 64)
  h.toNat % 2 ^ k == 0

/-- The Judge of a port: P0 to P2, P3 to P5, and the hub's. DEDUCED, log 56. -/
def judgeOf (p : Nat) : Nat := p / 3

namespace State

def port (s : State) (p : Nat) : Port := s.ports.getD p {}

def setPort (s : State) (p : Nat) (x : Port) : State := { s with ports := s.ports.set p x }

def modPort (s : State) (p : Nat) (f : Port → Port) : State := s.setPort p (f (s.port p))

/-- This device's declared coordinate (R336). -/
def ownCoord (s : State) : BitVec 12 := coordBits (s.topo.c.map fun x => x.getD 0)

/-- A packet formed by this device for a port: header, payload padded to 32 bytes, pcrc (R325 to R328). -/
def mkPacket (s : State) (p : Nat) (t : PType) (job group bucket first carry stage : Nat) (contrib : W64)
    (payload : List Byte) : Packet :=
  let pay := Pkt.pad payload
  let x := s.port p
  let k : Packet :=
    { ptype := BitVec.ofNat 4 t.code, vc := BitVec.ofNat 2 ((t.vcOn (p == 6)).getD 0), job := BitVec.ofNat 10 job
      group := BitVec.ofNat 14 group, bucket := BitVec.ofNat 32 bucket, first := BitVec.ofNat 32 first
      carry := BitVec.ofNat 3 carry, len := BitVec.ofNat 8 (pay.length / 32), stage := BitVec.ofNat 4 stage
      contrib := contrib, dstValid := s.topo.valid && x.partnerValid && p != 6, dst := if p = 6 ∨ !s.topo.valid then 0 else x.partner
      srcValid := s.topo.valid && p != 6, src := if p = 6 ∨ !s.topo.valid then 0 else s.ownCoord
      pcrc := 0, payload := pay }
  { k with pcrc := Pkt.crc k }

/-- Whether a port can start a packet: UP, credits for the whole of it, room in the replay buffer (R317, R322). -/
def canSend (p : Nat) (x : Port) (k : Packet) : Bool :=
  x.state == .up && decide (Pkt.creditsOf k ≤ x.credits.getD k.vc.toNat 0) &&
    decide ((x.txNext + 4096 - x.oldest) % 4096 + Pkt.flits p k ≤ replayFlits p)

/-- Whether lanes [lo, lo + n) hold a bad one. -/
def badIn (m : BitVec 128) (lo n : Nat) : Bool := (List.range' lo n).any m.getLsbD

/-- The lower lane of the half of the pair port in use (R337). -/
def halfLow (x : Port) : Nat := if badIn x.lost 0 8 then 8 else 0

/-- A flit goes out; the last one of a frame completes its codewords, whose symbols go out on the lanes (R309 to R312). DESIGN
CHOICE, log 21. -/
def sendFlit (s : State) (p : Nat) (f : FlitImage) (resent : Bool) : State :=
  let frame := (s.port p).txFrame ++ [f]
  let whole := decide (Fec.frameFlits p ≤ frame.length)
  let s1 := s.modPort p fun x => { x with txFrame := if whole then [] else frame }
  { s1 with out := s1.out ++ .flit p f resent ::
      (if whole then [.lanes p (Fec.lanes p (s.port p).half (halfLow (s.port p)) ((frame.flatMap FlitImage.bytes).map BitVec.toNat))] else []) }

/-- An IDLE flit or a NAK: the next expected sequence number (R314, R318). -/
def sendPlainFlit (s : State) (p ftype : Nat) : State :=
  let x := s.port p
  (s.setPort p { x with sinceAck := 0, lastSent := s.now }).sendFlit p (FlitImage.form p (Ctl.word ftype 0 x.rxNext 0 0 0) []) false

/-- A DATA flit with part of the packet stream: it takes the next sequence number, carries the next expected one and the credits
due on one VC, and stays in the replay buffer (R314, R317, R318). DESIGN CHOICE, log 21. -/
def sendData (s : State) (p pstart : Nat) (stream : List Byte) : State :=
  let x := s.port p
  let v := (owedVc x).getD 0
  let n := min (x.owed.getD v 0) 4095
  let f := FlitImage.form p (Ctl.word 0 x.txNext x.rxNext v n pstart) stream
  (s.setPort p
    { x with
      owed := x.owed.set v (x.owed.getD v 0 - n), sentAt := x.sentAt ++ [s.now], kept := x.kept ++ [f]
      txNext := (x.txNext + 1) % 4096, sinceAck := 0, lastSent := s.now }).sendFlit p f false

/-- Send bytes of the packet stream that begin with a header, flit by flit (R314, R325). -/
def sendStream (p : Nat) : Nat → Nat → List Byte → State → State
  | 0, _, _, s => s
  | n + 1, pstart, bs, s =>
    sendStream p n 0xFFF (bs.drop (Fec.flitPayload p)) (s.sendData p pstart (bs.take (Fec.flitPayload p)))

/-- Since when the first packet that waits on a virtual channel has lacked credits, at a time (R384). DEDUCED, log 57. -/
def starvedOn (x : Port) (now v : Nat) : Option Nat :=
  match x.sendQ.find? fun k => k.vc.toNat == v with
  | some k => if x.credits.getD v 0 < Pkt.creditsOf k then some ((x.starved.getD v none).getD now) else none
  | none => none

def markStarved (s : State) (p : Nat) : State :=
  s.modPort p fun x => { x with starved := (List.range 4).map (starvedOn x s.now) }

/-- Start a packet: credits are taken, bytes counted, and its flits go out (R322, R343). DESIGN CHOICE, log 13,
DESIGN CHOICE, log 21. -/
def startPacket (s : State) (p : Nat) (k : Packet) : State :=
  let vc := k.vc.toNat
  let s1 := s.modPort p fun x =>
    { x with
      credits := x.credits.set vc (x.credits.getD vc 0 - Pkt.creditsOf k), starved := x.starved.set vc none
      txBytes := x.txBytes + Pkt.size k }
  sendStream p (Pkt.flits p k) 0 (Pkt.header k k.pcrc.toNat ++ k.payload) { s1 with out := s1.out ++ [.packet p k] }

/-- The VCs of strict priority, highest first (R321). -/
def strictVcs (p : Nat) : List Nat := if p = 6 then [0] else [3, 2]

/-- The VCs that share the rest, and the weight of each (R321). -/
def sharedVcs (p : Nat) : List Nat := if p = 6 then [1, 2, 3] else [0, 1]

def vcWeight (p vc : Nat) : Nat := if p = 6 then [1, 1, 3, 4].getD vc 1 else 1

/-- The first waiting packet of a VC, where it can start. -/
def headReady (p : Nat) (x : Port) (vc : Nat) : Option Packet :=
  match x.sendQ.find? fun k => k.vc.toNat == vc with
  | some k => if canSend p x k then some k else none
  | none => none

/-- Of the VCs that share and have a packet ready, the one with the fewest bytes for its weight; of equal ones the lowest.
DESIGN CHOICE, log 21. -/
def fairVc (p : Nat) (x : Port) : Option Nat :=
  ((sharedVcs p).filter fun v => (headReady p x v).isSome).foldl (fun best v =>
    match best with
    | some b => if x.served.getD v 0 * vcWeight p b < x.served.getD b 0 * vcWeight p v then some v else best
    | none => some v) none

/-- The packet that starts next: the highest strict VC with one ready, else the turn of a VC that shares (R321). -/
def nextReady (p : Nat) (x : Port) : Option Packet :=
  ((strictVcs p).findSome? (headReady p x)).orElse fun _ => (fairVc p x).bind (headReady p x)

/-- The bytes counted for the turn of R321, which starts anew where no two sharing VCs have packets ready.
DESIGN CHOICE, log 21. -/
def servedAfter (p : Nat) (x : Port) (k : Packet) : List Nat :=
  let v := k.vc.toNat
  if (strictVcs p).contains v then x.served
  else if 1 < ((sharedVcs p).filter fun u => (headReady p x u).isSome).length then
    x.served.set v (x.served.getD v 0 + Pkt.size k)
  else [0, 0, 0, 0]

/-- Send waiting packets while the port can start one. -/
def pump (p : Nat) : Nat → State → State
  | 0, s => s.markStarved p
  | n + 1, s =>
    match nextReady p (s.port p) with
    | some k => pump p n ((s.modPort p fun x => { x with served := servedAfter p x k, sendQ := x.sendQ.erase k }).startPacket p k)
    | none => s.markStarved p

/-- Send a packet on a port, or let it wait its turn. -/
def send (s : State) (p : Nat) (k : Packet) : State :=
  let s1 := s.modPort p fun x => { x with sendQ := x.sendQ ++ [k] }
  pump p (s1.port p).sendQ.length s1

/-! ### CTRL notices (layout: DESIGN CHOICE, log 22) -/

/-- What a CTRL packet with stage CTRL says. DESIGN CHOICE, log 22. -/
inductive Notice where
  | abort | destroy | fault | serial | freeze | restorePoint | path | claim | again | done | ask | answer
  deriving DecidableEq, Repr

def Notice.code : Notice → Nat
  | .abort => 0 | .destroy => 1 | .fault => 2 | .serial => 3 | .freeze => 4 | .restorePoint => 5 | .path => 6
  | .claim => 7 | .again => 8 | .done => 9 | .ask => 10 | .answer => 11

def Notice.ofCode (c : Nat) : Option Notice :=
  [Notice.abort, .destroy, .fault, .serial, .freeze, .restorePoint, .path, .claim, .again, .done, .ask, .answer][c]?

/-- The payload of a notice: kind, origin's serial, notice number, value, then any further bytes. DESIGN CHOICE, log 22. -/
def noticeBytes (n : Notice) (origin : W64) (number value : Nat) (more : List Byte) : List Byte :=
  toLe 8 n.code ++ toLe 8 origin.toNat ++ toLe 8 number ++ toLe 8 value ++ more

/-- The partner ports that a job's groups use, each once, ascending. -/
def groupPorts (g : Group) : List Nat :=
  match g.geometry with
  | .neighbours => g.ports
  | _ => g.rings.flatMap fun r => [r.1, r.2]

def usedPorts (s : State) (job : Nat) : List Nat :=
  let used := (s.groups.filter fun g => g.job == job).flatMap groupPorts
  (List.range 6).filter used.contains

/-- Those whose link works: notices flood over them (R405). -/
def jobPorts (s : State) (job : Nat) : List Nat :=
  (s.usedPorts job).filter fun p => (s.port p).state == .up || (s.port p).state == .retrain

/-- Send a notice on each of a list of ports. -/
def notify (s : State) (ps : List Nat) (job : Nat) (n : Notice) (origin : W64) (number value : Nat) (more : List Byte) : State :=
  ps.foldl (fun s p =>
    s.send p (s.mkPacket p .ctrl job 0 number 0 0 0xE 0 (noticeBytes n origin number value more))) s

/-- A notice of this device's own goes out on the ports of the job's groups, and is known when it comes back (R405). -/
def originate (s : State) (job : Nat) (n : Notice) (number value : Nat) (more : List Byte) : State :=
  let s1 := s.modJob job fun j => { j with seen := j.seen ++ [(n.code, s.serial, number)] }
  s1.notify (s1.jobPorts job) job n s.serial number value more

/-- The same under this device's next notice number. -/
def flood (s : State) (job : Nat) (n : Notice) (value : Nat) (more : List Byte) : State :=
  ({ s with notices := s.notices + 1 } : State).originate job n (s.notices + 1) value more

/-- A packet that the adder of a port, or the pair port, produces: where the Judge of the port samples it, it takes its copies and
what the logic formed (R381). DEDUCED, log 56. -/
def sampleJudge (s : State) (p : Nat) (k : Packet) (work : JudgeWork) (output : List Byte) : State :=
  if judgeSamples (s.judges.getD (judgeOf p) {}).rate k then
    { s with judges := s.judges.modify (judgeOf p) fun x =>
        { x with pending := x.pending ++ [{ port := p, packet := k, work := work, output := output }] } }
  else s

end State

end Sys2Proof.Machine
end

