-- ==== Sys2Proof/Machine/Faults.lean ====
section
/-! DEFINITION. Fault records and what a detected fault does on this device: retirement of heats (R28, R410), the
unfit state (R22), the halt of a job (R406) and holding it (R414). -/

namespace Sys2Proof.Machine

namespace State

/-- Write a fault record; a FAULT event goes to the job's queue and to the device
queues (R397, R399, R485). DEDUCED, log 19. -/
def recordFault (s : State) (f : FaultInfo) : State :=
  let rec_ := s.faultRecord f
  let s1 := s.logFault rec_
  let rings := match f.job.bind s1.job? with
    | some j => [j.eq]
    | none => []
  s1.postRecord rings true (s1.eventRecord .fault f.job f.queue 0 (s1.stepOf f.job) rec_)

/-! ### The stash at a COMMIT or a halt (R159) -/

/-- The poisoned line that a queue's header table lies in. -/
def stashLine (s : State) (q : CmdQueue) : Option Nat :=
  if q.share = 0 then none
  else
    let n := 0x40 + 0x40 * min (s.read (q.hdr + 0xC) 4) 1023
    s.poisoned.find? fun l => decide (l < q.hdr + n) && decide (q.hdr < l + 256)

/-- Every entry becomes FREE and the counters 0; a COMMIT first records the step's values. A header table with a poisoned line is
not written (R272). -/
def emptyStash (commit : Bool) (s : State) (q : CmdQueue) : State :=
  if q.share = 0 then s
  else
    match s.stashLine q with
    | some l => s.strike l
    | none =>
    let h := q.hdr
    let last := if commit then [(h + 0x14, toLe 4 (s.read (h + 0x10) 4)), (h + 0x20, toLe 8 (s.read (h + 0x18) 8))] else []
    let count := min (s.read (h + 0xC) 4) 1023
    s.storeAll (last ++ (List.range count).map (fun i => (h + 0x40 + i * 0x40 + 3, [0])) ++
      [(h, List.replicate 20 0), (h + 0x18, List.replicate 8 0)])

/-! ### Halting a job (R406) -/

/-- The message that tells the cores of a job of its halt or its resumption: one to each of its message queues that is
bound to a core; a full queue takes none (R442). DEDUCED, log 107. -/
def tellCores (s : State) (id tag step : Nat) : State :=
  let msg := toLe 2 0xFFFF ++ toLe 2 tag ++ toLe 4 0 ++ toLe 4 step ++ List.replicate 20 0
  (s.rings.filter fun r => r.kind == .message && r.job == some id && r.core.isSome).foldl (fun s r =>
    if s.ringFull r then s else
      match s.ringLine r with
      | some l => s.strike l
      | none => s.ringPut r msg) s

/-- A queue of a halted job: FROZEN, its running command ended with ABORTED and no record. DESIGN CHOICE, log 15. -/
def freezeQueue (q : CmdQueue) : CmdQueue := { q with state := .frozen, wait := .none, status := 0, armed := [] }

/-- The ports of a job's NEIGHBOURS groups that are UP (R405). -/
def neighbourPorts (s : State) (job : Nat) : List Nat :=
  let used := (s.groups.filter fun g => g.job == job && g.geometry == .neighbours).flatMap Group.ports
  (List.range 6).filter fun p => used.contains p && (s.port p).state == .up

/-- Flood the smallest serial that this device knows for a job (R405). -/
def floodSerial (s : State) (job : Nat) : State :=
  match s.job? job with
  | some j => s.notify (s.neighbourPorts job) job .serial s.serial 0 j.restart.smallest.toNat []
  | none => s

/-! ### Devices that have failed or are blamed (R385, R405, R411) -/

/-- The devices that a restart leaves out of the choice of its coordinator. -/
def leftOut (j : Job) : List W64 := j.restart.failed ++ j.restart.blames.map fun b => b.2.1

/-- The smallest serial that a device starts a flood with: its own, unless it is left out. -/
def startSerial (s : State) (j : Job) : W64 := if (leftOut j).contains s.serial then BitVec.allOnes 64 else s.serial

/-- A device that comes to be left out no longer stands as the smallest serial. -/
def dropLeftOut (s : State) (job : Nat) : State :=
  match s.job? job with
  | some j =>
    if j.phase = .restarting ∧ (leftOut j).contains j.restart.smallest then
      (s.modJob job fun x => { x with restart := { x.restart with smallest := s.startSerial j, changedAt := s.now, coordinator := false } }).floodSerial
        job
    else s
  | none => s

/-- What a fault says of devices, as its record gives it: a stall blames one, and heartbeat loss, a lost crystal and an unfit
device name one that has failed (R385, R411, R524). DEDUCED, log 78. -/
def noteDevices (s : State) (job : Nat) (origin : W64) (mech outcome : Nat) (serial : W64) (group : Nat) : State :=
  (s.modJob job fun j =>
    let r := j.restart
    if mech = Mech.stall.code then
      (if r.blames.any fun b => b.1 == origin && b.2.1 == serial then j
      else { j with restart := { r with blames := r.blames ++ [(origin, serial, group)] } })
    else if mech = Mech.heartbeat.code ∨ mech = Mech.pacer.code ∨ outcome = FaultOutcome.unfit.code then
      (if r.failed.contains serial then j else { j with restart := { r with failed := r.failed ++ [serial] } })
    else j).dropLeftOut job

def noteRecord (s : State) (job : Nat) (origin : W64) (rec_ : List Byte) : State :=
  let word (o n : Nat) : Nat := leNat ((rec_.drop o).take n)
  s.noteDevices job origin (word 0 1) (word 1 1) (BitVec.ofNat 64 (word 0x28 8)) (word 0x26 2)

/-- The first actions of R406 on this device: the job's chains end, its queues are FROZEN, and its uncommitted training step, its
counts and its stash are discarded. -/
def stopJob (s : State) (id : Nat) : State :=
    let s1 := (s.queues.filter fun q : CmdQueue => q.job == id).foldl (emptyStash false) s
    let s1 := s1.endChains (fun c => c.job == id) .fault
    let s2 := { s1 with
      judges := s1.judges.map fun (x : Judge) => { x with pending := x.pending.filter fun c => c.packet.job.toNat != id }
      queues := s1.queues.map fun (q : CmdQueue) => if q.job == id then freezeQueue q else q }
    s2.modJob id fun x =>
      { x with
        watch := {}, digest := 0, ownDigests := [], twinDigests := [], ckptRequested := false, updateArmed := false, skipping := false, faultStep := false }

/-- The actions of R406 on this device, with the number of the fault record that the event names. What is known of failed devices
stays. -/
def haltJob (s : State) (id number : Nat) : State :=
  match s.job? id with
  | none => s
  | some j =>
    let s1 := s.stopJob id
    let s2 : State := { s1 with restarts := s1.restarts + 1 }
    let s3 := s2.modJob id fun x =>
      { x with
        phase := .restarting
        restart :=
          { fault := number, smallest := s.startSerial j, changedAt := s.now, blames := j.restart.blames, failed := j.restart.failed
            answers := j.restart.answers.filter fun a => j.restart.failed.contains a.1 } }
    ((s3.tellCores id 1 0).floodSerial id).postJob .jobRestarting j j.step (toLe 8 number)

/-- A fault that affects a job: halted unless a restart has not passed event 2 yet, which the coordinator's question follows, or
it is held (R414, R415). DEDUCED, log 78. -/
def faultJob (s : State) (id number : Nat) : State :=
  match s.job? id with
  | none => s
  | some j =>
    match j.phase with
    | .running => s.haltJob id number
    | .restarting => if j.restart.askedAt.isSome then s.haltJob id number else s
    | .held _ => s

/-- Hold a job: its queues stay FROZEN and JOB_HELD names the cause (R414). -/
def holdJob (s : State) (id cause : Nat) : State :=
  match s.job? id with
  | none => s
  | some j =>
    let s0 := if j.phase = .running then s.stopJob id else s
    let s1 : State := { s0 with jobsHeld := s0.jobsHeld + 1 }
    (s1.modJob id fun x => { x with phase := .held cause }).postJob .jobHeld j j.step (toLe 2 cause)

/-- The bytes of a restore-point notice after its value: the cause where the job is held instead, then pairs of serials. -/
def restoreMore (held : Option Nat) (pairs : List (W64 × W64)) : List Byte :=
  toLe 8 (match held with
    | some c => c + 1
    | none => 0) ++ pairs.flatMap fun p => toLe 8 p.1.toNat ++ toLe 8 p.2.toNat

/-- Hold a job on every device of the job (R22, R414). -/
def holdAll (s : State) (id cause : Nat) : State := (s.flood id .restorePoint 0 (restoreMore (some cause) [])).holdJob id cause

/-! ### Units (R22, R28, R29, R410) -/

/-- The compute die of a physical heat (R23). -/
def dieOf (p : Nat) : Nat := p / 52

/-- The lowest SPARE heat of a die. -/
def spareOf (m : UnitMap) (d : Nat) : Option Nat :=
  (List.range' (52 * d) 52).find? fun p => m.state[p]? == some HeatState.spare

def spareCount (m : UnitMap) (d : Nat) : Nat :=
  ((List.range' (52 * d) 52).filter fun p => m.state[p]? == some HeatState.spare).length

/-- The device becomes unfit: it runs no job, and the jobs it holds are halted; a job without an enrolled spare is held
on every device with cause 0 (R22). Before READY the state and the event follow at the end of bring-up (R548). -/
def becomeUnfit (s : State) (number : Nat) : State :=
  if s.unfit then s
  else
    let s0 := ({ s with unfit := true } : State).raiseAlert 2
    let s1 := if s.dev = .ready then ({ s0 with dev := .unfit } : State).postDevice .unfit [] else s0
    s1.jobs.foldl (fun s j =>
      let s2 := s.faultJob j.id number
      if j.spares.isEmpty then s2.holdAll j.id 0 else s2) s1

/-- Retire a physical heat: it is marked RETIRED, its logical number moves to the lowest SPARE heat of its die, and both
copies of the unit map are written (R28). A SPARE heat carries no logical heat (R392). Without a SPARE heat the number stays
(R29, DEDUCED, log 46). -/
def retireHeat (m : UnitMap) (p : Nat) : UnitMap :=
  match m.state[p]? with
  | some .active =>
    match spareOf m (dieOf p) with
    | some sp =>
      { state := (m.state.set p .retired).set sp .active
        phys := m.phys.map fun x => if x = p then sp else x
        gen := m.gen + 1 }
    | none => { m with state := m.state.set p .retired, gen := m.gen + 1 }
  | some .spare => { m with state := m.state.set p .retired, gen := m.gen + 1 }
  | _ => m

/-- The bytes of a unit map, as the registers of R34 lay it out: states, physical numbers, generation. DEDUCED, log 100. -/
def mapBytes (m : UnitMap) : List Byte :=
  m.state.map (fun x => BitVec.ofNat 8 (x.code <<< 6)) ++ m.phys.map (BitVec.ofNat 8 ·) ++ toLe 4 m.gen

/-- A copy of the unit map as it is written (R24). -/
def mapCopy (m : UnitMap) : MapCopy := { map := m, crc := crc32c (mapBytes m) }

/-- The unit map that a reset loads: the copy with the higher generation count whose CRC is valid (R28); with none, what is in
use. DEDUCED, log 137. -/
def loadMap (s : State) : UnitMap :=
  ((s.mapCopies.filter fun c => crc32c (mapBytes c.map) == c.crc).foldl (fun (best : Option UnitMap) c =>
    match best with
    | some b => if b.gen < c.map.gen then some c.map else best
    | none => some c.map) none).getD s.unitMap

/-- The cluster stores of a logical heat are those of another physical heat: what the failed one held is not carried over (R31). -/
def freshStores (s : State) (h : Nat) : State :=
  { s with mem := s.mem.without (clusterBase + 8 * h * 0x10_0000) (8 * 0x10_0000) }

/-- A new unit map is in use, and both copies of it are written. -/
def writeMap (s : State) (m : UnitMap) : State := { s with unitMap := m, mapCopies := [mapCopy m, mapCopy m] }

/-- Retire a physical heat: the unit map, both its copies, and the stores of the logical heat that moves (R28, R31). -/
def retireUnit (s : State) (p : Nat) : State :=
  let m := retireHeat s.unitMap p
  let s1 := s.writeMap m
  match s.unitMap.phys.findIdx? fun x => x == p with
  | some h => if m.phys.getD h p = p then s1 else s1.freshStores h
  | none => s1

/-- Whether a heat carries a logical heat that no SPARE heat of its die can take (R29). DEDUCED, log 46. -/
def lacksSpare (m : UnitMap) (p : Nat) : Bool := m.state[p]? == some .active && (spareOf m (dieOf p)).isNone

/-- Whether a fault of a unit makes the device unfit (R21, R410): a host core, a stack, a partner port or the hub with its bridges;
a fault of the pair port only breaks the pair. -/
def unfitUnit (cls index : Nat) : Bool := cls == 2 || cls == 3 || (cls == 4 && index != 6) || cls == 6

/-- The physical heat that a fault names: of a heat, or of a cluster (R397). -/
def heatOfUnit (cls index : Nat) : Option Nat :=
  if cls = 0 then some index else if cls = 1 then some (index / 8) else none

/-- A stack is lost: the generations of the jobs whose set it holds are complete on the twin only (R301). -/
def loseStack (s : State) (st : Nat) : State :=
  { s with jobs := s.jobs.map fun j =>
      if j.ranges.any fun r => stackOf r.base == st then
        { j with gens := j.gens.map fun g =>
            if g.state = .released then g
            else { g with lostLocal := true, state := if g.state = .shadowed then .lostLocal else g.state } }
      else j }

/-- A fault of a job: the notice to its devices, what the record says of them, and the halt (R406). -/
def faultNotify (rec_ : List Byte) (number : Nat) (s : State) (j : Nat) : State :=
  ((s.originate j .fault number 0 rec_).noteRecord j s.serial rec_).faultJob j number

/-- A fault detected on this device: the outcome of R410 and R397, the record, the retirement or the unfit state, and for the
job that it affects, or every job where the device becomes unfit, the notice and the halt (R22, R406). `retire` says whether the
fault is laid to the unit itself. -/
def detect (s : State) (retire : Bool) (f : FaultInfo) : State :=
  let heat := if retire then heatOfUnit f.cls f.index else none
  let bad := retire && (unfitUnit f.cls f.index || heat.any (lacksSpare s.unitMap))
  let outcome : FaultOutcome :=
    if bad then .unfit
    else if heat.isSome then .retired
    else if f.job.isSome then .restarts
    else .noJob
  let f := { f with outcome := outcome }
  let rec_ := s.faultRecord f
  let s0 := if f.cls = 3 ∧ (f.mech = Mech.poisonRead.code ∨ f.mech = Mech.eccUe.code) then s.countUe f.index f.addr else s
  let s1 := s0.recordFault f
  let number := s1.faultsEver
  let s1 := if bad && f.cls == UnitClass.stack.code then s1.loseStack f.index else s1
  let s1 : State := if bad && f.cls == UnitClass.hostCore.code then { s1 with retiredCores := s1.retiredCores ++ [f.index] } else s1
  let s2 := (heat.map s1.retireUnit).getD s1
  let js := if bad && !s.unfit then s2.jobs.map Job.id else f.job.toList
  let s3 := js.foldl (faultNotify rec_ number) s2
  if bad then s3.becomeUnfit number else s3

end State

end Sys2Proof.Machine
end

