-- ==== Sys2Proof/Machine/Queues.lean ====
section
/-! DEFINITION. Command queues: the slot (R195 to R199), the checks common to all macro-ops, completion and its records
(R203 to R205), debug breaks (R261, R262), and the run of one macro-op. -/

namespace Sys2Proof.Machine

/-! ### The slot -/

/-- A 64-byte slot as one little-endian number: bit 8 · o is bit 0 of byte o. -/
abbrev Slot := Nat

namespace Slot

def opcode (w : Slot) : Nat := bitsAt w 0 12
def cpl (w : Slot) : Bool := bitAt w 13
def evt (w : Slot) : Bool := bitAt w 14
def tag (w : Slot) : Nat := bitsAt w 16 16
def sA (w : Slot) : Nat := bitsAt w 32 6
def sB (w : Slot) : Nat := bitsAt w 38 6
def sC (w : Slot) : Nat := bitsAt w 44 6
def sD (w : Slot) : Nat := bitsAt w 50 6
/-- Tensor handle i. -/
def handle (w : Slot) (i : Nat) : Nat := bitsAt w (64 + 24 * i) 24
def placeMode (w : Slot) : Nat := bitsAt w 208 2
def placeFirst (w : Slot) : Nat := bitsAt w 210 10
def placeCount (w : Slot) : Nat := bitsAt w 220 7
def placeReserved (w : Slot) : Nat := bitsAt w 227 13
/-- `n` bits from bit `b` of the operand byte at offset `o`. -/
def operand (w : Slot) (o b n : Nat) : Nat := bitsAt w (8 * o + b) n

end Slot

def noHandle : Nat := 0xFF_FFFF

/-- The opcodes of R199. -/
inductive Op where
  | nop | load | store | copy | convert | fill | gather | scatter | rng
  | gemm | bgemm | bwd2 | ewise | stencil | reduce | argred | norm | normb | smax | smaxb
  | scal | br | lap | endlap | wait | signal | hurdle | trig | phase | stash | unstash | ckpt | commit | tag | fence
  | halt
  deriving DecidableEq, Repr

def Op.code : Op → Nat
  | .nop => 0 | .load => 0x101 | .store => 0x102 | .copy => 0x103 | .convert => 0x104 | .fill => 0x105
  | .gather => 0x106 | .scatter => 0x107 | .rng => 0x108 | .gemm => 0x201 | .bgemm => 0x202 | .bwd2 => 0x203
  | .ewise => 0x204 | .stencil => 0x205 | .reduce => 0x206 | .argred => 0x207 | .norm => 0x208 | .normb => 0x209
  | .smax => 0x20A | .smaxb => 0x20B | .scal => 0x301 | .br => 0x302 | .lap => 0x303 | .endlap => 0x304
  | .wait => 0x305 | .signal => 0x306 | .hurdle => 0x307 | .trig => 0x308 | .phase => 0x309 | .stash => 0x30A
  | .unstash => 0x30B | .ckpt => 0x30C | .commit => 0x30D | .tag => 0x30E | .fence => 0x30F | .halt => 0x310

/-- Whether an opcode is in the table of R199. -/
def opcodeDefined (c : Nat) : Bool :=
  c == 0 || (0x101 ≤ c && c ≤ 0x108) || (0x201 ≤ c && c ≤ 0x20B) || (0x301 ≤ c && c ≤ 0x310)

/-- The handle slots, scalar references and operand fields that an opcode uses: each operand field by byte offset, bit
and width (R198). -/
structure FieldMap where
  handles : List Nat := []
  sA : Bool := false
  sB : Bool := false
  sC : Bool := false
  sD : Bool := false
  operands : List (Nat × Nat × Nat) := []
  deriving DecidableEq, Repr

/-- A failed check: its status, and the handle slot of the tensor concerned (R201, R204). -/
abbrev Fail := Status × Option Nat

/-- One check. -/
def need (ok : Bool) (st : Status) (h : Option Nat := none) : List Fail := if ok then [] else [(st, h)]

/-- The failure reported: the lowest status, and of those the first handle slot (R201). DEDUCED, log 30. -/
def worst : List Fail → Option Fail
  | [] => none
  | f :: fs =>
    match worst fs with
    | none => some f
    | some g =>
      if f.1.code < g.1.code then some f
      else if g.1.code < f.1.code then some g
      else some (f.1, match f.2, g.2 with
        | some a, some b => some (min a b)
        | some a, none => some a
        | none, b => b)

/-- The operand bits outside the fields named. -/
def unusedOperands (w : Slot) (fs : List (Nat × Nat × Nat)) : Nat :=
  let used := fs.foldl (fun acc (o, b, n) => acc ||| (2 ^ n - 1) <<< (8 * o + b)) 0
  -- operand bytes 0x1E to 0x3F
  (w >>> 240) - ((w >>> 240) &&& (used >>> 240))

/-- The checks of R198: unused handle slots, unused scalar references and reserved bits. -/
def fieldChecks (w : Slot) (m : FieldMap) : List Fail :=
  need ((List.range 6).all fun i => m.handles.contains i || w.handle i == noHandle) .badOperand ++
    need (!bitAt w 12 && !bitAt w 15 && bitsAt w 56 8 == 0) .badOperand ++
    need ((m.sA || w.sA == 0) && (m.sB || w.sB == 0) && (m.sC || w.sC == 0) && (m.sD || w.sD == 0)) .badOperand ++
    need (unusedOperands w m.operands == 0) .badOperand

/-- The fields of the place word that stand for themselves (R196). -/
def placeFieldsOk (w : Slot) : Bool :=
  w.placeReserved == 0 &&
    match w.placeMode with
    | 0 => w.placeFirst == 0 && w.placeCount == 0
    | 1 => decide (1 ≤ w.placeCount) && decide (w.placeCount ≤ 100)
    | 2 => w.placeCount == 0
    | _ => false

/-- Whether a team holds a logical heat. -/
def teamHas (team : BitVec 128) (h : Nat) : Bool := decide (h < 100) && team.getLsbD h

/-- The units that a place names lie in the logical range and in the team (R197). -/
def placeUnitsOk (w : Slot) (team : BitVec 128) : Bool :=
  match w.placeMode with
  | 1 => (List.range w.placeCount).all fun i => teamHas team (w.placeFirst + i)
  | 2 => decide (w.placeFirst < 800) && teamHas team (w.placeFirst / 8)
  | _ => true

/-- The checks on the place word of a data or compute macro-op; a place that fails its own checks names no units
(R201). -/
def placeChecks (w : Slot) (team : BitVec 128) : List Fail :=
  if placeFieldsOk w then need (placeUnitsOk w team) .badUnit else [(.badOperand, none)]

/-- Control macro-ops carry place 0 (R196). -/
def controlPlace (w : Slot) : List Fail := need (bitsAt w 208 32 == 0) .badOperand

/-- The cluster that runs work unit u of a placement (R214). -/
def unitCluster (cs : List Nat) (u : Nat) : Nat := cs.getD (u % cs.length) 0

/-- The clusters of a placement, ascending (R196, R214). -/
def placeClusters (w : Slot) (team : BitVec 128) : List Nat :=
  match w.placeMode with
  | 1 => (List.range w.placeCount).flatMap fun i => (List.range 8).map fun k => 8 * (w.placeFirst + i) + k
  | 2 => [w.placeFirst]
  | _ => ((List.range 100).filter (teamHas team)).flatMap fun h => (List.range 8).map fun k => 8 * h + k

/-- What a macro-op runs with: its queue, its job, its slot and its position. -/
structure Cmd where
  q : CmdQueue
  job : Job
  slot : Slot
  pos : W64
  deriving DecidableEq, Repr

def Cmd.reg (c : Cmd) (i : Nat) : W64 := c.q.sregs.getD i 0

/-- How a macro-op ends. -/
inductive Res where
  /-- Completed with OK at the next position: the state, count_a, count_b. -/
  | ok (s : State) (a b : Nat)
  /-- Completed with OK, the queue going on at the position given. -/
  | jump (s : State) (next : W64)
  /-- A start check failed: nothing was written. -/
  | fail (st : Status) (h : Option Nat)
  /-- The queue waits. -/
  | wait (s : State) (w : Wait)
  /-- HALT completed. -/
  | halt (s : State)
  /-- A detected fault met the command: mechanism, unit class and index, address. -/
  | fault (s : State) (mech cls index addr : Nat)

namespace State

/-! ### Positions -/

/-- The recorded position of a queue in the newest generation of its job (R190). -/
def genPosition (j : Job) (q : Nat) : Option W64 :=
  match (liveGens j).getLast? with
  | some g => (g.committed.find? fun c => c.1 == q).map fun c => c.2.position
  | none => none

/-- The first body position of the outermost open Lap. -/
def lapFloor (q : CmdQueue) : Option W64 := (q.laps.getLast?).map fun l => l.pos + 1

/-- `qw.free` (R190). -/
def qwFree (s : State) (q : CmdQueue) : W64 :=
  let g := (s.job? q.job).bind fun j => genPosition j q.id
  let least (a : W64) (b : Option W64) : W64 :=
    match b with
    | some x => if x.toNat < a.toNat then x else a
    | none => a
  least (least q.pos g) (lapFloor q)

/-- Whether a command is available at the queue's next position. -/
def available (q : CmdQueue) : Bool :=
  q.next != q.write && decide ((q.write - q.next).toNat < 2 ^ 63)

/-- RUNNING where a command is available, else IDLE (R186). -/
def readyState (q : CmdQueue) : QState := if available q then .running else .idle

/-- The slot at a position (R185). -/
def slotAddr (q : CmdQueue) (pos : W64) : Nat := q.base + (pos.toNat % q.slots) * 0x40

def slotAt (s : State) (q : CmdQueue) (pos : W64) : Slot := s.read (slotAddr q pos) 64

/-! ### Completion (R203 to R205) -/

/-- The 32 bytes of a completion record (R204); `head` is the slot's first word. A COMMIT completes after action 5 of R254, so its
record holds the number after it (DEDUCED, log 42). -/
def completionRecord (s : State) (q : CmdQueue) (head : Nat) (pos : W64) (st : Status) (a b : Nat) : List Byte :=
  toLe 2 q.id ++ toLe 2 (bitsAt head 16 16) ++ toLe 2 (bitsAt head 0 12) ++ toLe 2 st.code ++
    toLe 4 (s.stepOf (some q.job)) ++ toLe 4 0 ++ toLe 8 pos.toNat ++ toLe 4 (min a 0xFFFFFFFF) ++
    toLe 4 (min b 0xFFFFFFFF)

/-- Whether a completion writes a record: cpl with OK, or any status that stops or halts (R204). DEDUCED, log 32. -/
def writesRecord (head : Nat) (st : Status) : Bool := bitAt head 13 || st != .ok

/-- The queue after a completion. -/
def doneQueue (q : CmdQueue) (d : Done) : CmdQueue :=
  match d.status with
  | .ok =>
    let q1 := { q with
      pos := d.next, next := d.next, count := q.count + 1, wait := .none, status := 0, resumedAt := none
      lastOpcode := bitsAt q.cur.toNat 0 12, lastTag := bitsAt q.cur.toNat 16 16 }
    { q1 with state := readyState q1 }
  | .halted =>
    { q with
      pos := d.next, next := d.next, count := q.count + 1, wait := .none, status := Status.halted.code
      state := .halted, resumedAt := none
      lastOpcode := bitsAt q.cur.toNat 0 12, lastTag := bitsAt q.cur.toNat 16 16 }
  | st => { q with state := .stopped, status := st.code, wait := .none, next := q.pos }

/-- The event that follows a completion (R195, R203, R260). -/
def doneEvent (head : Nat) (st : Status) : Option Ev :=
  match st with
  | .ok => if bitAt head 14 then some .commandDone else none
  | .halted => some .queueHalted
  | _ => some .queueStopped

/-- The lead of a team: its lowest-numbered logical heat (R192). -/
def leadHeat (team : BitVec 128) : Nat := ((List.range 100).find? (teamHas team)).getD 0

/-- The counters of the lead's sequencer: commands completed and decode failures (R421). -/
def countHeat (s : State) (team : BitVec 128) (st : Status) : State :=
  let f (c : HeatCount) : HeatCount :=
    if st == .ok || st == .halted then { c with commands := c.commands + 1 } else { c with failures := c.failures + 1 }
  { s with heats := s.heats.modify (leadHeat team) f }

/-- The poisoned line that a command's completion record would go to (R272). -/
def recordLine (s : State) (q : CmdQueue) (st : Status) : Option Nat :=
  if writesRecord q.cur.toNat st then (s.ring? q.cq).bind s.ringLine else none

/-- Finish a command: its record, the queue's new position and state, its event. `q.cur` is the slot's first word. A poisoned
line where the record goes makes it a detected fault. -/
def finish (s : State) (q : CmdQueue) (d : Done) : State :=
  match s.recordLine q d.status with
  | some l =>
    s.detect false
      { mech := Mech.poisonRead.code, cls := 3, index := stackOf l, job := some q.job, queue := some q.id, addr := l }
  | none =>
  let head := q.cur.toNat
  let rec_ := s.completionRecord q head q.pos d.status d.countA d.countB
  let s1 := match s.ring? q.cq with
    | some r => if writesRecord head d.status then s.ringPut r rec_ else s
    | none => s
  let s2 := (s1.setQueue (doneQueue q d)).countHeat q.team d.status
  match doneEvent head d.status with
  | some e => s2.postRecord [q.eq] false
      (s2.eventRecord e (some q.job) (some q.id) (bitsAt head 16 16) (s2.stepOf (some q.job)) rec_)
  | none => s2

/-- Whether a completion must wait for its completion queue (R205). -/
def cqBlocked (s : State) (q : CmdQueue) (st : Status) : Bool :=
  writesRecord q.cur.toNat st &&
    match s.ring? q.cq with
    | some r => s.ringFull r
    | none => false

/-- Complete a command, or hold it in WAIT_CQ (R205): one that goes on has been decoded, so `qw.next` is past it. DEDUCED, log
18. DEDUCED, log 18. -/
def complete (s : State) (q : CmdQueue) (d : Done) : State :=
  if s.cqBlocked q d.status then s.setQueue { q with state := .waitCq, wait := .cq d, next := d.next }
  else s.finish q d

/-- The status and counts of a command that fails (R203, R204). -/
def failDone (q : CmdQueue) (st : Status) (h : Option Nat) : Done :=
  let tied := st == .badHandle || st == .badDesc || st == .noperm || st == .decerr
  { status := st, next := q.pos, countA := if tied then h.getD 0xFFFFFFFF else 0, countB := 0 }

/-! ### Debug breaks (R261, R262) -/

/-- The lowest break slot that fires before the command with this tag. -/
def breakHit (q : CmdQueue) (tag : Nat) : Option Nat :=
  (List.range 4).find? fun i =>
    match q.breaks[i]? with
    | some b =>
      match b.kind with
      | .off => false
      | .count => q.count == b.value
      | .tag => q.resumedAt != some q.next && (BitVec.ofNat 16 tag &&& b.mask) == (b.value.setWidth 16 &&& b.mask)
    | none => false

/-- A break fires: the queue enters HALTED with status BREAK; a COUNT slot becomes OFF (R262). -/
def fireBreak (s : State) (q : CmdQueue) (i : Nat) (tag : Nat) : State :=
  let b := q.breaks.getD i {}
  let q1 := { q with
    state := .halted, status := Status.break_.code
    breaks := if b.kind = .count then q.breaks.set i { b with kind := .off } else q.breaks }
  (s.setQueue q1).postQueue .break_ q tag (toLe 1 i)

/-! ### Running a macro-op -/

/-- Whether the device runs this job's commands: not while it is unfit, has lost its crystal or its Starter, or the job is
halted (R20, R22, R406, R524). -/
def runsJob (s : State) (j : Job) : Bool := !s.unfit && !s.starter.stopped && s.power.rails && s.pacer.state != 2 && j.phase == .running

/-- Whether a queue has a command to run. DESIGN CHOICE, log 14. -/
def queueReady (q : CmdQueue) : Bool := q.state == .running && available q

/-- What follows a macro-op's body. -/
def settleRes (c : Cmd) (q : CmdQueue) : Res → State → State
  | .ok s a b, _ => match s.queue? q.id with
    | some q1 => s.complete q1 { status := .ok, next := q1.pos + 1, countA := a, countB := b }
    | none => s
  | .jump s next, _ => match s.queue? q.id with
    | some q1 => s.complete q1 { status := .ok, next := next, countA := 0, countB := 0 }
    | none => s
  | .fail st h, s => s.complete q (failDone q st h)
  | .wait s w, _ => match s.queue? q.id with
    | some q1 => s.setQueue { q1 with state := .waiting, wait := w, next := q1.pos + 1 }
    | none => s
  | .halt s, _ => match s.queue? q.id with
    | some q1 => s.complete q1 { status := .halted, next := q1.pos + 1, countA := 0, countB := 0 }
    | none => s
  | .fault s mech cls index addr, _ =>
    s.detect false { mech := mech, cls := cls, index := index, job := some c.job.id, queue := some q.id, addr := addr }

/-- Decode checks, then the body, of the command in hand (R201 to R203). DESIGN CHOICE, log 15. -/
def runCmd (c : Cmd) (q : CmdQueue) (chk : Cmd → State → List Fail) (body : Cmd → State → Res) (s : State) : State :=
  match worst (chk c s) with
  | some (st, h) => s.complete q (failDone q st h)
  | none => settleRes c q (body c s) s

/-- The handles of a slot that name descriptors. -/
def namedBy (j : Job) (w : Slot) : List Nat :=
  if w.opcode = 0 ∨ !opcodeDefined w.opcode then []
  else ((List.range 6).map w.handle).filter fun h => h != noHandle && decide (h < j.descEntries)

/-- The poisoned line that the slot or a descriptor of the command lies in (R272). -/
def cmdPoison (s : State) (q : CmdQueue) (j : Job) (w : Slot) : Option Nat :=
  s.poisoned.find? fun l =>
    (decide (l < slotAddr q q.next + 64) && decide (slotAddr q q.next < l + 256)) ||
      (namedBy j w).any fun h => decide (l < j.descBase + h * 0x40 + 64) && decide (j.descBase + h * 0x40 < l + 256)

/-- The work units of a command have run, numbered from 0, on the clusters of its placement (R214). -/
def ranUnits (s : State) (c : Cmd) (n : Nat) : State :=
  let cs := placeClusters c.slot c.q.team
  { s with worked := (s.worked ++ (List.range (min n cs.length)).map (unitCluster cs)).eraseDups }

/-- The reads of a queue's own, of its slot and of the descriptors that the slot names, recall dirty host-core blocks (R290). -/
def fetched (s : State) (q : CmdQueue) (j : Job) (w : Slot) : State :=
  (slotAddr q q.next :: (namedBy j w).map fun h => j.descBase + h * 0x40).foldl (fun s a => s.recallBlocks a 64) s

/-- One macro-op row on a queue: nothing where the queue has no command for it, a break where one fires, a stop at a
reserved opcode, and otherwise the checks and the body. `mine` tells this row's slots (DESIGN CHOICE, log 14). -/
def runMacro (mine : Slot → Bool) (chk : Cmd → State → List Fail) (body : Cmd → State → Res) (qid : Nat) (s : State) : State :=
  match s.queue? qid with
  | none => s
  | some q =>
    match s.job? q.job with
    | none => s
    | some j =>
      if !queueReady q || !s.runsJob j then s
      else
        let w := s.slotAt q q.next
        match breakHit q w.tag with
        | some i => s.fireBreak q i w.tag
        | none =>
          let q1 := { q with cur := BitVec.ofNat 32 w }
          match s.cmdPoison q j w with
          | some l =>
            s.detect false { mech := Mech.poisonRead.code, cls := 3, index := stackOf l, job := some j.id, queue := some qid
                             addr := l }
          | none =>
            if !opcodeDefined w.opcode then s.complete q1 (failDone q1 .badOpcode none)
            else if !mine w then s
            else ((s.fetched q j w).setQueue q1).runCmd { q := q1, job := j, slot := w, pos := q1.next } q1 chk body

/-- The slots of one opcode. DESIGN CHOICE, log 14. -/
def isOp (o : Op) (w : Slot) : Bool := w.opcode == o.code

end State

end Sys2Proof.Machine
end

