-- ==== Sys2Proof/Machine/Watch.lean ====
section
/-! DEFINITION. The watch: counts of conversions by tensor and by format (R84 to R87), and the records of a training
step (R88 to R93). -/

namespace Sys2Proof.Machine

namespace WatchSide

/-- Add one element with its outcome; `v` is its source value after R45. -/
def add (w : WatchSide) (o : Outc) (v : Num) (flushed : Bool) : WatchSide :=
  let w1 := { w with total := w.total + 1 }
  let w2 : WatchSide := match o with
    | .nonfinite => { w1 with nonfinite := w.nonfinite + 1 }
    | .zero => { w1 with zero := w.zero + 1 }
    | .vanished => { w1 with vanished := w.vanished + 1 }
    | .overflowed => { w1 with overflowed := w.overflowed + 1 }
    | .saturated => { w1 with saturated := w.saturated + 1 }
    | .ordinary => w1
  if flushed || !v.isFinite || v.isZero then w2
  else
    let e := v.topExp
    { w2 with
      emax := some (match w.emax with
        | some x => max x e
        | none => e)
      emin := some (match w.emin with
        | some x => min x e
        | none => e) }

end WatchSide

/-- Keys are ordered by handle, then format code, then kind code (R87). -/
def WatchKey.lt (a b : WatchKey) : Bool :=
  decide (a.handle < b.handle) ||
    (a.handle == b.handle && (decide (a.fmt < b.fmt) || (a.fmt == b.fmt && decide (a.kind < b.kind))))

namespace Watch

/-- Insert a new key in order. -/
def insertEntry (e : WatchEntry) : List WatchEntry → List WatchEntry
  | [] => [e]
  | x :: xs => if e.key.lt x.key then e :: x :: xs else x :: insertEntry e xs

/-- Take a key in under R87: with room, or in place of the highest key where it is lower. -/
def enrolKey (w : Watch) (k : WatchKey) : Watch :=
  if w.entries.any fun e => e.key == k then w
  else if w.entries.length < 4096 then { w with entries := insertEntry { key := k } w.entries }
  else
    match w.entries.getLast? with
    | some h =>
      if k.lt h.key then { w with entries := insertEntry { key := k } w.entries.dropLast, full := true }
      else { w with full := true }
    | none => w

/-- Count an element at a tensor's key. -/
def touch (w : Watch) (k : WatchKey) (store : Bool) (o : Outc) (v : Num) (fl : Bool) : Watch :=
  let w1 := w.enrolKey k
  { w1 with entries := w1.entries.map fun e =>
      if e.key == k then (if store then { e with st := e.st.add o v fl } else { e with ld := e.ld.add o v fl }) else e }

/-- The summary of a format, made where the step has none yet, changed by `f`. -/
def modSum (f : FmtSummary → FmtSummary) (c : Nat) : List FmtSummary → List FmtSummary
  | [] => [f { fmt := c }]
  | x :: xs => if c = x.fmt then f x :: xs else if c < x.fmt then f { fmt := c } :: x :: xs else x :: modSum f c xs

def sumStore (w : Watch) (f : Fmt) (o : Outc) (v : Num) (fl : Bool) : Watch :=
  { w with sums := modSum (fun x => { x with st := x.st.add o v fl }) f.code w.sums }

def sumLoad (w : Watch) (f : Fmt) (o : Outc) (v : Num) (fl : Bool) : Watch :=
  { w with sums := modSum (fun x => { x with ld := x.ld.add o v fl }) f.code w.sums }

/-- An arithmetic result flushed outside a conversion (R85). -/
def arith (w : Watch) (f : Fmt) : Watch :=
  { w with sums := modSum (fun x => { x with arith := x.arith + 1 }) f.code w.sums }

/-! ### Records (R89, R90) -/

def max64 : Nat := 2 ^ 64 - 1

def expBytes (e : Option Int) : List Byte :=
  match e with
  | some x => toLe 2 (unsignedOf 16 x)
  | none => toLe 2 0x8000

def sideBytes (w : WatchSide) : List Byte :=
  [w.total, w.zero, w.vanished, w.saturated, w.overflowed, w.nonfinite].flatMap fun n => toLe 8 (min n max64)

def stopped (w : WatchSide) (arith : Nat) : Bool :=
  [w.total, w.zero, w.vanished, w.saturated, w.overflowed, w.nonfinite, arith].any fun n => decide (max64 < n)

/-- The 128 bytes of a record. -/
def record (type handle kind fmt job step : Nat) (warm skipped full : Bool) (st ld : WatchSide) (arith : Nat) : List Byte :=
  let flag (b : Bool) (n : Nat) : Nat := if b then n else 0
  toLe 4 (type <<< 24 ||| handle) ++ toLe 4 (kind <<< 14 ||| fmt <<< 10 ||| job) ++ toLe 4 step ++
    toLe 2 (flag warm 1 + flag skipped 2 + flag full 4 + flag (stopped st arith || stopped ld 0) 8) ++ toLe 2 0 ++
    sideBytes st ++ sideBytes ld ++ expBytes st.emax ++ expBytes st.emin ++ expBytes ld.emax ++ expBytes ld.emin ++
    toLe 8 (min arith max64)

/-- The records of a step in the order of R90: summaries by format code, then watch records by key. -/
def records (w : Watch) (job step : Nat) (warm skipped : Bool) : List (List Byte) :=
  w.sums.map (fun x => record 2 0xFF_FFFF 0 x.fmt job step warm skipped w.full x.st x.ld x.arith) ++
    w.entries.map fun e => record 1 e.key.handle e.key.kind e.key.fmt job step warm skipped false e.st e.ld 0

end Watch

namespace State

/-- Write a job's records at its COMMIT, or count them lost (R90, R92, R93); none where a poisoned line lies in their place (R272).
DESIGN CHOICE, log 134. -/
def writeWatch (s : State) (j : Job) (skipped : Bool) : State :=
  let recs := j.watch.records j.id j.step (decide (0 < j.lap)) skipped
  if j.watchSlots = 0 ∨ recs.isEmpty then s
  else
    let w := s.read64 j.watchBase
    let used := (w - s.read64 (j.watchBase + 8)).toNat
    let slot (i : Nat) : Nat := j.watchBase + 0x40 + ((w.toNat + i) % j.watchSlots) * 0x80
    match (s.partLine j.watchBase 0x40).or ((List.range recs.length).findSome? fun i => s.partLine (slot i) 0x80) with
    | some l => s.strike l
    | none =>
    if used > j.watchSlots ∨ j.watchSlots - used < recs.length then
      let s1 := s.store64 (j.watchBase + 0x10) (s.read64 (j.watchBase + 0x10) + BitVec.ofNat 64 recs.length)
      s1.postJob .watchLost j j.step (toLe 4 recs.length)
    else
      let s1 := s.storeAll (recs.mapIdx fun i r => (slot i, r))
      s1.store64 j.watchBase (w + BitVec.ofNat 64 recs.length)

end State

end Sys2Proof.Machine
end

