-- ==== Sys2Proof/Machine/Tensors.lean ====
section
/-! DEFINITION. Tensor descriptors (R206 to R213), footprints and their access checks (R35, R155, R212), and the reading
and writing of elements with conversion, block coding and counting (R49 to R71, R84, R569). -/

namespace Sys2Proof.Machine

/-- A tensor descriptor (R207); `w` is its 512 bits. -/
structure Desc where
  handle : Nat
  w : Nat
  deriving DecidableEq, Repr

namespace Desc

def base (d : Desc) : Nat := bitsAt d.w 0 52
def fmtCode (d : Desc) : Nat := bitsAt d.w 52 4
def kind (d : Desc) : Nat := bitsAt d.w 56 4
def rank (d : Desc) : Nat := bitsAt d.w 60 3
def tiled (d : Desc) : Bool := bitAt d.w 63
def blockEn (d : Desc) : Bool := bitAt d.w 64
def blockSize (d : Desc) : Nat := if bitAt d.w 65 then 32 else 16
def variant (d : Desc) : Nat := bitsAt d.w 66 2
def rndEn (d : Desc) : Bool := bitAt d.w 68
def rndMode (d : Desc) : RMode := .ofCode (bitsAt d.w 69 2)
def rndSat (d : Desc) : Bool := bitAt d.w 71
def recomputable (d : Desc) : Bool := bitAt d.w 72
def watched (d : Desc) : Bool := bitAt d.w 73
def tmin (d : Desc) : Bool := bitAt d.w 74
def aux (d : Desc) : Nat := bitsAt d.w 96 32
def mask (d : Desc) : Nat := bitsAt d.w 96 24
/-- Extent of dimension i; 1 at or above the rank. -/
def ext (d : Desc) (i : Nat) : Nat :=
  if d.rank ≤ i then 1
  else if i < 2 then bitsAt d.w (128 + 32 * i) 32
  else bitsAt d.w (192 + 20 * (i - 2)) 20
/-- Stride of dimension i; 0 at or above the rank. -/
def stride (d : Desc) (i : Nat) : Nat := if d.rank ≤ i then 0 else bitsAt d.w (272 + 40 * i) 40

def exts (d : Desc) : List Nat := (List.range 6).map d.ext

def count (d : Desc) : Nat := d.exts.foldl (· * ·) 1

def headers (d : Desc) : Nat := d.base + d.aux * 256

def rule (d : Desc) : BlockRule :=
  match d.variant with
  | 1 => .fit
  | 2 => .headroom
  | _ => .floor

end Desc

/-- The formats that a kind allows (R77). -/
def kindFormats (kind : Nat) : List Fmt :=
  match kind with
  | 0 => [.fp64, .fp32, .fp19, .bf16, .fp16, .fp8e4, .fp8e5, .fp6e3, .fp6e2, .fp4, .int32, .int8, .int4]
  | 1 => [.fp64, .fp32, .fp19, .bf16, .fp16, .fp8e4, .fp8e5, .fp6e3, .fp6e2, .fp4, .int8, .int4]
  | 2 => [.fp32, .fp64]
  | 3 => [.fp32, .fp64]
  | 4 => [.fp32, .fp19, .bf16, .fp16, .fp8e4, .fp8e5, .fp6e3, .fp6e2, .fp4, .int8]
  | 5 => [.fp32, .bf16, .fp16]
  | 6 => [.fp32, .bf16, .fp16]
  | 7 => [.fp32, .bf16, .fp16]
  | 8 => [.fp64, .fp32]
  | 9 => [.fp32, .sce8]
  | 10 => [.int32]
  | 11 => [.int32, .int8, .fp32, .bf16, .fp16]
  | _ => []

/-- Whether the block setting and the variant suit kind and format (R44, R76, R77). -/
def blockOk (kind : Nat) (f : Fmt) (en : Bool) (variant : Nat) : Bool :=
  let narrow := [Fmt.fp6e3, .fp6e2, .fp4].contains f
  let scalable := narrow || [Fmt.fp8e4, .fp8e5, .int8].contains f
  if en then
    scalable && ((kind == 0 && decide (variant < 3)) || (kind == 1 && decide (variant < 2)) || (kind == 4 && decide (variant < 3)))
  else variant == 0 && !narrow && !(scalable && (kind == 1 || kind == 4))

/-- The format in use: FP32 for kind 5 in a warm-up step (R81). -/
def Desc.fmtIn (d : Desc) (warm : Bool) : Fmt :=
  if d.kind = 5 ∧ warm then .fp32 else (Fmt.ofCode d.fmtCode).getD .fp32

/-- The contiguous dimension (R210). -/
def Desc.contig (d : Desc) : Nat :=
  if d.tiled then (if d.tmin then 1 else 0)
  else
    let f := (Fmt.ofCode d.fmtCode).getD .fp32
    let unit := if f.bits < 8 then 0 else f.bits / 8
    if 2 ≤ d.rank ∧ d.stride 1 = unit ∧ d.stride 0 ≠ unit then 1 else 0

/-- The checks of R211. -/
def Desc.ok (d : Desc) : Bool :=
  match Fmt.ofCode d.fmtCode with
  | none => false
  | some f =>
    let dims := (List.range 6).filter (· < d.rank)
    decide (1 ≤ d.rank) && decide (d.rank ≤ 6) && (kindFormats d.kind).contains f &&
      blockOk d.kind f d.blockEn d.variant && (d.kind != 5 || d.tiled) &&
      (!d.blockEn || d.ext d.contig % d.blockSize == 0) &&
      (f.bits != 6 || d.ext d.contig % 4 == 0) &&
      (if d.tiled then d.base % 256 == 0 && d.stride 0 % 256 == 0 && d.stride 1 % 256 == 0
        else if f.bits < 8 then
          (if d.rank = 1 then d.stride 0 == 0 else (d.stride 0 == 0) != (d.stride 1 == 0))
        else d.base % (f.bits / 8) == 0 && dims.all fun i => d.stride i % (f.bits / 8) == 0) &&
      bitsAt d.w 75 21 == 0 && (d.blockEn || bitsAt d.w 120 8 == 0)

namespace State

/-- The descriptor of a handle (R206). -/
def descAt (s : State) (j : Job) (h : Nat) : Desc := { handle := h, w := s.read (j.descBase + h * 0x40) 64 }

/-- Whether a handle names a descriptor of the job (R206). -/
def handleOk (j : Job) (h : Nat) : Bool := h != noHandle && decide (h < j.descEntries)

end State

/-! ### Footprints (R212) -/

/-- An interval of bytes. -/
structure Interval where
  lo : Int
  len : Nat
  deriving DecidableEq, Repr

/-- Whether dimension i is a stack dimension. -/
def Desc.stackDim (d : Desc) (i : Nat) : Bool := d.stride i != 0 && d.stride i % stackStride == 0

/-- Positions along a dimension that its stride counts: tiles for dimensions 0 and 1 of a tiled tensor. -/
def Desc.positions (d : Desc) (i : Nat) : Nat := if d.tiled && i < 2 then ceilDiv (d.ext i) 32 else d.ext i

/-- The dimension that a narrow linear tensor packs (R208). -/
def Desc.packed (d : Desc) (f : Fmt) : Option Nat :=
  if d.tiled || 8 ≤ f.bits then none else if d.stride 0 = 0 then some 0 else some 1

/-- The base interval's length: the last byte over the dimensions that are not stack dimensions. -/
def Desc.baseLen (d : Desc) (f : Fmt) : Nat :=
  let spread := ((List.range 6).filter fun i => !d.stackDim i && d.packed f != some i).map
    fun i => (d.positions i - 1) * d.stride i
  let unit := if d.tiled then (if d.kind = 5 then 4096 else 128 * f.bits)
    else match d.packed f with
      | some i => ceilDiv (d.ext i * f.bits) 8
      | none => f.bits / 8
  spread.sum + unit

/-- The copies of the base interval over the stack dimensions. -/
def Desc.shifts (d : Desc) : List Nat :=
  ((List.range 6).filter d.stackDim).foldl (fun acc i =>
    acc.flatMap fun x => (List.range (d.positions i)).map fun k => x + k * d.stride i) [0]

/-- Blocks of a block-scaled tensor. -/
def Desc.blocks (d : Desc) : Nat := if d.blockEn then d.count / d.blockSize else 0

/-- The footprint without ghost positions (R212). -/
def Desc.footprint (d : Desc) (warm : Bool) : List Interval :=
  if d.count = 0 then []
  else
    let f := d.fmtIn warm
    d.shifts.map (fun x => { lo := ((d.base + x : Nat) : Int), len := d.baseLen f }) ++
      (if d.blockEn then [{ lo := ((d.headers : Nat) : Int), len := 2 * d.blocks }] else [])

def Interval.meets (a b : Interval) : Bool :=
  decide (0 < a.len) && decide (0 < b.len) && decide (a.lo < b.lo + b.len) && decide (b.lo < a.lo + a.len)

/-- Two tensors overlap when any intervals meet (R212). -/
def overlap (a b : List Interval) : Bool := a.any fun x => b.any x.meets

namespace State

/-- The cluster stores that a range touches. -/
def clustersOf (a n : Nat) : List Nat :=
  (List.range' ((a - clusterBase) / 0x10_0000) ((a + n - 1 - clusterBase) / 0x10_0000 - (a - clusterBase) / 0x10_0000 + 1))

/-- What an access by a team's heats to an interval meets: DECERR, NOPERM, or nothing (R35, R212). -/
def teamAccess (s : State) (team : BitVec 128) (i : Interval) : Option Status :=
  if i.len = 0 then none
  else if i.lo < 0 then some .decerr
  else
    let a := i.lo.toNat
    if !oneRegion a i.len then some .decerr
    else
      match regionOf a with
      | .edern _ => if s.inClosed a i.len then some .noperm else none
      | .cluster _ => if (clustersOf a i.len).all fun c => teamHas team (c / 8) then none else some .noperm
      | _ => some .noperm

/-- The failures of a footprint, tied to a handle slot. -/
def accessChecks (s : State) (team : BitVec 128) (is : List Interval) (h : Option Nat) : List Fail :=
  is.filterMap fun i => (s.teamAccess team i).map fun st => (st, h)

/-- The stash region of a job as an interval (R155). -/
def stashRegion (j : Job) : List Interval :=
  if j.stashBytes = 0 then [] else [{ lo := (j.stashBase : Int), len := j.stashBytes }]

end State

/-! ### Elements -/

/-- The bit address of an element whose coordinates may lie outside the extents (R175, R208, R209). -/
def Desc.bitAddrZ (d : Desc) (f : Fmt) (idx : List Int) : Int :=
  let ix (i : Nat) : Int := idx.getD i 0
  let outer := ((List.range' 2 4).map fun i => ix i * (d.stride i : Int)).sum
  if d.tiled then
    let t := Int.fdiv (ix 0) 32 * (d.stride 0 : Int) + Int.fdiv (ix 1) 32 * (d.stride 1 : Int)
    let i := ix 1 % 32
    let j := ix 0 % 32
    let e := if d.tmin then 32 * j + i else 32 * i + j
    8 * ((d.base : Int) + t + outer) + e * f.bits
  else
    match d.packed f with
    | some p => 8 * ((d.base : Int) + outer + ix (1 - p) * (d.stride (1 - p) : Int)) + ix p * f.bits
    | none => 8 * ((d.base : Int) + outer + ix 0 * (d.stride 0 : Int) + ix 1 * (d.stride 1 : Int))

def Desc.bitAddr (d : Desc) (f : Fmt) (idx : List Nat) : Nat := (d.bitAddrZ f (idx.map fun (n : Nat) => (n : Int))).toNat

/-- Coordinates of the k-th element with dimension 0 fastest. -/
def unrank (exts : List Nat) (k : Nat) : List Nat :=
  match exts with
  | [] => []
  | e :: es => k % e :: unrank es (k / e)

/-- Every coordinate tuple, dimension 0 fastest. -/
def allIdx (exts : List Nat) : List (List Nat) := (List.range (exts.foldl (· * ·) 1)).map (unrank exts)

/-- The tile number in tiled order (R181) and the position 32 · i + j (R53) of an element, for any layout. -/
def Desc.tileOf (d : Desc) (idx : List Nat) : Nat × Nat :=
  let i0 := idx.getD 0 0
  let i1 := idx.getD 1 0
  let t0 := ceilDiv (d.ext 0) 32
  let t1 := ceilDiv (d.ext 1) 32
  let outer := (List.range' 2 4).foldr (fun i acc => idx.getD i 0 + d.ext i * acc) 0
  (i0 / 32 + t0 * (i1 / 32 + t1 * outer), 32 * (i1 % 32) + i0 % 32)

/-- The number of a block's header: blocks in the order in which their first elements occur in the element layout, which along
the contiguous dimension 1 runs i0-major (R65, R209; DEDUCED, log 23). `idx` is any element of the block. -/
def Desc.headerNo (d : Desc) (idx : List Nat) : Nat :=
  let i0 := idx.getD 0 0
  let i1 := idx.getD 1 0
  let e0 := d.ext 0
  let e1 := d.ext 1
  let bs := d.blockSize
  let outer := (List.range' 2 4).foldr (fun i acc => idx.getD i 0 + d.ext i * acc) 0
  let inner :=
    if d.tiled then
      let t0 := i0 / 32
      let t1 := i1 / 32
      let wd := min 32 (e0 - 32 * t0)
      let ht := min 32 (e1 - 32 * t1)
      if d.contig = 0 then
        32 * t1 * (e0 / bs) + ht * (32 * t0 / bs) + (i1 % 32) * (wd / bs) + (i0 % 32) / bs
      else
        32 * t1 / bs * e0 + 32 * t0 * (ht / bs) + (i0 % 32) * (ht / bs) + (i1 % 32) / bs
    else if d.contig = 0 then (i1 * e0 + i0) / bs
    else (i0 * e1 + i1) / bs
  outer * (e0 * e1 / bs) + inner

def Desc.headerAddr (d : Desc) (idx : List Nat) : Nat := d.headers + 2 * d.headerNo idx

/-- The elements of the block that holds an element, in order along the contiguous dimension. DEDUCED, log 23. -/
def Desc.blockIdx (d : Desc) (idx : List Nat) : List (List Nat) :=
  let c := d.contig
  let b := idx.getD c 0 / d.blockSize * d.blockSize
  (List.range d.blockSize).map fun k => idx.set c (b + k)

/-! ### Spans: the bits that an access reads or writes -/

/-- A first bit address and a number of bits. -/
abbrev Span := Nat × Nat

/-- Whether a span has a bit in the bytes [lo, lo + n). -/
def Span.meets (lo n : Nat) (x : Span) : Bool :=
  decide (0 < x.2) && decide (x.1 < 8 * (lo + n)) && decide (8 * lo < x.1 + x.2)

/-- Whether two spans have bits in one byte. -/
def Span.sharesByte (x y : Span) : Bool := decide (0 < x.2) && Span.meets (x.1 / 8) ((x.1 + x.2 + 7) / 8 - x.1 / 8) y

/-- Whether spans fill every bit of a line. -/
def fillsLine (l : Nat) (xs : List Span) : Bool :=
  (List.range 2048).all fun b => xs.any fun x => decide (x.1 ≤ 8 * l + b) && decide (8 * l + b < x.1 + x.2)

/-- The bits of some elements of a tensor, and of the headers of their blocks. -/
def Desc.spans (d : Desc) (warm : Bool) (idxs : List (List Nat)) : List Span :=
  let f := d.fmtIn warm
  idxs.flatMap fun ix => (d.bitAddr f ix, f.bits) :: (if d.blockEn then [(8 * d.headerAddr ix, 16)] else [])

/-- The bits of a range of bytes. -/
def byteSpan (a n : Nat) : Span := (8 * a, 8 * n)

/-- The bits of a whole tensor. -/
def Desc.allSpans (d : Desc) (warm : Bool) : List Span := d.spans warm (allIdx d.exts)

namespace State

/-- The poisoned line that an access meets: one it reads, or one it writes in part (R272). -/
def poisonMet (s : State) (read wrote : List Span) : Option Nat :=
  s.poisoned.find? fun l =>
    read.any (Span.meets l 256) || (wrote.any (Span.meets l 256) && !fillsLine l wrote)

/-- Lines that an access has written whole lose their poison (R272). -/
def unpoison (s : State) (wrote : List Span) : State :=
  { s with poisoned := s.poisoned.filter fun l => !(wrote.any (Span.meets l 256)) }

/-- Dirty host-core blocks that a read meets are recalled (R290). -/
def recallSpans (s : State) (read : List Span) : State :=
  { s with caches := s.caches.map fun b =>
      if b.stale.isSome && read.any (Span.meets b.addr 64) then { b with stale := none } else b }

end State

namespace State

/-- `n` bits at a bit address. DEDUCED, log 23. -/
def readBits (s : State) (a n : Nat) : Nat := bitsAt (s.read (a / 8) (ceilDiv (a % 8 + n) 8)) (a % 8) n

/-- Replace `n` bits at a bit address. -/
def writeBits (s : State) (a n v : Nat) : State :=
  let k := ceilDiv (a % 8 + n) 8
  if a % 8 = 0 ∧ n % 8 = 0 then s.store (a / 8) (toLe k v)
  else
    let old := s.read (a / 8) k
    let cleared := old - (bitsAt old (a % 8) n) <<< (a % 8)
    s.store (a / 8) (toLe k (cleared + (v % 2 ^ n) <<< (a % 8)))

/-- The raw bits of an element. -/
def rawAt (s : State) (d : Desc) (f : Fmt) (idx : List Nat) : Nat := s.readBits (d.bitAddr f idx) f.bits

/-- An element as a tensor path reads it: decoded under R70 where block-scaled, under R45 otherwise. -/
def elemAt (s : State) (d : Desc) (f : Fmt) (idx : List Nat) : Elem :=
  if d.blockEn then decodeBlockElem f (s.read (d.headerAddr idx) 2) (s.rawAt d f idx)
  else readElem f (s.rawAt d f idx)

end State

/-! ### Conversions between units and tensors -/

/-- The state that a command's work changes, with the watch counts and digest of its job, and the bits that it read besides
those its caller names and the bits that it wrote. -/
structure Work where
  s : State
  watch : Watch
  digest : W64
  read : List Span := []
  wrote : List Span := []

/-- Tiles of a tensor, counted as R214 numbers work units, for any layout. -/
def Desc.tiles (d : Desc) : Nat :=
  ceilDiv (d.ext 0) 32 * ceilDiv (d.ext 1) 32 * d.ext 2 * d.ext 3 * d.ext 4 * d.ext 5

namespace Work

def start (s : State) (j : Job) : Work := { s := s, watch := j.watch, digest := j.digest }

/-- Put the counts and the digest into the job. -/
def close (w : Work) (job : Nat) : State :=
  w.s.modJob job fun j => { j with watch := w.watch, digest := w.digest }

/-- Bytes stored by a tile mover, stack logic engine or Relay delivery, and in the step's digest (R402); `x` are the bits of
them that the access writes. DEDUCED, log 26. -/
def putSpan (w : Work) (a : Nat) (bs : List Byte) (x : Span) : Work :=
  let d := mix (mix (BitVec.ofNat 64 (a ^^^ bs.length <<< 52)) ^^^ (crc32c bs).setWidth 64)
  { w with
    s := w.s.store a bs, digest := if w.s.pair.mode = .mirror then w.digest + d else w.digest
    wrote := x :: w.wrote }

/-- DEDUCED, log 26. -/
def put (w : Work) (a : Nat) (bs : List Byte) : Work := w.putSpan a bs (byteSpan a bs.length)

def putBits (w : Work) (a n v : Nat) : Work :=
  let k := ceilDiv (a % 8 + n) 8
  if a % 8 = 0 ∧ n % 8 = 0 then w.putSpan (a / 8) (toLe k v) (a, n)
  else
    let old := w.s.read (a / 8) k
    let cleared := old - (bitsAt old (a % 8) n) <<< (a % 8)
    w.putSpan (a / 8) (toLe k (cleared + (v % 2 ^ n) <<< (a % 8))) (a, n)

/-- Note bits that the work reads. -/
def noteRead (w : Work) (xs : List Span) : Work := { w with read := xs ++ w.read }

def key (d : Desc) (f : Fmt) : WatchKey := { handle := d.handle, fmt := f.code, kind := d.kind }

/-- Count a conversion: at the source tensor, at the destination tensor, and in both formats' summaries (R84, R89). -/
def count (w : Work) (src dst : Option Desc) (fs ft : Fmt) (o : Outc) (e : Elem) : Work :=
  let w1 := match src with
    | some d => if d.watched then w.watch.touch (key d fs) false o e.val e.flushed else w.watch
    | none => w.watch
  let w2 := match dst with
    | some d => if d.watched then w1.touch (key d ft) true o e.val e.flushed else w1
    | none => w1
  { w with watch := (w2.sumStore ft o e.val e.flushed).sumLoad fs o e.val e.flushed }

def arith (w : Work) (f : Fmt) (n : Nat) : Work :=
  { w with watch := (List.range n).foldl (fun x _ => x.arith f) w.watch }

end Work

/-- The rounding of a conversion (R51): SR for kinds 6 and 7, then an override, then the command's field. -/
structure Rounding where
  mode : RMode
  sat : Bool
  deriving DecidableEq, Repr

/-- A conversion that writes a tensor: the destination's override, or on a move that of the source. -/
def storeRounding (src : Option Desc) (dst : Desc) (field : RMode) (sat : Bool) : Rounding :=
  let sr := dst.kind == 6 || dst.kind == 7 || (src.any fun d => d.kind == 6 || d.kind == 7)
  let pick : Rounding :=
    if dst.rndEn then ⟨dst.rndMode, dst.rndSat⟩
    else match src with
      | some d => if d.rndEn then ⟨d.rndMode, d.rndSat⟩ else ⟨field, sat⟩
      | none => ⟨field, sat⟩
  { pick with mode := if sr then .sr else pick.mode }

/-- A conversion that delivers a tensor to a unit: the source's override. -/
def loadRounding (src : Desc) (field : RMode) (sat : Bool) : Rounding :=
  let pick : Rounding := if src.rndEn then ⟨src.rndMode, src.rndSat⟩ else ⟨field, sat⟩
  { pick with mode := if src.kind = 6 ∨ src.kind = 7 then .sr else pick.mode }

/-- The draw of a conversion at an element (R53, R183). -/
def convDraw (seed : W64) (step : Nat) (d : Desc) (idx : List Nat) : Nat :=
  let (t, e) := d.tileOf idx
  draw (streamKey seed 0 0 d.handle t step) e

/-- What conversions need to know of their job. -/
structure Env where
  seed : W64
  step : Nat
  warm : Bool
  deriving DecidableEq, Repr

def Env.of (j : Job) : Env := { seed := j.seed, step := j.step, warm := decide (0 < j.lap) }

/-- An element to be written, with the source it is counted at: its value, the format it comes from, and whether that is
unscaled FP64 (R56). -/
structure Item where
  idx : List Nat
  elem : Elem
  src : Option Desc := none
  from_ : Fmt
  deriving DecidableEq, Repr

/-- Whether items from a source are staged: unscaled FP64 (R55, R56). -/
def Item.from64 (i : Item) : Bool := i.from_ == .fp64 && (i.src.all fun d => !d.blockEn)

namespace Work

/-- Write one element of an unscaled tensor (R55 to R63). DEDUCED, log 109. -/
def putElem (env : Env) (d : Desc) (rnd : Rounding) (w : Work) (i : Item) : Work :=
  let f := d.fmtIn env.warm
  let r := if rnd.mode = .sr then convDraw env.seed env.step d i.idx else 0
  let (raw, o) := convertElem i.from64 f rnd.mode rnd.sat r i.elem
  (w.putBits (d.bitAddr f i.idx) f.bits raw).count i.src (some d) i.from_ f o i.elem

/-- Write the items of one block: the block is encoded from all its elements, those not written entering with their
decoded values (R66 to R69, R569). -/
def putBlock (env : Env) (d : Desc) (rnd : Rounding) (w : Work) (items : List Item) : Work :=
  match items with
  | [] => w
  | i0 :: _ =>
    let f := d.fmtIn env.warm
    let all : List Item := (d.blockIdx i0.idx).map fun ix =>
      match items.reverse.find? fun i => i.idx == ix with
      | some i => i
      | none => { idx := ix, elem := w.s.elemAt d f ix, src := none, from_ := f }
    let ins := all.map fun i =>
      (i.elem, (if i.from64 && f.stagedFromFp64 then stageOne i.elem.val else (i.elem.val, false)),
        if rnd.mode = .sr then convDraw env.seed env.step d i.idx else 0)
    let (hdr, outs) := encodeBlock f d.rule rnd.mode ins
    let kept := all.filter fun i => items.all fun x => x.idx != i.idx
    let w1 := (w.noteRead (d.spans env.warm (kept.map Item.idx))).put (d.headerAddr i0.idx) (toLe 2 hdr)
    (all.zip outs).foldl (fun w (i, raw, o) =>
      (w.putBits (d.bitAddr f i.idx) f.bits raw).count i.src (some d) i.from_ f o i.elem) w1

/-- Write items to a tensor: element by element, or block by block. DEDUCED, log 109. -/
def putItems (env : Env) (d : Desc) (rnd : Rounding) (w : Work) (items : List Item) : Work :=
  if d.blockEn then
    let keys := (items.map fun i => d.headerNo i.idx).eraseDups
    keys.foldl (fun w k => w.putBlock env d rnd (items.filter fun i => d.headerNo i.idx == k)) w
  else items.foldl (putElem env d rnd) w

/-- Deliver an element of a tensor to a unit's format (R84 point 1): its value there, with the counts. -/
def load (env : Env) (d : Desc) (unit : Fmt) (field : RMode) (sat : Bool) (w : Work) (idx : List Nat) : Work × Num :=
  let f := d.fmtIn env.warm
  let e := w.s.elemAt d f idx
  let rnd := loadRounding d field sat
  let r := if rnd.mode = .sr then convDraw env.seed env.step d idx else 0
  let (raw, o) := convertElem (f == .fp64 && !d.blockEn) unit rnd.mode rnd.sat r e
  (w.count (some d) none f unit o e, (readElem unit raw).val)

/-- Deliver an element unchanged in its format, after R45: counted as a conversion to its own format (R84). -/
def loadAs (env : Env) (d : Desc) (w : Work) (idx : List Nat) : Work × Num :=
  let f := d.fmtIn env.warm
  let e := w.s.elemAt d f idx
  (w.count (some d) none f f (outcomeOf e e.val false) e, e.val)

end Work

/-- Whether a move between two descriptors is a bit move (R49). -/
def bitMove (warm : Bool) (a b : Desc) : Bool :=
  a.fmtIn warm == b.fmtIn warm && a.blockEn == b.blockEn &&
    a.blockSize == b.blockSize && a.variant == b.variant && !a.rndEn && !b.rndEn &&
    a.kind != 6 && a.kind != 7 && b.kind != 6 && b.kind != 7

/-- Copy the raw bits of one element, and with a block's first element the header of the source element's block: where the
contiguous dimensions differ the spec leaves open which source header reaches a block (R49). DESIGN CHOICE, log 125. -/
def Work.moveElem (env : Env) (a b : Desc) (w : Work) (ia ib : List Nat) : Work :=
  let f := b.fmtIn env.warm
  let w1 := w.putBits (b.bitAddr f ib) f.bits (w.s.rawAt a f ia)
  if b.blockEn ∧ ib.getD b.contig 0 % b.blockSize = 0 then
    w1.put (b.headerAddr ib) (w1.s.bytes (a.headerAddr ia) 2)
  else w1

end Sys2Proof.Machine
end

