-- ==== Sys2Proof/Machine/Move.lean ====
section
/-! DEFINITION. The data macro-ops: LOAD, STORE, COPY, CONVERT, FILL, GATHER, SCATTER and RNG (R178, R179, R215 to
R219), and what every macro-op that names tensors shares: their checks and the lines they meet. -/

namespace Sys2Proof.Machine

/-- Whether the training step in progress is a warm-up step (R81). -/
def Job.warm (j : Job) : Bool := decide (0 < j.lap)

namespace Cmd

def warm (c : Cmd) : Bool := c.job.warm

/-- The tensor of a handle slot where its handle and its descriptor are valid. -/
def tensor? (c : Cmd) (s : State) (i : Nat) : Option Desc :=
  let h := c.slot.handle i
  if State.handleOk c.job h && (s.descAt c.job h).ok then some (s.descAt c.job h) else none

/-- The handle, descriptor, stash region and access checks of one handle slot (R155, R198, R206, R211, R212). -/
def tensorFails (c : Cmd) (s : State) (optional : Bool) (i : Nat) : List Fail :=
  let h := c.slot.handle i
  if h = noHandle then need optional .badHandle (some i)
  else if !State.handleOk c.job h then [(.badHandle, some i)]
  else
    let d := s.descAt c.job h
    if !d.ok then [(.badDesc, some i)]
    else
      let fp := d.footprint c.warm
      need (!overlap fp (State.stashRegion c.job)) .badDesc (some i) ++ s.accessChecks c.q.team fp (some i)

/-- A condition on the tensors of some slots, made where all of them are valid. The first tensor that fails is, of two that do
not fit each other, the one in the later slot, or the one that the rule says does not fit; a written tensor that overlaps
another is the one that fails (DEDUCED, log 30). -/
def when1 (c : Cmd) (s : State) (i : Nat) (f : Desc → Bool) : List Fail :=
  match c.tensor? s i with
  | some a => need (f a) .badDesc (some i)
  | none => []

def whenAt (c : Cmd) (s : State) (slot i k : Nat) (f : Desc → Desc → Bool) : List Fail :=
  match c.tensor? s i, c.tensor? s k with
  | some a, some b => need (f a b) .badDesc (some slot)
  | _, _ => []

/-- DEDUCED, log 30. -/
def when2 (c : Cmd) (s : State) (i k : Nat) (f : Desc → Desc → Bool) : List Fail := c.whenAt s (max i k) i k f

/-- The checks of a handle slot whose tensor is written: in GENERATE, no tensor of kind 1, 2 or 3 (R252). -/
def destFails (c : Cmd) (s : State) (optional : Bool) (i : Nat) : List Fail :=
  c.tensorFails s optional i ++ c.when1 s i fun d => !(c.q.generate && decide (1 ≤ d.kind) && decide (d.kind ≤ 3))

def disjoint (c : Cmd) (a b : Desc) : Bool := !overlap (a.footprint c.warm) (b.footprint c.warm)

/-- The written tensor in slot o must not overlap the tensor in slot i (R212). DEDUCED, log 30. -/
def apart (c : Cmd) (s : State) (i o : Nat) : List Fail := c.whenAt s o i o c.disjoint

end Cmd

/-! ### Lines that a command meets (R272, R290) -/

namespace Desc

/-- First byte and byte count of an element. -/
def span (d : Desc) (f : Fmt) (idx : List Nat) : Nat × Nat :=
  (d.bitAddr f idx / 8, ceilDiv (d.bitAddr f idx % 8 + f.bits) 8)

end Desc

/-- Run a command's work in `units` work units (R214): `ins` are the bits that it reads beforehand; the work notes the others
that it reads, and those that it writes. A poisoned line that it reads, or writes in part, ends it in a detected fault (R272);
otherwise its count_a and state follow from the work. -/
def Cmd.work (c : Cmd) (s : State) (units : Nat) (ins : List Span) (f : Work → Work × Nat) : Res :=
  let (w, n) := f (Work.start (s.recallSpans ins) c.job)
  match s.poisonMet (ins ++ w.read) w.wrote with
  | some l => .fault s Mech.poisonRead.code 3 (State.stackOf l) l
  | none => .ok ((((w.close c.job.id).unpoison w.wrote).recallSpans w.read).ranUnits c units) n 0

/-- The bits of whole tensors. -/
def Cmd.spans (c : Cmd) (ds : List Desc) : List Span := ds.flatMap (Desc.allSpans · c.warm)

/-! ### Arithmetic in a working format -/

/-- Round an exact value into a floating-point format outside a conversion: the value, and whether R46 flushed it. -/
def roundIn (f : Fmt) (mode : RMode) (sat : Bool) (r : Nat) (x : Num) : Num × Bool :=
  match f.spec with
  | some fs => let (y, _, fl) := fs.round false mode sat r x; (y, fl)
  | none => (x, false)

def rne (f : Fmt) (x : Num) : Num := (roundIn f .rne false 0 x).1

/-- Round, counting a flush in the format's summary (R85). -/
def Work.round (w : Work) (f : Fmt) (mode : RMode) (sat : Bool) (x : Num) : Work × Num :=
  let (y, fl) := roundIn f mode sat 0 x
  (if fl then w.arith f 1 else w, y)

/-! ### COPY, CONVERT, LOAD and STORE (R215, R216) -/

/-- The source format that R62 looks at: a block-scaled source is decoded into FP64 (R55). DEDUCED, log 115. -/
def Desc.pairFmt (d : Desc) (warm : Bool) : Fmt := if d.blockEn then .fp64 else d.fmtIn warm

def movePairOk (warm : Bool) (a b : Desc) : Bool := pairDefined (a.pairFmt warm) (b.fmtIn warm)

/-- Convert every element of `a` to the element of equal index of `b`. -/
def Work.convertAll (env : Env) (a b : Desc) (field : RMode) (sat : Bool) (w : Work) : Work :=
  let f := a.fmtIn env.warm
  w.putItems env b (storeRounding (some a) b field sat)
    ((allIdx b.exts).map fun ix => { idx := ix, elem := w.s.elemAt a f ix, src := some a, from_ := f })

/-- Copy every element's bits. -/
def Work.moveAll (env : Env) (a b : Desc) (w : Work) : Work :=
  (allIdx b.exts).foldl (fun w ix => w.moveElem env a b ix ix) w

/-- The checks that COPY, CONVERT, LOAD and STORE share; `asMove` says whether a bit move may stand for the
conversion. -/
def copyChecks (asMove : Bool) (c : Cmd) (s : State) : List Fail :=
  placeChecks c.slot c.q.team ++ c.tensorFails s false 0 ++ c.destFails s false 1 ++
    c.when2 s 0 1 (fun a b => a.exts == b.exts) ++
    c.when2 s 0 1 (fun a b => (asMove && bitMove c.warm a b) || movePairOk c.warm a b) ++
    c.when2 s 0 1 (fun a b => a.w == b.w || c.disjoint a b)

def moveFields (n : Nat) : FieldMap := { handles := [0, 1], operands := [(0x1E, 0, n)] }

/-- Move or convert, and copy the result's bits to further destinations. -/
def copyBody (asMove : Bool) (more : List Desc) (c : Cmd) (s : State) : Res :=
  match c.tensor? s 0, c.tensor? s 1 with
  | some a, some b =>
    let env := Env.of c.job
    c.work s b.tiles (c.spans [a]) fun w =>
      let w1 := if asMove && bitMove c.warm a b then w.moveAll env a b
        else w.convertAll env a b (.ofCode (c.slot.operand 0x1E 0 2)) (bitAt (c.slot.operand 0x1E 0 8) 2)
      (more.foldl (fun w d => w.moveAll env b d) w1, 0)
  | _, _ => .fail .badHandle none

/-- The decode checks of COPY, which moves bits where it can, and of CONVERT, which always converts. -/
def moveChecks (asMove : Bool) (c : Cmd) (s : State) : List Fail := fieldChecks c.slot (moveFields 3) ++ copyChecks asMove c s

def execCopy (q : Nat) (s : State) : Host.Outcome State Fault Refusal :=
  .next (s.runMacro (State.isOp .copy) (moveChecks true) (copyBody true []) q)

def execConvert (q : Nat) (s : State) : Host.Outcome State Fault Refusal :=
  .next (s.runMacro (State.isOp .convert) (moveChecks false) (copyBody false []) q)

/-- Whether a tensor lies in the cluster-store window with its whole footprint (R212, R215). -/
def inClusterWindow (c : Cmd) (d : Desc) : Bool :=
  let inside (a : Nat) : Bool := match regionOf a with
    | .cluster _ => true
    | _ => false
  inside d.base && (d.footprint c.warm).all fun i =>
    i.len == 0 || (decide (0 ≤ i.lo) && inside i.lo.toNat && inside (i.lo.toNat + i.len - 1))

/-- STORE moves out of a cluster store (R215). -/
def storeChecks (c : Cmd) (s : State) : List Fail := moveChecks true c s ++ c.when1 s 0 (inClusterWindow c)

def execStore (q : Nat) (s : State) : Host.Outcome State Fault Refusal :=
  .next (s.runMacro (State.isOp .store) storeChecks (copyBody true []) q)

/-- The destination of a LOAD with rep in the store of a cluster (R215). -/
def Desc.inCluster (d : Desc) (k : Nat) : Desc :=
  { d with w := d.w - d.base + (clusterBase + k * 0x10_0000 + d.base % 0x10_0000) }

def loadRep (c : Cmd) : Bool := bitAt (c.slot.operand 0x1E 0 8) 3

/-- The destinations of a LOAD: one in each cluster of the placement with rep, else the tensor itself. -/
def loadDests (c : Cmd) (b : Desc) : List Desc :=
  if loadRep c then (placeClusters c.slot c.q.team).map b.inCluster else [b]

def loadChecks (c : Cmd) (s : State) : List Fail :=
  fieldChecks c.slot (moveFields 4) ++ copyChecks true c s ++ c.when1 s 1 (inClusterWindow c) ++
    (match c.tensor? s 1 with
      | some b => if placeFieldsOk c.slot then
          (loadDests c b).flatMap fun d => s.accessChecks c.q.team (d.footprint c.warm) (some 1)
        else []
      | none => []) ++
    c.when2 s 0 1 (fun a b => a.w == b.w || !loadRep c || (loadDests c b).all fun d => a.w == d.w || c.disjoint a d)

def loadBody (c : Cmd) (s : State) : Res :=
  match c.tensor? s 0, c.tensor? s 1 with
  | some a, some b =>
    match loadDests c b with
    | d :: ds =>
      let env := Env.of c.job
      c.work s b.tiles (c.spans [a]) fun w =>
        let w1 := if bitMove c.warm a b then w.moveAll env a d
          else w.convertAll env a d (.ofCode (c.slot.operand 0x1E 0 2)) (bitAt (c.slot.operand 0x1E 0 8) 2)
        (ds.foldl (fun w x => w.moveAll env d x) w1, 0)
    | [] => .ok s 0 0
  | _, _ => .fail .badHandle none

def execLoad (q : Nat) (s : State) : Host.Outcome State Fault Refusal :=
  .next (s.runMacro (State.isOp .load) loadChecks loadBody q)

/-! ### FILL (R217) -/

def fillPattern (c : Cmd) : Bool := bitAt (c.slot.operand 0x1E 0 8) 3

def fillChecks (c : Cmd) (s : State) : List Fail :=
  fieldChecks c.slot { handles := [0], sA := true, operands := [(0x1E, 0, 4)] } ++ placeChecks c.slot c.q.team ++
    c.destFails s false 0 ++
    c.when1 s 0 (fun d => if fillPattern c then !d.blockEn else pairDefined .fp64 (d.fmtIn c.warm))

def fillBody (c : Cmd) (s : State) : Res :=
  match c.tensor? s 0 with
  | some d =>
    let env := Env.of c.job
    let v := c.reg c.slot.sA
    let f := d.fmtIn c.warm
    c.work s d.tiles [] fun w =>
      (if fillPattern c then
        (allIdx d.exts).foldl (fun w ix => w.putBits (d.bitAddr f ix) f.bits (v.toNat % 2 ^ f.bits)) w
      else
        w.putItems env d (storeRounding none d (.ofCode (c.slot.operand 0x1E 0 2)) (bitAt (c.slot.operand 0x1E 0 8) 2))
          ((allIdx d.exts).map fun ix => { idx := ix, elem := readElem .fp64 v.toNat, src := none, from_ := .fp64 }), 0)
  | none => .fail .badHandle none

def execFill (q : Nat) (s : State) : Host.Outcome State Fault Refusal :=
  .next (s.runMacro (State.isOp .fill) fillChecks fillBody q)

/-! ### GATHER and SCATTER (R178, R179, R218) -/

/-- Rows of a tensor: the positions of dimension rank − 1. -/
def Desc.rows (d : Desc) : Nat := d.ext (d.rank - 1)

/-- The extents of a row, padded with 1. -/
def Desc.rowShape (d : Desc) : List Nat := (List.range 6).map fun i => if i < d.rank - 1 then d.ext i else 1

/-- Whether rows hold whole blocks. -/
def Desc.rowsWhole (d : Desc) : Bool := !d.blockEn || d.contig != d.rank - 1

/-- Element k of row r. -/
def Desc.inRow (d : Desc) (ix : List Nat) (r : Nat) : List Nat := ix.set (d.rank - 1) r

/-- Index i of an index tensor, as a signed number. -/
def indexAt (s : State) (d : Desc) (i : Nat) : Int := signedOf 32 (s.rawAt d .int32 [i])

def indexOk (d : Desc) : Bool := d.kind == 10 && d.fmtCode == Fmt.int32.code && d.rank == 1

def rowChecks (c : Cmd) (s : State) : List Fail :=
  placeChecks c.slot c.q.team ++ (List.range 2).flatMap (c.tensorFails s false) ++ c.destFails s false 2 ++ c.when1 s 1 indexOk ++
    c.when2 s 0 2 (fun a b => a.rowShape == b.rowShape) ++ c.when1 s 0 Desc.rowsWhole ++ c.when1 s 2 Desc.rowsWhole ++
    c.apart s 0 2 ++ c.apart s 1 2

def gatherChecks (c : Cmd) (s : State) : List Fail :=
  fieldChecks c.slot { handles := [0, 1, 2], operands := [(0x1E, 0, 3)] } ++ rowChecks c s ++
    c.when2 s 1 2 (fun i b => decide (i.ext 0 ≤ b.rows)) ++
    c.when2 s 0 2 (fun a b => bitMove c.warm a b || movePairOk c.warm a b)

/-- Whether an index names a row of a tensor. DEDUCED, log 27. -/
def rowIn (d : Desc) (i : Int) : Bool := decide (0 ≤ i) && decide (i < d.rows)

/-- One row of a GATHER. DEDUCED, log 27. -/
def gatherRow (env : Env) (a b : Desc) (rnd : Rounding) (w : Work) (i : Nat) (r : Int) : Work :=
  let f := a.fmtIn env.warm
  let cells := (allIdx b.rowShape).map fun ix => (a.inRow ix r.toNat, b.inRow ix i)
  if !rowIn a r then w.putItems env b rnd (cells.map fun x => { idx := x.2, elem := { val := .zero }, from_ := f })
  else if bitMove env.warm a b then cells.foldl (fun w x => w.moveElem env a b x.1 x.2) w
  else w.putItems env b rnd (cells.map fun x => { idx := x.2, elem := w.s.elemAt a f x.1, src := some a, from_ := f })

/-- The bits that a GATHER reads: the index tensor and the source rows that it names (R178). -/
def gatherReads (c : Cmd) (a x b : Desc) (idx : List Int) : List Span :=
  c.spans [x] ++ ((idx.filter (rowIn a)).eraseDups.flatMap fun (r : Int) =>
    a.spans c.warm ((allIdx b.rowShape).map fun ix => a.inRow ix r.toNat))

/-- Rows L and above are not written. Reads of the index tensor are not counted: R84 names no count for them (
DESIGN CHOICE, log 126). -/
def gatherBody (c : Cmd) (s : State) : Res :=
  match c.tensor? s 0, c.tensor? s 1, c.tensor? s 2 with
  | some a, some x, some b =>
    let idx := (List.range (x.ext 0)).map (indexAt s x)
    let rnd := storeRounding (some a) b (.ofCode (c.slot.operand 0x1E 0 2)) (bitAt (c.slot.operand 0x1E 0 8) 2)
    c.work s (ceilDiv (x.ext 0) 32) (gatherReads c a x b idx) fun w =>
      ((idx.zipIdx).foldl (fun w (r, i) => gatherRow (Env.of c.job) a b rnd w i r) w,
        (idx.filter fun r => !rowIn a r).length)
  | _, _, _ => .fail .badHandle none

def execGather (q : Nat) (s : State) : Host.Outcome State Fault Refusal :=
  .next (s.runMacro (State.isOp .gather) gatherChecks gatherBody q)

/-- The working format of a SCATTER. -/
def scatterW (warm : Bool) (b : Desc) : Fmt := if b.fmtIn warm == .fp64 then .fp64 else .fp32

def scatterChecks (c : Cmd) (s : State) : List Fail :=
  fieldChecks c.slot { handles := [0, 1, 2], operands := [(0x1E, 0, 5), (0x1F, 0, 1)] } ++ rowChecks c s ++
    need (decide (c.slot.operand 0x1E 2 3 ≤ 3)) .badOperand ++
    c.whenAt s 0 0 1 (fun a i => decide (i.ext 0 ≤ a.rows)) ++
    c.whenAt s 0 0 2 (fun a b => exactPair (a.pairFmt c.warm) (scatterW c.warm b)) ++
    c.when1 s 2 (fun b => pairDefined (b.pairFmt c.warm) (scatterW c.warm b) &&
      pairDefined (scatterW c.warm b) (b.fmtIn c.warm))

/-- The operators of R179. -/
def scatterOp (op : Nat) (W : Fmt) (w : Work) (acc x : Num) : Work × Num :=
  match op with
  | 0 => (w, x)
  | 1 => w.round W .rne false (acc.add x)
  | 2 => (w, acc.maxR x)
  | _ => (w, acc.minR x)

/-- One element of a touched row: the accumulator starts at the destination and takes the source rows in order; the loads
take the command's rounding field (R51). -/
def scatterElem (env : Env) (op : Nat) (a b : Desc) (field : RMode) (sat : Bool) (srcs : List Nat) (w : Work)
    (ia ib : List Nat) : Work × Num :=
  let W := scatterW env.warm b
  let (w0, d) := w.load env b W field sat ib
  srcs.foldl (fun (w, acc) i =>
    let (w1, x) := Work.load env a W field sat w (a.inRow ia i)
    scatterOp op W w1 acc x) (w0, d)

/-- One touched destination row. -/
def scatterRow (env : Env) (op : Nat) (a b : Desc) (field : RMode) (sat : Bool) (idx : List Int) (w : Work) (r : Nat) : Work :=
  let srcs := ((idx.zipIdx).filter fun p => p.1 == (r : Int)).map Prod.snd
  let cells := (allIdx b.rowShape).map fun ix => (ix, b.inRow ix r)
  let (w1, items) := cells.foldl (fun (w, items) (x : List Nat × List Nat) =>
    let (w1, v) := scatterElem env op a b field sat srcs w x.1 x.2
    (w1, items ++ [({ idx := x.2, elem := { val := v }, from_ := scatterW env.warm b } : Item)])) (w, [])
  w1.putItems env b (storeRounding (some a) b field sat) items

/-- The bits that a SCATTER reads: the index tensor, the source rows that it applies and the destination rows that it
touches (R179). -/
def scatterReads (c : Cmd) (a x b : Desc) (idx : List Int) : List Span :=
  c.spans [x] ++ ((idx.zipIdx).filter fun p => rowIn b p.1).flatMap fun (p : Int × Nat) =>
    (allIdx b.rowShape).flatMap fun ix => a.spans c.warm [a.inRow ix p.2] ++ b.spans c.warm [b.inRow ix p.1.toNat]

/-- Reads of the index tensor are not counted: R84 names no count for them (DESIGN CHOICE, log 126). -/
def scatterBody (c : Cmd) (s : State) : Res :=
  match c.tensor? s 0, c.tensor? s 1, c.tensor? s 2 with
  | some a, some x, some b =>
    let idx := (List.range (x.ext 0)).map (indexAt s x)
    let touched := (List.range b.rows).filter fun (r : Nat) => idx.contains (r : Int)
    c.work s (ceilDiv b.rows 32) (scatterReads c a x b idx) fun w =>
      (touched.foldl (scatterRow (Env.of c.job) (c.slot.operand 0x1E 2 3) a b (.ofCode (c.slot.operand 0x1E 0 2))
        (bitAt (c.slot.operand 0x1F 0 8) 0) idx) w,
        (idx.filter fun r => !rowIn b r).length)
  | _, _, _ => .fail .badHandle none

def execScatter (q : Nat) (s : State) : Host.Outcome State Fault Refusal :=
  .next (s.runMacro (State.isOp .scatter) scatterChecks scatterBody q)

/-! ### RNG (R219) -/

/-- Unit k of an element of RNG. -/
def rngUnit (env : Env) (d : Desc) (idx : List Nat) (k : Nat) : Nat :=
  let (t, e) := d.tileOf idx
  draw (streamKey env.seed 2 0 d.handle t env.step) (1024 * k + e)

/-- Two units joined high to low. -/
def rngWord (env : Env) (d : Desc) (idx : List Nat) (k : Nat) : Nat :=
  rngUnit env d idx k * 65536 + rngUnit env d idx (k + 1)

/-- √(−2 ln u1) · cos (2π u2) as an enclosure, u1 = (a + 1/2) · 2^−24 and u2 = b · 2^−24 with b not a quarter turn off
zero. -/
def normalE (w a b : Nat) : Encl :=
  let l := Encl.neg (lnDyadic w (2 * a + 1) (-25))
  let r := sqrtNatE w (Encl.shift l 1)
  -- the angle within a quarter turn of a multiple of π
  let half := 2 ^ 23
  let k := (b + 2 ^ 22) / half
  let t := Encl.mul w (piE w) (Encl.shift (Encl.point (((b : Int) - ((k * half : Nat) : Int)) <<< w)) (-23))
  let c := cosSmall w t
  Encl.mul w r (if k % 2 = 1 then Encl.neg c else c)

/-- The exact value of NORMAL, sticky (R219). -/
def normalValue (mean sd : Num) (a b : Nat) : Num :=
  if b = 2 ^ 22 ∨ b = 3 * 2 ^ 22 then mean.add (sd.mul .zero)
  else
    let neg : Bool := decide (2 ^ 22 < b) && decide (b < 3 * 2 ^ 22)
    match mean, sd with
    | .fin _ 0 _, .fin _ 0 _ => mean.add (sd.mul (.fin neg 1 0))
    | .fin _ _ _, .fin _ 0 _ => mean
    | .fin nm mm em, .fin ns ms es =>
      -- both operands are integers over one step, so that the precision counts from the larger
      let lo := min em es
      let top := max (em - lo).toNat (es - lo).toNat
      match resolve 17 (a * 2 ^ 24 + b) (fun w =>
        let g := w + top
        Encl.add (Encl.ofDyadic g nm mm (em - lo - top))
          (Encl.mul g (Encl.ofDyadic g ns ms (es - lo - top)) (normalE g a b)) |> fun x => Encl.shift x (-(top : Int))) with
      | .fin n m e => .fin n m (e + lo + top)
      | v => v
    | _, _ => mean.add (sd.mul (.fin neg 1 0))

/-- The value of an element under UNIFORM or NORMAL. -/
def rngValue (dist : Nat) (pa pb : Num) (env : Env) (d : Desc) (idx : List Nat) : Num :=
  let u (k : Nat) : Nat := rngWord env d idx k / 256
  if dist = 0 then pa.add ((pb.sub pa).mul (.fin false (u 0) (-24)))
  else normalValue pa pb (u 0) (u 2)

def rngChecks (c : Cmd) (s : State) : List Fail :=
  fieldChecks c.slot { handles := [0], sA := true, sB := true, operands := [(0x1E, 0, 3)] } ++
    placeChecks c.slot c.q.team ++ c.destFails s false 0 ++ c.when1 s 0 (fun d => d.kind == 11) ++
    need (c.slot.operand 0x1E 0 2 != 3) .badOperand ++
    c.when1 s 0 (fun d => c.slot.operand 0x1E 0 2 != 2 ||
      d.fmtCode == Fmt.int32.code || d.fmtCode == Fmt.int8.code)

/-- One element of RNG: BITS writes uncounted; the others convert and count as a store only (DEDUCED, log 31). -/
def rngElem (env : Env) (dist : Nat) (pa pb : Num) (d : Desc) (rnd : Rounding) (w : Work) (ix : List Nat) : Work :=
  let f := d.fmtIn env.warm
  if dist = 2 then w.putBits (d.bitAddr f ix) f.bits (rngWord env d ix 0 % 2 ^ f.bits)
  else
    let e : Elem := { val := rngValue dist pa pb env d ix }
    let r := if rnd.mode = .sr then convDraw env.seed env.step d ix else 0
    let (raw, o) := convertElem false f rnd.mode rnd.sat r e
    let w1 := w.putBits (d.bitAddr f ix) f.bits raw
    let wa := if d.watched then w1.watch.touch (Work.key d f) true o e.val false else w1.watch
    { w1 with watch := wa.sumStore f o e.val false }

def rngBody (c : Cmd) (s : State) : Res :=
  match c.tensor? s 0 with
  | some d =>
    let pa := (readElem .fp64 (c.reg c.slot.sA).toNat).val
    let pb := (readElem .fp64 (c.reg c.slot.sB).toNat).val
    let rnd := storeRounding none d .rne (bitAt (c.slot.operand 0x1E 0 8) 2)
    c.work s d.tiles [] fun w =>
      ((allIdx d.exts).foldl (rngElem (Env.of c.job) (c.slot.operand 0x1E 0 2) pa pb d rnd) w, 0)
  | none => .fail .badHandle none

def execRng (q : Nat) (s : State) : Host.Outcome State Fault Refusal :=
  .next (s.runMacro (State.isOp .rng) rngChecks rngBody q)

/-! ### NOP (R199) -/

/-- NOP ignores every field; its cpl and evt are honoured (DEDUCED, log 32). -/
def nopChecks (_ : Cmd) (_ : State) : List Fail := []
def nopBody (_ : Cmd) (s : State) : Res := .ok s 0 0

def execNop (q : Nat) (s : State) : Host.Outcome State Fault Refusal :=
  .next (s.runMacro (State.isOp .nop) nopChecks nopBody q)

end Sys2Proof.Machine
end

