-- ==== Sys2Proof/Machine/Matrix.lean ====
section
/-! DEFINITION. The matrix arrays: operand classes, the element procedure and its accumulators (R95 to R111), level 0
and the finish stage (R115 to R123), GEMM, BGEMM (R220, R221) and BWD2 (R128 to R142, R222). -/

namespace Sys2Proof.Machine

/-! ### Classes and accumulators -/

/-- The classes of R95. -/
inductive MClass where
  | d | s | t | h | q | e | i8 | i4
  deriving DecidableEq, Repr

/-- K-granule of a class. -/
def MClass.granule : MClass → Nat
  | .d => 1 | .s => 1 | .t => 1 | .h => 2 | .q => 4 | .e => 8 | .i8 => 4 | .i4 => 8

/-- The class of one operand, by format in use and block scaling. -/
def operandClass (f : Fmt) (block : Bool) : Option MClass :=
  match f with
  | .fp64 => some .d
  | .fp32 => some .s
  | .fp19 => some .t
  | .bf16 => some .h
  | .fp16 => some .h
  | .fp8e4 => some .q
  | .fp8e5 => some .q
  | .int8 => some (if block then .q else .i8)
  | .fp6e3 => some .e
  | .fp6e2 => some .e
  | .fp4 => some .e
  | .int4 => some .i4
  | _ => none

/-- The pair rule of R95. -/
def pairClass (a b : MClass) : Option MClass :=
  match a, b with
  | .d, .d => some .d
  | .s, .s => some .s
  | .t, .t => some .t
  | .h, .h => some .h
  | .h, .q => some .h
  | .h, .e => some .h
  | .q, .h => some .h
  | .e, .h => some .h
  | .q, .q => some .q
  | .q, .e => some .q
  | .e, .q => some .q
  | .e, .e => some .e
  | .i8, .i8 => some .i8
  | .i8, .i4 => some .i8
  | .i4, .i8 => some .i8
  | .i4, .i4 => some .i4
  | _, _ => none

/-- Accumulators: a floating-point format, INT32 (R100) or WFX640 (R104). -/
inductive AccKind where
  | fp (f : Fmt)
  | int
  | wfx
  deriving DecidableEq, Repr

def AccKind.fmt : AccKind → Fmt
  | .fp f => f
  | .int => .int32
  | .wfx => .wfx640

/-- The working format of the finish stage (R116). -/
def AccKind.working : AccKind → Fmt
  | .fp f => f
  | .int => .fp32
  | .wfx => .fp64

def MClass.acc : MClass → AccKind
  | .d => .fp .fp64
  | .i8 => .int
  | .i4 => .int
  | _ => .fp .fp32

/-- An accumulator's value, with the saturation flag of INT32. -/
structure Acc where
  v : Num := .zero
  sat : Bool := false
  deriving DecidableEq, Repr

/-- The integer value of a finite number with no fraction. -/
def Num.toInt : Num → Int
  | .fin n m e => shiftFloor (sInt n m) e
  | _ => 0

/-- A new INT32 accumulator value, clamped (R100). -/
def clampAcc (old : Acc) (x : Num) : Acc :=
  let i := x.toInt
  let c := clampInt 32 i
  { v := .ofInt c, sat := old.sat || c != i }

/-- A result enters the accumulator: one rounding under R98 and R99, a clamp under R100, or exactly under R106. -/
def accPut (k : AccKind) (w : Work) (old : Acc) (x : Num) : Work × Acc :=
  match k with
  | .fp f => let (w1, y) := w.round f .rne false x; (w1, { v := y })
  | .int => (w, clampAcc old x)
  | .wfx => (w, { v := if x.isFinite then x else .nan })

/-- accumulate (acc, s). -/
def accumulate (k : AccKind) (w : Work) (acc : Acc) (s : Num) : Work × Acc := accPut k w acc (acc.v.add s)

/-- The exact sum of the products of one granule: `n` from `k`. -/
def granuleSum (a b : Nat → Num) (k n : Nat) : Num :=
  (List.range' k n).foldl (fun s i => s.add ((a i).mul (b i))) .zero

/-- The element procedure of R98 over K products, in granules of g. -/
def element (kind : AccKind) (g K : Nat) (a b : Nat → Num) (w : Work) (acc : Acc) : Work × Acc :=
  (List.range (ceilDiv K g)).foldl
    (fun (w, acc) i => accumulate kind w acc (granuleSum a b (i * g) (min g (K - i * g)))) (w, acc)

/-- Level 0 (R115): 0 NONE, 1 ADD, 2 MUL. -/
def levelZero (kind : AccKind) (op : Nat) (w : Work) (acc : Acc) (t : Num) : Work × Acc :=
  match op with
  | 1 => accPut kind w acc (acc.v.add t)
  | 2 => accPut kind w acc (acc.v.mul t)
  | _ => (w, acc)

/-! ### The finish stage (R116 to R123) -/

/-- The activation function of R121 on an exact value. -/
def activation (code : Nat) (lo hi x : Num) : Num :=
  match code with
  | 1 => if x.isNaN then .nan else if Num.lt .zero x then x else .zero
  | 2 => fnValue .geluTanh x
  | 3 => fnValue .geluErf x
  | 4 => fnValue .silu x
  | 5 => fnValue .tanh x
  | 6 => fnValue .sigmoid x
  | 7 => fnValue .softplus x
  | 8 => x.mul x
  | 9 => if x.isNaN then .nan else if Num.lt x lo then lo else if Num.lt hi x then hi else x
  | _ => x

/-- RELU and CLAMP are exact, and IDENTITY is off. -/
def actRounds (code : Nat) : Bool := code != 0 && code != 1 && code != 9

/-- What the finish stage of a command does: scale and bias on or off, activation and its bounds. -/
structure Finish where
  acc : AccKind
  scale : Bool := false
  bias : Bool := false
  act : Nat := 0
  lo : Num := .zero
  hi : Num := .zero
  deriving DecidableEq, Repr

/-- Whether the scale stage runs (R116, R118). -/
def Finish.scales (f : Finish) : Bool :=
  f.scale || (match f.acc with
    | .fp _ => false
    | _ => f.bias || f.act != 0)

/-- Whether any stage before the conversion is on. -/
def Finish.on (f : Finish) : Bool := f.scales || f.bias || f.act != 0

/-- The stage that makes the last rounding when the conversion is exact (R119): 3 activation, 2 bias, 1 scale. -/
def Finish.last (f : Finish) : Nat :=
  if actRounds f.act then 3 else if f.bias then 2 else if f.scales then 1 else 0

/-- Whether the conversion out of W is exact (R119). -/
def finishExact (W dst : Fmt) (block : Bool) : Bool := exactPair W dst && !block

/-- One rounding stage in W: RTO unless it is the last. A value that it flushes is counted here as an arithmetic result (R85),
and the store then as a zero; R57 and R63 leave open whether the store counts the loss instead (DESIGN CHOICE, log 128). -/
def stageRound (W : Fmt) (last : Bool) (rnd : Rounding) (r : Nat) (w : Work) (x : Num) : Work × Num :=
  let (y, fl) := if last then roundIn W rnd.mode rnd.sat r x else roundIn W .rto false 0 x
  (if fl then w.arith W 1 else w, y)

/-- The stages before the conversion: the value and the format it then has. `exact` says that the conversion that
follows is exact. -/
def Finish.run (f : Finish) (exact : Bool) (rnd : Rounding) (r : Nat) (w : Work) (x s b : Num) : Work × Num × Fmt :=
  let W := f.acc.working
  if !f.on then (w, x, f.acc.fmt)
  else
    let is (n : Nat) : Bool := exact && f.last == n
    let (w1, x1) := if f.scales then stageRound W (is 1) rnd r w (x.mul (if f.scale then s else .one)) else (w, x)
    let (w2, x2) := if f.bias then stageRound W (is 2) rnd r w1 (x1.add b) else (w1, x1)
    let (w3, x3) :=
      if actRounds f.act then stageRound W (is 3) rnd r w2 (activation f.act f.lo f.hi x2)
      else (w2, activation f.act f.lo f.hi x2)
    (w3, x3, W)

/-! ### GEMM and BGEMM -/

namespace Gemm

def accMode (w : Slot) : Bool := bitAt (w.operand 0x1E 0 8) 0
def preload (w : Slot) : Nat := w.operand 0x1E 1 2
def level (w : Slot) : Nat := w.operand 0x1E 3 2
def act (w : Slot) : Nat := w.operand 0x1F 0 4
def scaleSrc (w : Slot) : Nat := w.operand 0x1F 4 2
def biasSrc (w : Slot) : Nat := w.operand 0x1F 6 2
def rounding (w : Slot) : RMode := .ofCode (w.operand 0x20 0 2)
def sat (w : Slot) : Bool := bitAt (w.operand 0x20 0 8) 2
def kstep (w : Slot) : Nat := w.operand 0x22 0 32

/-- Whether a source is a vector. -/
def isVec (src : Nat) : Bool := src == 1 || src == 2

/-- Whether the command uses h3. -/
def usesH3 (w : Slot) : Bool := preload w == 1 || (level w != 0)

def fields (w : Slot) : FieldMap :=
  { handles := [0, 1, 2] ++ (if usesH3 w then [3] else []) ++ (if isVec (scaleSrc w) then [4] else []) ++
      (if isVec (biasSrc w) then [5] else [])
    sA := scaleSrc w == 3, sB := biasSrc w == 3, sC := act w == 9, sD := act w == 9
    operands := [(0x1E, 0, 5), (0x1F, 0, 8), (0x20, 0, 3), (0x22, 0, 32)] }

/-- The class of the operands. -/
def cls (warm : Bool) (a b : Desc) : Option MClass :=
  match operandClass (a.fmtIn warm) a.blockEn, operandClass (b.fmtIn warm) b.blockEn with
  | some x, some y => pairClass x y
  | _, _ => none

/-- The pairs of exact mode (R105). -/
def exactOk (warm : Bool) (a b : Desc) : Bool :=
  let half (f : Fmt) : Bool := f == .bf16 || f == .fp16
  let int (f : Fmt) : Bool := f == .int8 || f == .int4
  let fa := a.fmtIn warm
  let fb := b.fmtIn warm
  !a.blockEn && !b.blockEn &&
    ((fa == .fp32 && fb == .fp32) || (fa == .fp19 && fb == .fp19) || (half fa && half fb) || (int fa && int fb))

def accOf (w : Slot) (c : MClass) : AccKind := if accMode w then .wfx else c.acc

/-- Extents of a batch dimension: equal or broadcast. -/
def batchOk (a c : Desc) : Bool := (List.range' 2 4).all fun i => a.ext i == c.ext i || a.ext i == 1

/-- The shape of a preload or level-0 tensor (R220, R221). -/
def shapeLike (x c : Desc) : Bool := x.rank == c.rank && x.ext 0 == c.ext 0 && x.ext 1 == c.ext 1 && batchOk x c

/-- The vector's length for a source. -/
def vecOk (src : Nat) (v c : Desc) : Bool := v.rank == 1 && v.ext 0 == (if src = 1 then c.ext 0 else c.ext 1)

/-- The checks on the tensors' shapes and formats. -/
def shapeChecks (rankOk : Nat → Bool) (c : Cmd) (s : State) : List Fail :=
  c.when1 s 0 (fun a => rankOk a.rank) ++ c.when1 s 1 (fun b => rankOk b.rank) ++ c.when1 s 2 (fun d => rankOk d.rank) ++
    c.when2 s 0 1 (fun a b => a.rank == b.rank && a.ext 0 == b.ext 1) ++
    c.when2 s 0 2 (fun a d => a.rank == d.rank && a.ext 1 == d.ext 1 && batchOk a d) ++
    c.when2 s 1 2 (fun b d => b.ext 0 == d.ext 0 && batchOk b d) ++
    c.when2 s 0 1 (fun a b => (cls c.warm a b).isSome) ++
    c.when1 s 0 (fun a => !a.blockEn || a.contig == 0) ++ c.when1 s 1 (fun b => !b.blockEn || b.contig == 1)

/-- The final conversion's pair (R62): from the accumulator where every stage is off, else from W. -/
def dstOk (w : Slot) (k : AccKind) (warm : Bool) (d : Desc) : Bool :=
  let on := scaleSrc w != 0 || biasSrc w != 0 || act w != 0
  pairDefined (if on then k.working else k.fmt) (d.fmtIn warm)

/-- The checks that depend on the class: exactness of h3, the vectors and the destination, the K split (R104 to R110,
R115 to R117). -/
def classChecks (c : Cmd) (s : State) : List Fail :=
  let w := c.slot
  match c.tensor? s 0, c.tensor? s 1 with
  | some a, some b =>
    match cls c.warm a b with
    | none => []
    | some k =>
      let acc := accOf w k
      let K := a.ext 0
      let h3 (d x : Desc) : Bool := shapeLike x d && exactPair (x.pairFmt c.warm) acc.fmt
      let sv (d x : Desc) : Bool := x.kind == 9 && vecOk (scaleSrc w) x d
      let bv (d x : Desc) : Bool := vecOk (biasSrc w) x d && exactPair (x.pairFmt c.warm) acc.working
      need (!accMode w || exactOk c.warm a b) .badDesc (some 0) ++
        need (!accMode w || decide (K ≤ 2 ^ 31)) .badOperand ++
        c.when1 s 2 (fun d => !accMode w || d.fmtIn c.warm == .fp32 || d.fmtIn c.warm == .fp64) ++
        c.when1 s 2 (dstOk w acc c.warm) ++
        (if usesH3 w then c.when2 s 2 3 h3 else []) ++
        (if isVec (scaleSrc w) then c.when2 s 2 4 sv else []) ++
        (if isVec (biasSrc w) then c.when2 s 2 5 bv else []) ++
        need (kstep w = 0 ∨
          (kstep w % k.granule = 0 ∧ kstep w < K ∧ ceilDiv K (kstep w) ≤ 64)) .badOperand
  | _, _ => []

/-- The destination overlaps no tensor that the command uses: no descriptor of an unused slot is read. -/
def overlapChecks (c : Cmd) (s : State) : List Fail :=
  let w := c.slot
  ([0, 1] ++ (if usesH3 w then [3] else []) ++ (if isVec (scaleSrc w) then [4] else []) ++
    (if isVec (biasSrc w) then [5] else [])).flatMap fun i => c.apart s i 2

def checks (rankOk : Nat → Bool) (c : Cmd) (s : State) : List Fail :=
  let w := c.slot
  fieldChecks w (fields w) ++ placeChecks w c.q.team ++ c.tensorFails s false 0 ++ c.tensorFails s false 1 ++
    c.destFails s false 2 ++ (if usesH3 w then c.tensorFails s false 3 else []) ++
    (if isVec (scaleSrc w) then c.tensorFails s false 4 else []) ++
    (if isVec (biasSrc w) then c.tensorFails s false 5 else []) ++
    need (decide (preload w ≤ 1) && level w != 3 && decide (act w ≤ 9)) .badOperand ++
    need (!(preload w == 1 && level w != 0)) .badOperand ++
    need (!(accMode w && (preload w == 1 || level w == 2))) .badOperand ++
    shapeChecks rankOk c s ++ classChecks c s ++ overlapChecks c s

/-- Count the delivery of every element of an operand, in its own format (R84). -/
def countLoads (env : Env) (d : Desc) (w : Work) : Work :=
  (allIdx d.exts).foldl (fun w ix => (w.loadAs env d ix).1) w

/-- Deliver every element of a tensor in the unit's format, counted once: the values by element. -/
def deliver (env : Env) (d : Desc) (unit : Fmt) (w : Work) : Work :=
  (allIdx d.exts).foldl (fun w ix => (w.load env d unit .rne false ix).1) w

/-- A delivered value, without counting. -/
def valueOf (env : Env) (s : State) (d : Desc) (unit : Fmt) (idx : List Nat) : Num :=
  (({ s := s, watch := {}, digest := 0 } : Work).load env d unit .rne false idx).2

/-- The format a scale vector enters: SCE8 by way of FP32 (R60, R117). DEDUCED, log 115. -/
def scaleUnit (env : Env) (d : Desc) (W : Fmt) : Fmt := if d.fmtIn env.warm == .sce8 then .fp32 else W

/-- A scalar register as the finish stage reads it (R117). -/
def scalar (W : Fmt) (v : W64) : Num :=
  if W == .fp64 then (readElem .fp64 v.toNat).val else (readElem .fp32 (v.toNat % 2 ^ 32)).val

/-- Indices of C's element in A, B and a tensor of C's shape. -/
def bcast (d : Desc) (idx : List Nat) (i0 i1 : Nat) : List Nat :=
  (idx.mapIdx fun i x => if 2 ≤ i ∧ d.ext i = 1 then 0 else x).set 0 i0 |>.set 1 i1

/-- The tensors of one command, where present. -/
structure Parts where
  a : Desc
  b : Desc
  d : Desc
  h3 : Option Desc
  sv : Option Desc
  bv : Option Desc

/-- One output element: its accumulator before level 0, level 0, and the finish stage up to the conversion. -/
def outElem (env : Env) (c : Cmd) (k : MClass) (p : Parts) (fin : Finish) (rnd : Rounding) (exact : Bool) (s0 : State)
    (w : Work) (idx : List Nat) : Work × Item :=
  let sl := c.slot
  let W := fin.acc.working
  let i := idx.getD 1 0
  let j := idx.getD 0 0
  let t : Num := match p.h3 with
    | some x => valueOf env s0 x fin.acc.fmt (bcast x idx j i)
    | none => .zero
  let start : Acc := if preload sl = 1 then { v := t } else {}
  let av (n : Nat) : Num := (s0.elemAt p.a (p.a.fmtIn env.warm) (bcast p.a idx n i)).val
  let bv (n : Nat) : Num := (s0.elemAt p.b (p.b.fmtIn env.warm) (bcast p.b idx j n)).val
  let (w1, acc1) := element fin.acc k.granule (p.a.ext 0) av bv w start
  let (w2, acc) := levelZero fin.acc (level sl) w1 acc1 t
  let vec (src : Nat) (x : Option Desc) (unit : Desc → Fmt) (reg : W64) : Num :=
    match x with
    | some d => valueOf env s0 d (unit d) [if src = 1 then j else i]
    | none => scalar W reg
  let sVal := vec (scaleSrc sl) p.sv (fun d => scaleUnit env d W) (c.reg sl.sA)
  let bVal := vec (biasSrc sl) p.bv (fun _ => W) (c.reg sl.sB)
  let r := if rnd.mode = .sr then convDraw env.seed env.step p.d idx else 0
  let (w3, v, f) := fin.run exact rnd r w2 acc.v sVal bVal
  (w3, { idx := idx, elem := { val := v, satFlag := acc.sat }, from_ := f })

/-- The output elements of one command, in the element order of C, with the state before the command. -/
def outAll (env : Env) (c : Cmd) (k : MClass) (p : Parts) (fin : Finish) (rnd : Rounding) (s0 : State) (w : Work) :
    Work × List Item :=
  let exact := finishExact fin.acc.working (p.d.fmtIn env.warm) p.d.blockEn
  (allIdx p.d.exts).foldl (fun (w, items) ix =>
    let (w1, it) := outElem env c k p fin rnd exact s0 w ix
    (w1, items ++ [it])) (w, [])

/-- The start check of CLAMP's bounds (R122, R202). -/
def boundsOk (w : Slot) (lo hi : Num) : Bool := act w != 9 || Num.le lo hi

/-- Work units of a GEMM: the parts of every output tile (R110, R214). -/
def gemmUnits (w : Slot) (d : Desc) (K : Nat) : Nat := d.tiles * (if kstep w = 0 then 1 else ceilDiv K (kstep w))

def body (c : Cmd) (s : State) : Res :=
  let sl := c.slot
  match c.tensor? s 0, c.tensor? s 1, c.tensor? s 2 with
  | some a, some b, some d =>
    match cls c.warm a b with
    | none => .fail .badDesc (some 0)
    | some k =>
      let acc := accOf sl k
      let W := acc.working
      let lo := scalar W (c.reg sl.sC)
      let hi := scalar W (c.reg sl.sD)
      if !boundsOk sl lo hi then .fail .badOperand none
      else
        let p : Parts := { a := a, b := b, d := d, h3 := if usesH3 sl then c.tensor? s 3 else none
                           sv := if isVec (scaleSrc sl) then c.tensor? s 4 else none
                           bv := if isVec (biasSrc sl) then c.tensor? s 5 else none }
        let env := Env.of c.job
        let fin : Finish := { acc := acc, scale := scaleSrc sl != 0, bias := biasSrc sl != 0, act := act sl, lo := lo, hi := hi }
        let rnd := storeRounding none d (rounding sl) (sat sl)
        c.work s (gemmUnits sl d (a.ext 0)) (if d.count = 0 then [] else c.spans ([a, b] ++ p.h3.toList ++ p.sv.toList ++ p.bv.toList)) fun w =>
          if d.count = 0 then (w, 0)
          else
            let w1 := countLoads env b (countLoads env a w)
            let w2 := p.h3.toList.foldl (fun w x => deliver env x acc.fmt w) w1
            let w3 := p.sv.toList.foldl (fun w x => deliver env x (scaleUnit env x W) w) w2
            let w4 := p.bv.toList.foldl (fun w x => deliver env x W w) w3
            let (w5, items) := outAll env c k p fin rnd s w4
            (w5.putItems env d rnd items, (items.filter fun i => i.elem.satFlag).length)
  | _, _, _ => .fail .badHandle none

end Gemm

def execGemm (q : Nat) (s : State) : Host.Outcome State Fault Refusal :=
  .next (s.runMacro (State.isOp .gemm) (Gemm.checks (· == 2)) Gemm.body q)

def execBgemm (q : Nat) (s : State) : Host.Outcome State Fault Refusal :=
  .next (s.runMacro (State.isOp .bgemm) (Gemm.checks fun r => decide (3 ≤ r) && decide (r ≤ 6)) Gemm.body q)

/-! ### BWD2 -/

namespace Bwd

def sel (w : Slot) : Nat := w.operand 0x1E 0 2
def accum (w : Slot) : Bool := bitAt (w.operand 0x1E 0 8) 2
def level (w : Slot) : Nat := w.operand 0x1E 3 2
def dxScale (w : Slot) : Nat := w.operand 0x1F 0 2
def dwScale (w : Slot) : Nat := w.operand 0x1F 2 2
/-- Whether the command computes dX, and dW (R129). -/
def dx (w : Slot) : Bool := sel w != 2
def dw (w : Slot) : Bool := sel w != 1

/-- A level-0 tensor named while the level-0 operation is NONE is an unused slot in use, and an operation without one has no
tensor; R222 says only "level-0 tensor for dX, or 0xFF_FFFF" (DESIGN CHOICE, log 129). -/
def fields (w : Slot) : FieldMap :=
  { handles := [0, 1, 2] ++ (if dx w then [3] else []) ++ (if dw w then [4] else []) ++
      (if dx w && level w != 0 then [5] else [])
    sA := dx w && dxScale w == 3, sB := dw w && dwScale w == 3
    operands := [(0x1E, 5, 3), (0x1E, 0, 2)] ++ (if dx w then [(0x1E, 3, 2), (0x1F, 0, 2)] else []) ++
      (if dw w then [(0x1E, 2, 1), (0x1F, 2, 2)] else []) }

/-- The format an operand is delivered in (R130); none where it is refused. -/
def unitOf (warm : Bool) (dy : Bool) (d : Desc) : Option Fmt :=
  let f := d.fmtIn warm
  if d.blockEn then (if f.isFloat || f == .int8 then some .bf16 else none)
  else
    match f with
    | .bf16 => some .bf16
    | .fp16 => some .fp16
    | .fp32 => some .bf16
    | .fp19 => if dy then none else some .bf16
    | .fp8e4 => if dy then none else some .bf16
    | .fp8e5 => if dy then none else some .bf16
    | _ => none

/-- The train-mask handle of the dW destination, where there is one (R140). -/
def maskHandle (c : Cmd) (s : State) : Option Nat :=
  if !dw c.slot then none
  else
    match c.tensor? s 4 with
    | some d => if d.mask = noHandle then none else some d.mask
    | none => none

def mask? (c : Cmd) (s : State) : Option Desc := (maskHandle c s).map (s.descAt c.job)

/-- The checks of the train mask; each names handle slot 4. -/
def maskChecks (c : Cmd) (s : State) : List Fail :=
  match maskHandle c s with
  | none => []
  | some h =>
    if !State.handleOk c.job h then [(.badHandle, some 4)]
    else
      let m := s.descAt c.job h
      if !m.ok then [(.badDesc, some 4)]
      else
        let fp := m.footprint c.warm
        need (!overlap fp (State.stashRegion c.job)) .badDesc (some 4) ++ s.accessChecks c.q.team fp (some 4) ++
          (match c.tensor? s 1 with
            | some wt => need (m.kind == 0 && m.fmtCode == Fmt.int32.code && !m.tiled && m.rank == 2 &&
                m.ext 1 == ceilDiv (wt.ext 1) 32 && m.ext 0 == wt.ext 0) .badDesc (some 4)
            | none => []) ++
          ((if dx c.slot then [3] else []) ++ [4]).flatMap fun i => match c.tensor? s i with
            | some d => need (!overlap fp (d.footprint c.warm)) .badDesc (some 4)
            | none => []

def checks (c : Cmd) (s : State) : List Fail :=
  let w := c.slot
  let rank2 (d : Desc) : Bool := d.rank == 2
  fieldChecks w (fields w) ++ placeChecks w c.q.team ++ (List.range 3).flatMap (c.tensorFails s false) ++
    (if dx w then c.destFails s false 3 else []) ++ (if dw w then c.destFails s false 4 else []) ++
    (if dx w && level w != 0 then c.tensorFails s false 5 else []) ++
    need (sel w != 3 && level w != 3) .badOperand ++
    need ((dxScale w == 0 || dxScale w == 3) && (dwScale w == 0 || dwScale w == 3)) .badOperand ++
    (List.range 3).flatMap (fun i => c.when1 s i rank2) ++
    c.when1 s 0 (fun d => d.kind == 6) ++
    c.when1 s 0 (fun d => (unitOf c.warm true d).isSome) ++ c.when1 s 1 (fun d => (unitOf c.warm false d).isSome) ++
    c.when1 s 2 (fun d => (unitOf c.warm false d).isSome) ++
    c.when2 s 0 2 (fun y x => y.ext 1 == x.ext 1) ++ c.when2 s 1 2 (fun a x => a.ext 1 == x.ext 0) ++
    c.when2 s 0 1 (fun y a => y.ext 0 == a.ext 0) ++
    (if dx w then
      c.when1 s 3 (fun d => rank2 d && d.kind == 6) ++
        c.when2 s 2 3 (fun x d => x.ext 0 == d.ext 0 && x.ext 1 == d.ext 1) ++
        (if level w != 0 then
          c.when2 s 2 5 (fun x d => rank2 d && d.ext 1 == x.ext 1 && d.ext 0 == x.ext 0 &&
            exactPair (d.pairFmt c.warm) .fp32)
        else []) ++
        ([0, 1, 2] ++ (if level w != 0 then [5] else [])).flatMap fun i => c.apart s i 3
    else []) ++
    (if dw w then
      c.when1 s 4 (fun d => rank2 d && d.kind == 7) ++
        c.when2 s 1 4 (fun a d => a.ext 0 == d.ext 0 && a.ext 1 == d.ext 1) ++
        ([0, 1, 2] ++ (if dx w then [3] else []) ++ (if dx w && level w != 0 then [5] else [])).flatMap fun i => c.apart s i 4
    else []) ++ maskChecks c s

/-- Whether a dW element is trained (R140). The mask's reads are not counted as loads: R84 names no count for them (DESIGN
CHOICE, log 126). -/
def trained (s : State) (m : Option Desc) (k n : Nat) : Bool :=
  match m with
  | some d => bitAt (s.rawAt d .int32 [n, k / 32]) (k % 32)
  | none => true

/-- The dX elements: dY · Wᵀ over n, level 0, the scale stage (R133, R134, R136). With N = 0, R133 has no panel and so no work
unit: the elements are still written, from an accumulator of +0 (DESIGN CHOICE, log 130). -/
def dxItems (env : Env) (c : Cmd) (y wt : Desc) (uy uw : Fmt) (h5 : Option Desc) (d : Desc) (rnd : Rounding)
    (s0 : State) (w : Work) : Work × List Item :=
  let fin : Finish := { acc := .fp .fp32, scale := dxScale c.slot != 0 }
  let exact := finishExact .fp32 (d.fmtIn env.warm) false
  let sv := Gemm.scalar .fp32 (c.reg c.slot.sA)
  (allIdx d.exts).foldl (fun (w, items) ix =>
    let k := ix.getD 0 0
    let m := ix.getD 1 0
    let (w1, acc1) := element (.fp .fp32) 2 (y.ext 0) (fun n => Gemm.valueOf env s0 y uy [n, m])
      (fun n => Gemm.valueOf env s0 wt uw [n, k]) w {}
    let t : Num := match h5 with
      | some x => Gemm.valueOf env s0 x .fp32 [k, m]
      | none => .zero
    let (w2, acc) := levelZero (.fp .fp32) (level c.slot) w1 acc1 t
    let (w3, v, f) := fin.run exact rnd (convDraw env.seed env.step d ix) w2 acc.v sv .zero
    (w3, items ++ [({ idx := ix, elem := { val := v }, from_ := f } : Item)])) (w, [])

/-- The dW elements: Xᵀ · dY over m, the scale stage, and the accumulation of R138 for the elements kept. -/
def dwItems (env : Env) (c : Cmd) (y x : Desc) (uy ux : Fmt) (m : Option Desc) (d : Desc) (rnd : Rounding)
    (s0 : State) (w : Work) : Work × List Item :=
  let fin : Finish := { acc := .fp .fp32, scale := dwScale c.slot != 0 }
  let exact := !accum c.slot && finishExact .fp32 (d.fmtIn env.warm) false
  let sv := Gemm.scalar .fp32 (c.reg c.slot.sB)
  (allIdx d.exts).foldl (fun (w, items) ix =>
    let n := ix.getD 0 0
    let k := ix.getD 1 0
    let (w1, acc) := element (.fp .fp32) 2 (x.ext 1) (fun i => Gemm.valueOf env s0 x ux [k, i])
      (fun i => Gemm.valueOf env s0 y uy [n, i]) w {}
    let (w2, v, f) := fin.run exact rnd (convDraw env.seed env.step d ix) w1 acc.v sv .zero
    if trained s0 m k n then
      let v1 := if accum c.slot then (s0.elemAt d (d.fmtIn env.warm) ix).val.add v else v
      (if accum c.slot then w2.noteRead (d.spans env.warm [ix]) else w2,
        items ++ [({ idx := ix, elem := { val := v1 }, from_ := f } : Item)])
    else (w2, items)) (w, [])

/-- Tiles of a panel (R132): the panel field's width, or, for 0, the widest power of two up to 64 that still gives every
cluster of the team a unit, else 1. -/
def panelWidth (c : Cmd) (kt nt : Nat) : Nat :=
  let v := c.slot.operand 0x1E 5 3
  let team := 8 * ((List.range 100).filter (teamHas c.q.team)).length
  if v ≠ 0 then 2 ^ (v - 1)
  else ((List.range 7).reverse.find? fun k => decide (team ≤ kt * ceilDiv nt (2 ^ k))).elim 1 (2 ^ ·)

/-- Work units of a BWD2: strips kb times panels (R133, R214). -/
def workUnits (c : Cmd) (wt : Desc) : Nat :=
  let kt := ceilDiv (wt.ext 1) 32
  let nt := ceilDiv (wt.ext 0) 32
  kt * ceilDiv nt (panelWidth c kt nt)

def body (c : Cmd) (s : State) : Res :=
  let sl := c.slot
  match c.tensor? s 0, c.tensor? s 1, c.tensor? s 2 with
  | some y, some wt, some x =>
    match unitOf c.warm true y, unitOf c.warm false wt, unitOf c.warm false x with
    | some uy, some uw, some ux =>
      let env := Env.of c.job
      let dxD := if dx sl then c.tensor? s 3 else none
      let dwD := if dw sl then c.tensor? s 4 else none
      let h5 := if dx sl && level sl != 0 then c.tensor? s 5 else none
      let m := mask? c s
      -- with an extent of 0 no work unit delivers an operand (R133)
      let units : Bool := y.count != 0 && wt.count != 0 && x.count != 0
      let give (d : Desc) (u : Fmt) (w : Work) : Work := if units then Gemm.deliver env d u w else w
      let reads := if units then [y] ++ (if dx sl then [wt] else []) ++ (if dw sl then [x] else []) else []
      c.work s (workUnits c wt) (c.spans (reads ++ h5.toList ++ m.toList)) fun w =>
        let w1 := give y uy w
        let w2 := match dxD with
          | some d =>
            let rnd := storeRounding none d .rne false
            let wa := give wt uw w1
            let wb := h5.toList.foldl (fun w t => Gemm.deliver env t .fp32 w) wa
            let (wc, items) := dxItems env c y wt uy uw h5 d rnd s wb
            wc.putItems env d rnd items
          | none => w1
        match dwD with
        | some d =>
          let rnd := storeRounding none d .rne false
          let wa := give x ux w2
          let (wb, items) := dwItems env c y x uy ux m d rnd s wa
          (wb.putItems env d rnd items, d.count - items.length)
        | none => (w2, 0)
    | _, _, _ => .fail .badDesc none
  | _, _, _ => .fail .badHandle none

end Bwd

def execBwd2 (q : Nat) (s : State) : Host.Outcome State Fault Refusal :=
  .next (s.runMacro (State.isOp .bwd2) Bwd.checks Bwd.body q)

end Sys2Proof.Machine
end

