-- ==== Sys2Proof/Machine/Rows.lean ====
section
/-! DEFINITION. The reduction unit: REDUCE and ARGRED (R124 to R126, R224, R225, R234), and the row operations NORM,
NORMB, SMAX and SMAXB (R146 to R151, R226). -/

namespace Sys2Proof.Machine

/-! ### Accumulators and elements of the reduction unit -/

/-- The accumulator of R124 for an input, or the exact one. -/
def reduceAcc (warm : Bool) (a : Desc) (exact : Bool) : AccKind :=
  if exact then .wfx
  else
    let f := a.fmtIn warm
    if a.blockEn then .fp .fp32
    else if f == .fp64 then .fp .fp64
    else if f.isInt then .int
    else .fp .fp32

/-- The unit format of a delivered element: SCE8 enters by way of FP32 (R60), every other format keeps its own.
DEDUCED, log 115. -/
def reduceLoad (env : Env) (a : Desc) (w : Work) (idx : List Nat) : Work × Num :=
  if a.fmtIn env.warm == .sce8 then w.load env a .fp32 .rne false idx else w.loadAs env a idx

/-- The elements along dimension d of the row of an output index. -/
def lineIdx (a : Desc) (d : Nat) (idx : List Nat) : List (List Nat) := (List.range (a.ext d)).map fun k => idx.set d k

/-- Work units of an operation on rows along d: a row of more than 65,536 elements in segments (R214). -/
def rowUnits (a : Desc) (d : Nat) : Nat := (allIdx (a.exts.set d 1)).length * max 1 (ceilDiv (a.ext d) 65536)

/-- Load a line in ascending order. -/
def loadLine (env : Env) (a : Desc) (w : Work) (cells : List (List Nat)) : Work × List Num :=
  cells.foldl (fun (w, xs) ix =>
    let (w1, x) := reduceLoad env a w ix
    (w1, xs ++ [x])) (w, [])

/-- Σ x under R124. -/
def sumLine (k : AccKind) (w : Work) (xs : List Num) : Work × Acc :=
  xs.foldl (fun (w, acc) x => accumulate k w acc x) (w, {})

/-- max |x|, with NaN under rule 1 of R125 (R126). -/
def amaxLine (xs : List Num) : Num :=
  if xs.any Num.isNaN then .nan else xs.foldl (fun m x => Num.maxR m x.abs) .zero

/-- The magnitude 2^31 does not fit the INT32 accumulator, and the spec gives no value for it: a free value (DESIGN CHOICE, log
34). DESIGN CHOICE, log 34. -/
def amaxInt (w : Work) (v : Num) : Work × Num :=
  if Num.lt v (.fin false 1 31) then (w, v)
  else
    let (x, s) := w.s.fresh
    ({ w with s := s }, .ofInt (signedOf 32 x.toNat))

/-- One line's result (R124, R126): 0 SUM, 1 SUMSQ, 2 AMAX, for which a block-scaled element enters in FP32, a flush counted
there (R70, R85). -/
def reduceLine (k : AccKind) (block : Bool) (op : Nat) (w : Work) (xs : List Num) : Work × Acc :=
  match op with
  | 0 => sumLine k w xs
  | 1 => sumLine k w (xs.map fun x => x.mul x)
  | _ =>
    let (w1, ys) := if block then xs.foldl (fun (w, ys) x =>
        let (w1, y) := w.round .fp32 .rne false x
        (w1, ys ++ [y])) (w, []) else (w, xs)
    let v := amaxLine ys
    if k = .int then
      let (w2, y) := amaxInt w1 v
      (w2, { v := y })
    else (w1, { v := v })

namespace Reduce

def toScalar (w : Slot) : Bool := bitAt (w.operand 0x1E 0 8) 7
def exact (w : Slot) : Bool := bitAt (w.operand 0x1E 0 8) 6
def dim (w : Slot) : Nat := w.operand 0x1E 3 3
def op (w : Slot) : Nat := w.operand 0x1E 1 2
def sat (w : Slot) : Bool := bitAt (w.operand 0x1E 0 8) 0

def hasOut (w : Slot) (i : Nat) : Bool := w.handle i != noHandle

/-- The formats of exact mode (R105) and INT32. -/
def exactFmt (warm : Bool) (a : Desc) : Bool :=
  !a.blockEn && [Fmt.fp32, .fp19, .bf16, .fp16, .int8, .int4, .int32].contains (a.fmtIn warm)

/-- An output's extents: the input's with 1 at d. -/
def outShape (d : Nat) (a o : Desc) : Bool := o.exts == a.exts.set d 1

/-- to_scalar requires a single line. -/
def oneLine (d : Nat) (a : Desc) : Bool := (a.exts.set d 1).all (· == 1)

/-- A dimension at or above the rank has extent 1 (R207). The limit on K of R106 is not put to the reduced length: R104 to R107
are R124's exact mode, but R106 rejects a K, which REDUCE does not have (DESIGN CHOICE, log 127). -/
def checks (c : Cmd) (s : State) : List Fail :=
  let w := c.slot
  fieldChecks w { handles := [0, 1], sA := true, operands := [(0x1E, 0, 8), (0x1F, 0, 2)] } ++
    placeChecks w c.q.team ++ c.tensorFails s false 0 ++ c.destFails s true 1 ++ need (op w != 3) .badOperand ++
    need (toScalar w || hasOut w 1) .badOperand ++ need (!exact w || op w == 0) .badOperand ++
    (match c.tensor? s 0 with
      | some a =>
        need (!toScalar w || oneLine (dim w) a) .badDesc (some 0) ++ need (!exact w || exactFmt c.warm a) .badDesc (some 0)
      | none => []) ++
    c.when2 s 0 1 (outShape (dim w)) ++
    c.when2 s 0 1 (fun a o => pairDefined (reduceAcc c.warm a (exact w)).fmt (o.fmtIn c.warm))

/-- The 64 bits that a result takes in a scalar register (R234). -/
def scalarBits (k : AccKind) (v : Num) : W64 :=
  match k with
  | .int => BitVec.ofInt 64 v.toInt
  | _ =>
    match Fmt.spec .fp64 with
    | some f => BitVec.ofNat 64 (f.encode (rne .fp64 v))
    | none => 0

/-- Write a scalar register of the queue. -/
def setReg (s : State) (q i : Nat) (v : W64) : State :=
  { s with queues := s.queues.map fun x => if x.id == q then { x with sregs := x.sregs.set i v } else x }

/-- Every line's result, in the order of the output's elements. -/
def results (env : Env) (k : AccKind) (opc d : Nat) (a : Desc) (w : Work) : Work × List (List Nat × Acc) :=
  (allIdx (a.exts.set d 1)).foldl (fun (w, rs) ix =>
    let (w1, xs) := loadLine env a w (lineIdx a d ix)
    let (w2, r) := reduceLine k a.blockEn opc w1 xs
    (w2, rs ++ [(ix, r)])) (w, [])

def body (c : Cmd) (s : State) : Res :=
  let sl := c.slot
  match c.tensor? s 0 with
  | some a =>
    let env := Env.of c.job
    let k := reduceAcc c.warm a (exact sl)
    let out := if hasOut sl 1 then c.tensor? s 1 else none
    c.work s (rowUnits a (dim sl)) (c.spans [a]) fun w =>
      let (w1, rs) := results env k (op sl) (dim sl) a w
      let w2 := match out with
        | some o =>
          w1.putItems env o (storeRounding none o (.ofCode (sl.operand 0x1F 0 2)) (sat sl))
            (rs.map fun r => { idx := r.1, elem := { val := r.2.v, satFlag := r.2.sat }, from_ := k.fmt })
        | none => w1
      let w3 := if toScalar sl then
          match rs with
          | r :: _ => { w2 with s := setReg w2.s c.q.id sl.sA (scalarBits k r.2.v) }
          | [] => w2
        else w2
      (w3, (rs.filter fun r => r.2.sat).length)
  | none => .fail .badHandle none

end Reduce

def execReduce (q : Nat) (s : State) : Host.Outcome State Fault Refusal :=
  .next (s.runMacro (State.isOp .reduce) Reduce.checks Reduce.body q)

namespace Argred

def dim (w : Slot) : Nat := w.operand 0x1E 1 3
def minOp (w : Slot) : Bool := bitAt (w.operand 0x1E 0 8) 0

/-- The choice of R125: the value, its index, and whether there was an element. -/
def choose (min : Bool) (xs : List Num) : Num × Nat :=
  match xs.findIdx? Num.isNaN with
  | some i => (.nan, i)
  | none =>
    match xs with
    | [] => (.inf (!min), 0xFFFF_FFFF)
    | x :: rest =>
      (rest.foldl (fun (acc : (Num × Nat) × Nat) y =>
        let better := if min then Num.lt y acc.1.1 else Num.lt acc.1.1 y
        ((if better then (y, acc.2) else acc.1), acc.2 + 1)) ((x, 0), 1)).1

def checks (c : Cmd) (s : State) : List Fail :=
  let w := c.slot
  let ts := Reduce.toScalar w
  fieldChecks w { handles := [0, 1, 2], sA := true, sB := true, operands := [(0x1E, 0, 4), (0x1E, 7, 1)] } ++
    placeChecks w c.q.team ++ c.tensorFails s false 0 ++ c.destFails s true 1 ++ c.destFails s true 2 ++
    need (ts || Reduce.hasOut w 1 || Reduce.hasOut w 2) .badOperand ++
    (match c.tensor? s 0 with
      | some a =>
        need (!ts || Reduce.oneLine (dim w) a) .badDesc (some 0)
      | none => []) ++
    c.when2 s 0 1 (Reduce.outShape (dim w)) ++ c.when2 s 0 2 (Reduce.outShape (dim w)) ++
    c.when2 s 0 1 (fun a o => a.fmtCode == o.fmtCode && !o.blockEn && pairDefined (a.pairFmt c.warm) (o.fmtIn c.warm)) ++
    c.when1 s 2 (fun o => o.kind == 10)

/-- The bits of the value in sA: an integer element is sign-extended, any other value is FP64 (R234). -/
def scalarBits (f : Fmt) (v : Num) : W64 :=
  if f.isInt && v.isFinite then BitVec.ofInt 64 v.toInt else Reduce.scalarBits (.fp .fp64) v

def results (env : Env) (min : Bool) (d : Nat) (a : Desc) (w : Work) : Work × List (List Nat × Num × Nat) :=
  (allIdx (a.exts.set d 1)).foldl (fun (w, rs) ix =>
    let (w1, xs) := loadLine env a w (lineIdx a d ix)
    (w1, rs ++ [(ix, choose min xs)])) (w, [])

def body (c : Cmd) (s : State) : Res :=
  let sl := c.slot
  match c.tensor? s 0 with
  | some a =>
    let env := Env.of c.job
    let f := a.fmtIn c.warm
    let vo := if Reduce.hasOut sl 1 then c.tensor? s 1 else none
    let io := if Reduce.hasOut sl 2 then c.tensor? s 2 else none
    c.work s (rowUnits a (dim sl)) (c.spans [a]) fun w =>
      let (w1, rs) := results env (minOp sl) (dim sl) a w
      let w2 := match vo with
        | some o => w1.putItems env o (storeRounding none o .rne false)
            (rs.map fun r => { idx := r.1, elem := { val := r.2.1 }, from_ := f })
        | none => w1
      let w3 := match io with
        | some o => rs.foldl (fun w r => w.putBits (o.bitAddr .int32 r.1) 32 (r.2.2 % 2 ^ 32)) w2
        | none => w2
      let w4 := if Reduce.toScalar sl then
          match rs with
          | r :: _ =>
            let s1 := Reduce.setReg w3.s c.q.id sl.sA (scalarBits (if a.blockEn then .fp32 else f) r.2.1)
            { w3 with s := Reduce.setReg s1 c.q.id sl.sB (BitVec.ofNat 64 r.2.2) }
          | [] => w3
        else w3
      (w4, 0)
  | none => .fail .badHandle none

end Argred

def execArgred (q : Nat) (s : State) : Host.Outcome State Fault Refusal :=
  .next (s.runMacro (State.isOp .argred) Argred.checks Argred.body q)

/-! ### NORM, NORMB, SMAX and SMAXB -/

namespace Rows

/-- Round to FP32 with RNE, counting a flush (R150). -/
def r32 (w : Work) (x : Num) : Work × Num := w.round .fp32 .rne false x

def lenNum (l : Nat) : Num := .fin false l 0

/-- Whether an input may be read by a row operation (R146). -/
def inputOk (warm : Bool) (d : Desc) : Bool := d.blockEn || (d.fmtIn warm != .fp64 && pairDefined (d.fmtIn warm) .fp32)

def vecOk (warm : Bool) (x v : Desc) : Bool := v.rank == 1 && v.ext 0 == x.ext 0 && exactPair (v.pairFmt warm) .fp32

/-- The rows of a tensor, ascending. -/
def rowsOf (x : Desc) : List (List Nat) := allIdx (x.exts.set 0 1)

/-- Load one row to FP32. -/
def loadRow (env : Env) (x : Desc) (w : Work) (row : List Nat) : Work × List Num :=
  (lineIdx x 0 row).foldl (fun (w, xs) ix =>
    let (w1, v) := w.load env x .fp32 .rne false ix
    (w1, xs ++ [v])) (w, [])

/-- Load a vector to FP32, or take a constant in its place. -/
def loadVec (env : Env) (v : Option Desc) (dflt : Num) (len : Nat) (w : Work) : Work × List Num :=
  match v with
  | some d => (List.range len).foldl (fun (w, xs) k =>
      let (w1, x) := w.load env d .fp32 .rne false [k]
      (w1, xs ++ [x])) (w, [])
  | none => (w, List.replicate len dflt)

/-- norm_stats of R147: mu, r, and whether every statistic is finite (R150). RMS forms no S1. -/
def normStats (rms : Bool) (eps : Num) (w : Work) (xs : List Num) : Work × Num × Num × Bool :=
  let l := lenNum xs.length
  let (w1, s1) := if rms then (w, {}) else sumLine (.fp .fp32) w xs
  let (w2, s2) := sumLine (.fp .fp32) w1 (xs.map fun x => x.mul x)
  let (w3, mu) := if rms then (w2, .zero) else r32 w2 (s1.v.div l)
  let (w4, v0) := r32 w3 (if rms then s2.v.div l else (s2.v.sub (l.mul (mu.mul mu))).div l)
  let v := if Num.lt v0 .zero then .zero else v0
  let (w5, r) := r32 w4 (Num.one.div (Num.sqrt (v.add eps)))
  (w5, mu, r, (rms || s1.v.isFinite) && s2.v.isFinite && mu.isFinite && v.isFinite && r.isFinite)

/-- The items of one output row: canonical NaNs where a statistic is not finite. -/
def rowItems (row : List Nat) (ok : Bool) (vs : List Num) : List Item :=
  vs.mapIdx fun k v => { idx := row.set 0 k, elem := { val := if ok then v else .nan }, from_ := .fp32 }

/-- Elementwise combination of lists. -/
def zip3 (f : Num → Num → Num → Num) (a b c : List Num) : List Num := (a.zip (b.zip c)).map fun x => f x.1 x.2.1 x.2.2

/-- Fold two lists of operands into a rounded sum of terms. -/
def roundedSum (w : Work) (ts : List Num) : Work × Num :=
  ts.foldl (fun (w, acc) t => r32 w (acc.add t)) (w, .zero)

/-- Round every element. -/
def roundAll (w : Work) (ts : List Num) : Work × List Num :=
  ts.foldl (fun (w, ys) t =>
    let (w1, y) := r32 w t
    (w1, ys ++ [y])) (w, [])

def epsOf (c : Cmd) : Num := (readElem .fp32 ((c.reg c.slot.sA).toNat % 2 ^ 32)).val

def epsOk (e : Num) : Bool := e.isFinite && Num.lt .zero e

def variant (w : Slot) : Bool := bitAt (w.operand 0x1E 0 8) 2

/-- The checks on row tensors of one command: extents, formats, overlaps of outputs with inputs. -/
def rowChecks (c : Cmd) (s : State) (ins vecs outs : List Nat) : List Fail :=
  ins.flatMap (fun i => c.when1 s i (inputOk c.warm)) ++
    (ins ++ outs).flatMap (fun i => c.when2 s 0 i fun a b => a.exts == b.exts) ++
    vecs.flatMap (fun i => c.when2 s 0 i (vecOk c.warm)) ++
    outs.flatMap fun o => c.when1 s o (fun d => pairDefined .fp32 (d.fmtIn c.warm)) ++
      (ins ++ vecs).flatMap fun i => c.apart s i o

def normChecks (c : Cmd) (s : State) : List Fail :=
  let w := c.slot
  fieldChecks w { handles := [0, 1, 2, 3], sA := true, operands := [(0x1E, 0, 3)] } ++ placeChecks w c.q.team ++
    c.tensorFails s false 0 ++ c.destFails s false 1 ++ c.tensorFails s true 2 ++ c.tensorFails s true 3 ++
    rowChecks c s [0] [2, 3] [1]

/-- Work with the items to be written so far: a command writes its output once, from every row's items (R569). -/
abbrev Pass := Work × List Item

def Pass.put (env : Env) (d : Desc) (rnd : Rounding) (x : Pass) : Work := x.1.putItems env d rnd x.2

def normRow (env : Env) (rms : Bool) (eps : Num) (x : Desc) (g b : List Num) (st : Pass) (row : List Nat) : Pass :=
  let (w, items) := st
  let (w1, xs) := loadRow env x w row
  let (w2, mu, r, ok) := normStats rms eps w1 xs
  (w2, items ++ rowItems row ok (zip3 (fun x g b => (((x.sub mu).mul r).mul g).add b) xs g b))

def normBody (c : Cmd) (s : State) : Res :=
  let sl := c.slot
  let eps := epsOf c
  match c.tensor? s 0, c.tensor? s 1 with
  | some x, some y =>
    if !epsOk eps then .fail .badOperand none
    else
      let env := Env.of c.job
      let gd := c.tensor? s 2
      let bd := c.tensor? s 3
      c.work s (rowUnits x 0) (c.spans ([x] ++ gd.toList ++ bd.toList)) fun w =>
        if x.count = 0 then (w, 0)
        else
          let (w1, g) := loadVec env gd .one (x.ext 0) w
          let (w2, b) := loadVec env bd .zero (x.ext 0) w1
          (Pass.put env y (storeRounding none y (.ofCode (sl.operand 0x1E 0 2)) false)
            ((rowsOf x).foldl (normRow env (variant sl) eps x g b) (w2, [])), 0)
  | _, _ => .fail .badHandle none

def normbChecks (c : Cmd) (s : State) : List Fail :=
  let w := c.slot
  fieldChecks w { handles := [0, 1, 2, 3, 4, 5], sA := true, operands := [(0x1E, 2, 1)] } ++ placeChecks w c.q.team ++
    c.tensorFails s false 0 ++ c.tensorFails s false 1 ++ c.tensorFails s true 2 ++ c.destFails s false 3 ++
    c.destFails s true 4 ++ c.destFails s true 5 ++ rowChecks c s [0, 1] [2] [3] ++
    c.when1 s 3 (fun d => d.kind == 6) ++
    [4, 5].flatMap fun i => c.when1 s i (fun d => d.kind == 7) ++
      c.when2 s 0 i (fun x d => d.rank == 1 && d.ext 0 == x.ext 0) ++
      [0, 1, 2].flatMap fun k => c.apart s k i

/-- One row of NORMB: its items of dx, and the running sums of dγ and dβ, where these are wanted, with their terms (R148). The
statistics whose non-finiteness makes the row NaN are those of norm_stats, Sg (not in RMS), Sgx, c1 and c2; R150 does not
list them (DESIGN CHOICE, log 132). -/
def normbRow (env : Env) (rms : Bool) (eps : Num) (x dy : Desc) (g : List Num) (wantG wantB : Bool)
    (st : Pass × List Num × List Num) (row : List Nat) : Pass × List Num × List Num :=
  let ((w, items), dg, db) := st
  let (w1, xs) := loadRow env x w row
  let (w2, ds) := loadRow env dy w1 row
  let l := lenNum xs.length
  let (w3, mu, r, ok) := normStats rms eps w2 xs
  let (w4, xh) := roundAll w3 (xs.map fun v => (v.sub mu).mul r)
  let (w5, gs) := roundAll w4 ((ds.zip g).map fun p => p.1.mul p.2)
  let (w6, sg) := roundedSum w5 gs
  let (w7, sgx) := roundedSum w6 ((gs.zip xh).map fun p => p.1.mul p.2)
  let (w8, c1) := if rms then (w7, .zero) else r32 w7 (sg.div l)
  let (w9, c2) := r32 w8 (sgx.div l)
  let fin := ok && (rms || sg.isFinite) && sgx.isFinite && c1.isFinite && c2.isFinite
  let outs := rowItems row fin ((gs.zip xh).map fun p => r.mul ((p.1.sub c1).sub (p.2.mul c2)))
  let (w10, dg1) := if wantG then roundAll w9 ((dg.zip (ds.zip xh)).map fun p => p.1.add (p.2.1.mul p.2.2)) else (w9, dg)
  let (w11, db1) := if wantB then roundAll w10 ((db.zip ds).map fun p => p.1.add p.2) else (w10, db)
  ((w11, items ++ outs), dg1, db1)

/-- Add sums into a destination under R138. -/
def addInto (env : Env) (d : Desc) (w : Work) (sums : List Num) : Work :=
  let f := d.fmtIn env.warm
  w.putItems env d (storeRounding none d .rne false)
    (sums.mapIdx fun k v => { idx := [k], elem := { val := (w.s.elemAt d f [k]).val.add v }, from_ := .fp32 })

/-- With no rows, dγ and dβ are left as they are: R148 does not say whether d + 0 is still rounded into them (
DESIGN CHOICE, log 131). -/
def normbBody (c : Cmd) (s : State) : Res :=
  let sl := c.slot
  let eps := epsOf c
  match c.tensor? s 0, c.tensor? s 1, c.tensor? s 3 with
  | some x, some dy, some dx =>
    if !epsOk eps then .fail .badOperand none
    else
      let env := Env.of c.job
      let gd := c.tensor? s 2
      let og := c.tensor? s 4
      let ob := c.tensor? s 5
      c.work s (rowUnits x 0) (c.spans ([x, dy] ++ gd.toList ++ og.toList ++ ob.toList)) fun w =>
        if x.count = 0 then (w, 0)
        else
          let (w1, g) := loadVec env gd .one (x.ext 0) w
          let z := List.replicate (x.ext 0) Num.zero
          let (rows, dg, db) := (rowsOf x).foldl
            (normbRow env (variant sl) eps x dy g og.isSome ob.isSome) ((w1, []), z, z)
          let w2 := rows.put env dx (storeRounding none dx .rne false)
          let w3 := og.toList.foldl (fun w d => addInto env d w dg) w2
          (ob.toList.foldl (fun w d => addInto env d w db) w3, 0)
  | _, _, _ => .fail .badHandle none

/-- What a row of SMAX is before its statistics (R149): NaN, all −Inf, or ordinary with the row maximum. -/
inductive SmaxRow where
  | nan
  | allNegInf
  | max (m : Num)
  deriving DecidableEq, Repr

def smaxKind (zs : List Num) : SmaxRow :=
  if zs.any fun z => z.isNaN || z == .inf false then .nan
  else
    let m := (Argred.choose false zs).1
    if m == .inf true then .allNegInf else .max m

/-- S of smax_stats. -/
def smaxSum (w : Work) (m : Num) (zs : List Num) : Work × Num :=
  let (w1, es) := roundAll w (zs.map fun z => fnValue .exp (z.sub m))
  roundedSum w1 es

def smaxVal (m s z : Num) : Num := expOver (z.sub m) s

def smaxChecks (c : Cmd) (s : State) : List Fail :=
  let w := c.slot
  fieldChecks w { handles := [0, 1], operands := [(0x1E, 0, 2)] } ++ placeChecks w c.q.team ++
    c.tensorFails s false 0 ++ c.destFails s false 1 ++ rowChecks c s [0] [] [1]

def smaxRow (env : Env) (z : Desc) (st : Pass) (row : List Nat) : Pass :=
  let (w, items) := st
  let (w1, zs) := loadRow env z w row
  match smaxKind zs with
  | .nan => (w1, items ++ rowItems row false zs)
  | .allNegInf => (w1, items ++ rowItems row true (zs.map fun _ => .zero))
  | .max m =>
    let (w2, s) := smaxSum w1 m zs
    (w2, items ++ rowItems row s.isFinite (zs.map (smaxVal m s)))

def smaxBody (c : Cmd) (s : State) : Res :=
  match c.tensor? s 0, c.tensor? s 1 with
  | some z, some p =>
    c.work s (rowUnits z 0) (c.spans [z]) fun w =>
      if z.count = 0 then (w, 0)
      else
        let env := Env.of c.job
        (Pass.put env p (storeRounding none p (.ofCode (c.slot.operand 0x1E 0 2)) false)
          ((rowsOf z).foldl (smaxRow env z) (w, [])), 0)
  | _, _ => .fail .badHandle none

def smaxbChecks (c : Cmd) (s : State) : List Fail :=
  let w := c.slot
  fieldChecks w { handles := [0, 1, 2] } ++ placeChecks w c.q.team ++ c.tensorFails s false 0 ++
    c.tensorFails s false 1 ++ c.destFails s false 2 ++ rowChecks c s [0, 1] [] [2] ++
    c.when1 s 2 (fun d => d.kind == 6)

def smaxbRow (env : Env) (z dp : Desc) (st : Pass) (row : List Nat) : Pass :=
  let (w, items) := st
  let (w1, zs) := loadRow env z w row
  let (w2, ds) := loadRow env dp w1 row
  match smaxKind zs with
  | .nan => (w2, items ++ rowItems row false zs)
  | .allNegInf => (w2, items ++ rowItems row true (zs.map fun _ => .zero))
  | .max m =>
    let (w3, s) := smaxSum w2 m zs
    let (w4, ps) := roundAll w3 (zs.map (smaxVal m s))
    let (w5, d) := roundedSum w4 ((ds.zip ps).map fun x => x.1.mul x.2)
    (w5, items ++ rowItems row (s.isFinite && d.isFinite) ((ds.zip ps).map fun x => x.2.mul (x.1.sub d)))

def smaxbBody (c : Cmd) (s : State) : Res :=
  match c.tensor? s 0, c.tensor? s 1, c.tensor? s 2 with
  | some z, some dp, some dz =>
    c.work s (rowUnits z 0) (c.spans [z, dp]) fun w =>
      if z.count = 0 then (w, 0)
      else
        let env := Env.of c.job
        (Pass.put env dz (storeRounding none dz .rne false) ((rowsOf z).foldl (smaxbRow env z dp) (w, [])), 0)
  | _, _, _ => .fail .badHandle none

end Rows

def execNorm (q : Nat) (s : State) : Host.Outcome State Fault Refusal :=
  .next (s.runMacro (State.isOp .norm) Rows.normChecks Rows.normBody q)

def execNormb (q : Nat) (s : State) : Host.Outcome State Fault Refusal :=
  .next (s.runMacro (State.isOp .normb) Rows.normbChecks Rows.normbBody q)

def execSmax (q : Nat) (s : State) : Host.Outcome State Fault Refusal :=
  .next (s.runMacro (State.isOp .smax) Rows.smaxChecks Rows.smaxBody q)

def execSmaxb (q : Nat) (s : State) : Host.Outcome State Fault Refusal :=
  .next (s.runMacro (State.isOp .smaxb) Rows.smaxbChecks Rows.smaxbBody q)

end Sys2Proof.Machine
end

