-- ==== Sys2Proof/Machine/Lanes.lean ====
section
/-! DEFINITION. Lane programs (R160 to R184): their layout, their checks, the instructions, and the macro-ops EWISE and
STENCIL (R174 to R177, R223). Update programs (R278 to R287) run on the same instructions. -/

namespace Sys2Proof.Machine

/-! ### Programs (R163, R280) -/

/-- The parts of a lane or update program. -/
structure Prog where
  /-- The 16 header bytes. -/
  head : Nat
  consts : List W64
  instrs : List Nat
  deriving DecidableEq, Repr

namespace Prog

def version (p : Prog) : Nat := bitsAt p.head 24 8
def width (p : Prog) : Nat := bitsAt p.head 22 2
def nInstr (p : Prog) : Nat := bitsAt p.head 11 11
def nConst (p : Prog) : Nat := bitsAt p.head 7 4
def key (p : Prog) : Nat := bitsAt p.head 4 3
def readMask (p : Prog) : Nat := bitsAt p.head 32 6
def writeMask (p : Prog) : Nat := bitsAt p.head 38 6
def hx (p : Prog) : Nat := bitsAt p.head 48 4
def hy (p : Prog) : Nat := bitsAt p.head 52 4
def hz (p : Prog) : Nat := bitsAt p.head 56 4
def salt (p : Prog) : Nat := bitsAt p.head 64 16
def halo (p : Prog) : List Nat := [p.hx, p.hy, p.hz]

def reads (p : Prog) (i : Nat) : Bool := bitAt p.readMask i
def writes (p : Prog) (i : Nat) : Bool := bitAt p.writeMask i
def uses (p : Prog) (i : Nat) : Bool := p.reads i || p.writes i

/-- Bytes of a program whose header is given. -/
def size (head : Nat) : Nat := 16 + 8 * bitsAt head 7 4 + 4 * bitsAt head 11 11

def load (s : State) (a : Nat) : Prog :=
  let head := s.read a 16
  let nc := bitsAt head 7 4
  { head := head
    consts := (List.range nc).map fun k => s.read64 (a + 16 + 8 * k)
    instrs := (List.range (bitsAt head 11 11)).map fun k => s.read (a + 16 + 8 * nc + 4 * k) 4 }

/-- The lane format of R160. -/
def fmt (p : Prog) : Fmt :=
  match p.width with
  | 0 => .fp64
  | 1 => .fp32
  | _ => .bf16

/-- Elements of a pass. -/
def lanes (p : Prog) : Nat := 16 * 2 ^ p.width

/-- The header checks of R164, or those of R280. -/
def headOk (p : Prog) (update : Bool) : Bool :=
  p.version == (if update then 2 else 1) && decide (p.width < (if update then 2 else 3)) && decide (1 ≤ p.nInstr) &&
    decide (p.nInstr ≤ 1024) && decide (p.nConst ≤ (if update then 8 else 12)) && decide (p.key ≤ 5) &&
    bitsAt p.head 0 4 == 0 && bitsAt p.head 44 4 == 0 && bitsAt p.head 60 4 == 0 && bitsAt p.head 80 48 == 0 &&
    (if update then p.hx == 0 && p.hy == 0 && p.hz == 0
      else decide (p.hx ≤ 8) && decide (p.hy ≤ 8) && decide (p.hz ≤ 8))

end Prog

/-! ### Instructions (R165, R166) -/

namespace LaneI

def op (i : Nat) : Nat := bitsAt i 26 6
def d (i : Nat) : Nat := bitsAt i 21 5
def a (i : Nat) : Nat := bitsAt i 16 5
def b (i : Nat) : Nat := bitsAt i 11 5
def c (i : Nat) : Nat := bitsAt i 6 5
def pm (i : Nat) : Nat := bitsAt i 3 3
def rm (i : Nat) : RMode := .ofCode (bitsAt i 1 2)
def sat (i : Nat) : Bool := bitAt i 0
/-- Stream of LD (bits 20:18) and of ST. -/
def s (i : Nat) : Nat := bitsAt i 18 3
def dz (i : Nat) : Int := signedOf 5 (bitsAt i 13 5)
def dy (i : Nat) : Int := signedOf 5 (bitsAt i 8 5)
def dx (i : Nat) : Int := signedOf 5 (bitsAt i 3 5)
/-- The vector register that ST names. -/
def sa (i : Nat) : Nat := bitsAt i 21 5

/-- Whether the instruction draws (R182). -/
def draws (i : Nat) : Bool := op i == 0x28 || op i == 0x29 || (op i == 0x0D && rm i == .sr)

/-- Draw units that the instruction consumes in a width (R182). -/
def units (width i : Nat) : Nat :=
  if op i = 0x28 then (if width = 0 then 4 else if width = 1 then 2 else 1)
  else if op i = 0x29 then 2
  else if op i = 0x0D ∧ rm i = .sr then 1
  else 0

/-- Which of the fields d, a, b, c an opcode uses, or none where it is reserved. -/
def shape (o : Nat) : Option (Bool × Bool × Bool × Bool) :=
  if o = 0 then some (false, false, false, false)
  else if o ≤ 3 ∨ o = 6 ∨ o = 8 ∨ o = 9 ∨ (0x18 ≤ o ∧ o ≤ 0x1A) then some (true, true, true, false)
  else if o = 4 ∨ o = 5 ∨ o = 0x10 ∨ o = 0x11 ∨ o = 0x12 ∨ o = 0x1B ∨ o = 0x1C ∨ o = 0x1D then some (true, true, true, true)
  else if o = 7 ∨ o = 0xA ∨ o = 0xB ∨ o = 0x1E ∨ o = 0x1F ∨ o = 0x13 then some (true, true, false, false)
  else if o = 0xC ∨ o = 0xD then some (true, true, false, true)
  else if o = 0x14 then some (true, false, false, true)
  else if o = 0x28 ∨ o = 0x29 then some (true, false, false, false)
  else none

/-- The use of rm and sat (R166): 0 neither, 1 rm, 2 both. -/
def rmUse (o : Nat) : Nat :=
  if (1 ≤ o ∧ o ≤ 6) ∨ o = 0xC ∨ o = 0xD ∨ o = 0x20 ∨ o = 0x21 then 2
  else if o = 7 ∨ o = 0x1E ∨ o = 0x1F then 1
  else 0

/-- Whether the code in c (or the other special fields) is allowed. -/
def codesOk (width : Nat) (update : Bool) (i : Nat) : Bool :=
  let o := op i
  if o = 0xC then decide (c i ≤ 14)
  else if o = 0xD then
    let allowed : List Nat := if width = 0 then [1, 2, 3, 4, 5, 6, 7, 8, 9]
      else if width = 1 then [2, 3, 4, 5, 6, 7, 8, 9] else [5, 6, 7, 8, 9]
    allowed.contains (c i)
  else if o = 0x10 then decide (1 ≤ d i) && decide (d i ≤ 7) && decide (c i ≤ 5)
  else if o = 0x11 then decide (c i ≤ 7)
  else if o = 0x12 then decide (1 ≤ d i) && decide (d i ≤ 7) && decide (a i ≤ 7) && decide (b i ≤ 7) && decide (c i ≤ 3)
  else if o = 0x13 then decide (a i ≤ 15)
  else if o = 0x14 then decide (c i ≤ 5) && !update
  else if o = 0x1B ∨ o = 0x1C then decide (c i ≤ 2)
  else if o = 0x1D then decide (1 ≤ d i) && decide (d i ≤ 7) && decide (c i ≤ 3)
  else true

/-- Whether SR may stand in rm (R167). -/
def srOk (width i : Nat) : Bool :=
  rm i != .sr || op i == 0x20 || op i == 0x21 || (op i == 0x0D && decide (width ≤ 1))

/-- The checks of R164 on one instruction. -/
def ok (p : Prog) (update : Bool) (i : Nat) : Bool :=
  let o := op i
  let w := p.width
  let rs := match rmUse o with
    | 0 => bitsAt i 0 3 == 0
    | 1 => !sat i
    | _ => true
  if o = 0x20 then
    srOk w i && decide (s i ≤ 5) && p.reads (s i) && decide ((dx i).natAbs ≤ p.hx) && decide ((dy i).natAbs ≤ p.hy) &&
      decide ((dz i).natAbs ≤ p.hz)
  else if o = 0x21 then srOk w i && decide (s i ≤ 5) && p.writes (s i) && bitsAt i 6 12 == 0
  else
    match shape o with
    | none => false
    | some (ud, ua, ub, uc) =>
      (o != 0 || i == 0) && (ud || d i == 0) && (ua || a i == 0) && (ub || b i == 0) && (uc || c i == 0) && rs &&
        srOk w i && codesOk w update i && (!((0x18 ≤ o ∧ o ≤ 0x1F) ∨ o = 0x29) || w == 1) && (o != 0x14 || w != 2)

end LaneI

/-- The checks of R164 and R281 that the program alone decides; `has` says which streams have a tensor. An update program loads
and stores each stream once at most. -/
def Prog.ok (p : Prog) (update : Bool) (has : Nat → Bool) : Bool :=
  p.headOk update && p.instrs.all (LaneI.ok p update) &&
    ((List.range 6).all fun k => decide ((p.instrs.filter fun i => LaneI.op i == 0x21 && LaneI.s i == k).length ≤ 1)) &&
    (!update || (List.range 6).all fun k =>
      decide ((p.instrs.filter fun i => LaneI.op i == 0x20 && LaneI.s i == k).length ≤ 1)) &&
    ((List.range 6).all fun k => !p.uses k || has k) && (!(p.instrs.any LaneI.draws) || p.uses p.key)

/-- An ST to a block-scaled stream has pm = m0 (R173). -/
def Prog.blockStoresOk (p : Prog) (block : Nat → Bool) : Bool :=
  p.instrs.all fun i => LaneI.op i != 0x21 || !block (LaneI.s i) || LaneI.pm i == 0

/-! ### One lane (R161, R162, R167 to R170, R182) -/

/-- A lane's registers during a pass. -/
structure Lane where
  v : List Nat
  m : List Bool
  /-- Draw units consumed so far in the pass. -/
  k : Nat
  /-- Stores made: stream, raw bits, rm, sat. -/
  out : List (Nat × Nat × RMode × Bool)
  deriving DecidableEq, Repr

/-- Every register holds zeros at the start of a pass; m0 reads all ones. -/
def Lane.start : Lane := { v := List.replicate 32 0, m := true :: List.replicate 7 false, k := 0, out := [] }

def Lane.reg (l : Lane) (i : Nat) : Nat := l.v.getD i 0
def Lane.pred (l : Lane) (i : Nat) : Bool := l.m.getD i true

/-- What a lane's pass runs with. -/
structure LaneCtx where
  width : Nat
  fmt : Fmt
  params : List W64
  key : W64
  /-- Units that earlier passes of the tile consumed, and the lane's tile position. -/
  base : Nat
  e : Nat
  /-- Coordinates of the lane's element. -/
  idx : List Nat

def LaneCtx.num (x : LaneCtx) (raw : Nat) : Num := (readElem x.fmt raw).val

def LaneCtx.draw (x : LaneCtx) (k : Nat) : Nat := Sys2Proof.Machine.draw x.key (1024 * (x.base + k) + x.e)

/-- The pattern of a value that the lane format represents. -/
def laneBits (f : Fmt) (v : Num) : Nat :=
  match f.spec with
  | some fs => fs.encode v
  | none => 0

/-- Round a result to the lane format (R167). -/
def laneRound (x : LaneCtx) (w : Work) (mode : RMode) (sat : Bool) (v : Num) : Work × Nat :=
  let (y, fl) := roundIn x.fmt mode sat 0 v
  (if fl then w.arith x.fmt 1 else w, laneBits x.fmt y)

/-- RND (R167): rounding to a narrower format, kept in the lane format. -/
def laneRnd (x : LaneCtx) (w : Work) (f : Fmt) (mode : RMode) (sat : Bool) (r : Nat) (v : Num) : Work × Nat :=
  match f.spec with
  | none => (w, 0)
  | some fs =>
    let keep := [Fmt.fp8e4, .fp8e5, .fp6e3, .fp6e2, .fp4].contains f
    let (y, big, fl) := fs.round keep mode sat r v
    let y1 := if keep && big && !sat && mode != .rtz && mode != .rto then
        (match fs.kind with
          | .ieee => Num.inf v.sign
          | .allOnes => .nan
          | .none => y)
      else y
    (if fl && !keep then w.arith f 1 else w, laneBits x.fmt y1)

/-- The conditions of R169. -/
def cmpNum (cond : Nat) (a b : Num) : Bool :=
  match cond with
  | 0 => Num.eqv a b
  | 1 => !Num.eqv a b
  | 2 => Num.lt a b
  | 3 => Num.le a b
  | 4 => a.isNaN || b.isNaN
  | _ => !(a.isNaN || b.isNaN)

def cmpInt (cond : Nat) (a b : Int) : Bool :=
  match cond with
  | 0 => a == b
  | 1 => a != b
  | 2 => decide (a < b)
  | _ => decide (a ≤ b)

/-- The draw of RAND as a value (R182). -/
def laneRand (x : LaneCtx) (k : Nat) : Num :=
  match x.width with
  | 0 => .fin false ((x.draw k * 2 ^ 48 + x.draw (k + 1) * 2 ^ 32 + x.draw (k + 2) * 2 ^ 16 + x.draw (k + 3)) / 2 ^ 11) (-53)
  | 1 => .fin false ((x.draw k * 2 ^ 16 + x.draw (k + 1)) / 2 ^ 8) (-24)
  | _ => .fin false (x.draw k / 2 ^ 8) (-8)

/-- The result of an instruction in format V that writes a vector register. -/
def laneValue (x : LaneCtx) (w : Work) (l : Lane) (i : Nat) : Work × Nat :=
  let ra := l.reg (LaneI.a i)
  let rb := l.reg (LaneI.b i)
  let a := x.num ra
  let b := x.num rb
  let c := x.num (l.reg (LaneI.c i))
  let rnd := laneRound x w (LaneI.rm i) (LaneI.sat i)
  let wide : Nat := 2 ^ 32
  match LaneI.op i with
  | 0x01 => rnd (a.add b)
  | 0x02 => rnd (a.sub b)
  | 0x03 => rnd (a.mul b)
  | 0x04 => rnd ((a.mul b).add c)
  | 0x05 => rnd (c.sub (a.mul b))
  | 0x06 => rnd (a.div b)
  | 0x07 => rnd a.sqrt
  | 0x08 => (w, laneBits x.fmt (a.minR b))
  | 0x09 => (w, laneBits x.fmt (a.maxR b))
  | 0x0A => (w, laneBits x.fmt a.abs)
  | 0x0B => (w, laneBits x.fmt a.neg)
  | 0x0C =>
    match Fn.ofCode (LaneI.c i) with
    | some f => rnd (fnValue f a)
    | none => (w, 0)
  | 0x0D =>
    match Fmt.ofCode (LaneI.c i) with
    | some f => laneRnd x w f (LaneI.rm i) (LaneI.sat i) (if LaneI.rm i = .sr then x.draw l.k else 0) a
    | none => (w, 0)
  | 0x11 => (w, if l.pred (LaneI.c i) then ra else rb)
  | 0x13 => (w, (x.params.getD (LaneI.a i) 0).toNat % 2 ^ (64 / 2 ^ x.width))
  | 0x14 =>
    let n := x.idx.getD (LaneI.c i) 0
    (w, if x.width = 0 then laneBits .fp64 (.fin false n 0) else n % wide)
  | 0x18 => (w, (ra + rb) % wide)
  | 0x19 => (w, (ra + wide - rb) % wide)
  | 0x1A => (w, (ra * rb) % wide)
  | 0x1B =>
    let n := rb % 32
    (w, match LaneI.c i with
      | 0 => (ra <<< n) % wide
      | 1 => ra >>> n
      | _ => unsignedOf 32 (shiftFloor (signedOf 32 ra) (-(n : Int))))
  | 0x1C =>
    (w, match LaneI.c i with
      | 0 => ra &&& rb
      | 1 => ra ||| rb
      | _ => ra ^^^ rb)
  | 0x1E => rnd (.ofInt (signedOf 32 ra))
  | 0x1F => (w, (convertElem false .int32 (LaneI.rm i) true 0 { val := a }).1)
  | 0x28 => (w, laneBits x.fmt (laneRand x l.k))
  | 0x29 => (w, x.draw l.k * 2 ^ 16 + x.draw (l.k + 1))
  | _ => (w, ra)

/-- The result of an instruction that writes a predicate register. -/
def lanePred (x : LaneCtx) (l : Lane) (i : Nat) : Bool :=
  let ra := l.reg (LaneI.a i)
  let rb := l.reg (LaneI.b i)
  match LaneI.op i with
  | 0x10 => cmpNum (LaneI.c i) (x.num ra) (x.num rb)
  | 0x1D => cmpInt (LaneI.c i) (signedOf 32 ra) (signedOf 32 rb)
  | _ =>
    let p := l.pred (LaneI.a i)
    let q := l.pred (LaneI.b i)
    match LaneI.c i with
    | 0 => p && q
    | 1 => p || q
    | 2 => p != q
    | _ => p && !q

/-- One instruction in one lane; `ld` delivers an element of a stream. -/
def laneStep (ld : Work → Nat → Work × Nat) (x : LaneCtx) (w : Work) (l : Lane) (i : Nat) : Work × Lane :=
  let o := LaneI.op i
  let on := l.pred (LaneI.pm i)
  let l1 := { l with k := l.k + LaneI.units x.width i }
  if o = 0 then (w, l)
  else if o = 0x20 then
    let (w1, v) := ld w i
    (w1, { l with v := l.v.set (LaneI.d i) v })
  else if o = 0x21 then
    (w, if on then { l with out := l.out ++ [(LaneI.s i, l.reg (LaneI.sa i), LaneI.rm i, LaneI.sat i)] } else l)
  else if !on then (w, l1)
  else if o = 0x10 ∨ o = 0x12 ∨ o = 0x1D then (w, { l1 with m := l.m.set (LaneI.d i) (lanePred x l i) })
  else
    let (w1, v) := laneValue x w l i
    (w1, { l1 with v := l.v.set (LaneI.d i) v })

/-- A pass in one lane. -/
def runLane (ld : Work → Nat → Work × Nat) (x : LaneCtx) (p : Prog) (w : Work) : Work × Lane :=
  p.instrs.foldl (fun (w, l) i => laneStep ld x w l i) (w, Lane.start)

/-- Draw units of a pass. -/
def Prog.passUnits (p : Prog) : Nat := (p.instrs.map (LaneI.units p.width)).sum

/-! ### Loads and stores of streams (R172, R173, R175) -/

/-- The boundary modes of R175 along one dimension: none is ZERO outside; a ghost position stays outside.
DESIGN CHOICE, log 35. -/
def boundary (mode : Nat) (ext : Nat) (p : Int) : Option Int :=
  if 0 ≤ p ∧ p < ext then some p
  else
    match mode with
    | 0 => none
    | 1 => some (max 0 (min p ((ext : Int) - 1)))
    | 2 => some (p % (ext : Int))
    | _ => some p

/-- The position that LD reads in a stream: a dimension of extent 1 holds the lanes at its single position; then the
offsets, then the boundary modes in the order x, y, z (DESIGN CHOICE, log 35). -/
def loadPos (modes : List Nat) (d : Desc) (idx : List Nat) (off : List Int) : Option (List Int) :=
  let p0 : List Int := (List.range 6).map fun i =>
    (if d.ext i = 1 then 0 else ((idx.getD i 0 : Nat) : Int)) + off.getD i 0
  (List.range 6).foldr (fun i acc =>
    match acc, boundary (modes.getD i 2) (d.ext i) (p0.getD i 0) with
    | some ps, some p => some (p :: ps)
    | _, _ => none) (some [])

/-- Whether a position lies in the extents. -/
def inExt (d : Desc) (p : List Int) : Bool :=
  (List.range 6).all fun i => decide (0 ≤ p.getD i 0) && decide (p.getD i 0 < d.ext i)

/-- The bits that an LD reads: an element with its block's header, or a ghost position. -/
def loadSpans (env : Env) (d : Desc) (pos : List Int) : List Span :=
  if inExt d pos then d.spans env.warm [pos.map Int.toNat]
  else
    let f := d.fmtIn env.warm
    [((d.bitAddrZ f pos).toNat, f.bits)]

/-- Deliver an element of a stream to a lane, counted (R172): INT32 streams enter INT32 lanes as raw bits. A ghost
position has no tile number, so an SR load there takes a free draw (DESIGN CHOICE, log 36). -/
def streamLoad (env : Env) (unit : Fmt) (d : Desc) (pos : List Int) (rm : RMode) (sat : Bool) (w : Work) : Work × Nat :=
  let f := d.fmtIn env.warm
  if inExt d pos then
    let idx := pos.map Int.toNat
    if unit = .fp32 ∧ f = .int32 then ((w.loadAs env d idx).1, w.s.rawAt d f idx)
    else
      let (w1, v) := w.load env d unit rm sat idx
      (w1, laneBits unit v)
  else
    let raw := w.s.readBits (d.bitAddrZ f pos).toNat f.bits
    let e := readElem f raw
    if unit = .fp32 ∧ f = .int32 then (w.count (some d) none f f (outcomeOf e e.val false) e, raw)
    else
      let rnd := loadRounding d rm sat
      let (r, s) := if rnd.mode = .sr && !exactPair f unit then
          (let (x, s) := w.s.fresh; (x.toNat % 65536, s)) else (0, w.s)
      let (bits, o) := convertElem (f == .fp64) unit rnd.mode rnd.sat r e
      (({ w with s := s }).count (some d) none f unit o e, bits)

/-- The LD of a lane. -/
def laneLoad (env : Env) (unit : Fmt) (modes : List Nat) (ts : List (Option Desc)) (s0 : State) (idx : List Nat)
    (w : Work) (i : Nat) : Work × Nat :=
  match ts.getD (LaneI.s i) none with
  | none => (w, 0)
  | some d =>
    match loadPos modes d idx [LaneI.dx i, LaneI.dy i, LaneI.dz i] with
    | none => (w, 0)
    | some pos =>
      -- elements are read as the command found them
      let (w1, v) := streamLoad env unit d pos (LaneI.rm i) (LaneI.sat i) { w with s := { s0 with free := w.s.free } }
      (({ w1 with s := { w.s with free := w1.s.free } }).noteRead (loadSpans env d pos), v)

/-- The item that an ST makes. -/
def storeItem (env : Env) (unit : Fmt) (d : Desc) (idx : List Nat) (raw : Nat) : Item :=
  if unit = .fp32 ∧ d.fmtIn env.warm = .int32 then { idx := idx, elem := readElem .int32 raw, from_ := .int32 }
  else { idx := idx, elem := readElem unit raw, from_ := unit }

/-- Where a lane's element stands: its coordinates, its tile or unit number, and its position there. -/
abbrev Place := List Nat × Nat × Nat

/-- Run a program over elements and store what it stored, stream by stream. -/
def runProgram (env : Env) (p : Prog) (ts : List (Option Desc)) (params : List W64) (modes : List Nat)
    (places : List Place) (w : Work) : Work :=
  let s0 := w.s
  let keyH := match ts.getD p.key none with
    | some d => d.handle
    | none => 0
  let (w1, outs) := places.foldl (fun (w, outs) (idx, t, e) =>
    let x : LaneCtx :=
      { width := p.width, fmt := p.fmt, params := params
        key := streamKey env.seed 1 p.salt keyH t env.step
        base := e / p.lanes * p.passUnits, e := e, idx := idx }
    let (w1, l) := runLane (laneLoad env p.fmt modes ts s0 idx) x p w
    (w1, outs ++ l.out.map fun o => (idx, o))) (w, [])
  (List.range 6).foldl (fun w k =>
    match ts.getD k none with
    | none => w
    | some d =>
      let mine := outs.filter fun o => o.2.1 == k
      match mine with
      | [] => w
      | (_, _, _, rm, sat) :: _ =>
        w.putItems env d (storeRounding none d rm sat)
          (mine.map fun o => storeItem env p.fmt d o.1 o.2.2.1)) w1

/-! ### EWISE and STENCIL (R174 to R177, R223) -/

namespace Ew

/-- The program address, with its reserved bits. -/
def progField (w : Slot) : Nat := w.operand 0x20 0 64
def modes (w : Slot) : List Nat := [w.operand 0x1E 0 2, w.operand 0x1E 2 2, w.operand 0x1E 4 2]

/-- What decode learns of the program: refused with a status, or its parts. -/
inductive Found where
  | bad (st : Status)
  | prog (p : Prog)
  deriving DecidableEq, Repr

/-- The checks on the program's address and footprint (R212, R223). A reserved address in the aperture of a stack is an
Edern address that fails the footprint (DEDUCED, log 43). -/
def find (c : Cmd) (s : State) : Found :=
  let a := progField c.slot
  if a % 16 != 0 || decide (8 * stackStride ≤ a) then .bad .badOperand
  else
    match s.teamAccess c.q.team { lo := (a : Int), len := 16 } with
    | some st => .bad st
    | none =>
      match s.teamAccess c.q.team { lo := (a : Int), len := Prog.size (s.read a 16) } with
      | some st => .bad st
      | none => .prog (Prog.load s a)

/-- Streams of a program as tensors. -/
def streams (c : Cmd) (s : State) : List (Option Desc) := (List.range 6).map (c.tensor? s)

/-- The lowest-numbered written stream. -/
def firstWritten (p : Prog) : Option Nat := (List.range 6).find? p.writes

/-- The halo of each dimension that a GHOST mode reaches. -/
def ghostHalo (p : Prog) (modes : List Nat) : List Nat :=
  (List.range 3).map fun i => if modes.getD i 0 = 3 then p.halo.getD i 0 else 0

/-- The footprint with the ghost positions, as whole tiles in tiled layout (R175, R212). -/
def ghostFootprint (d : Desc) (warm : Bool) (halo : List Nat) : List Interval :=
  if d.count = 0 ∨ halo.all (· == 0) then []
  else
    let f := d.fmtIn warm
    let lo (i : Nat) : Int :=
      let h : Int := ((halo.getD i 0 : Nat) : Int)
      if d.tiled && i < 2 then Int.fdiv (-h) 32 else -h
    let hi (i : Nat) : Int :=
      let h : Int := ((halo.getD i 0 : Nat) : Int)
      if d.tiled && i < 2 then ((d.ext i : Nat) - 1 + h) / 32 else (d.ext i : Nat) - 1 + h
    let plain := (List.range 6).filter fun i => !d.stackDim i && d.packed f != some i
    let (pl, ph) : Int × Int := match d.packed f with
      | some i => (Int.fdiv (lo i * f.bits) 8, -(Int.fdiv (-((hi i + 1) * f.bits)) 8))
      | none => (0, if d.tiled then (if d.kind = 5 then 4096 else 128 * f.bits) else f.bits / 8)
    let first := (d.base : Int) + (plain.map fun i => lo i * d.stride i).sum + pl
    let last := (d.base : Int) + (plain.map fun i => hi i * d.stride i).sum + ph
    let shifts := ((List.range 6).filter d.stackDim).foldl (fun (acc : List Int) i =>
      acc.flatMap fun x => (List.range (hi i - lo i + 1).toNat).map fun (k : Nat) => x + (lo i + (k : Int)) * d.stride i) [0]
    shifts.map fun x => { lo := first + x, len := (last - first).toNat }

/-- Two descriptors alike in base, format, kind, dimensions, strides, layout and block settings (R174). -/
def alike (a b : Desc) : Bool :=
  a.base == b.base && a.fmtCode == b.fmtCode && a.kind == b.kind && a.rank == b.rank && a.exts == b.exts &&
    (List.range 6).all (fun i => a.stride i == b.stride i) && a.tiled == b.tiled && a.tmin == b.tmin &&
    a.blockEn == b.blockEn && (!a.blockEn || (a.blockSize == b.blockSize && a.variant == b.variant && a.aux == b.aux))

/-- The lane and stream formats of an LD or ST convert (R62). -/
def pairOk (warm : Bool) (unit : Fmt) (store : Bool) (d : Desc) : Bool :=
  if store then pairDefined unit (d.fmtIn warm) else pairDefined (d.pairFmt warm) unit

/-- The checks on the streams of a program. -/
def streamChecks (stencil : Bool) (c : Cmd) (s : State) (p : Prog) : List Fail :=
  let all := List.range 6
  let gh := ghostHalo p (modes c.slot)
  all.flatMap (fun i =>
    if p.uses i && c.slot.handle i != noHandle then
      (if p.writes i then c.destFails s false i else c.tensorFails s false i)
    else need (c.slot.handle i == noHandle) .badOperand) ++
  (match firstWritten p with
    | none => []
    | some k => all.flatMap fun i =>
        (if p.writes i then c.whenAt s i k i fun a b => a.exts == b.exts else []) ++
          (if p.reads i then c.whenAt s i k i fun a b => all.all fun n => b.ext n == a.ext n || b.ext n == 1 else [])) ++
  all.flatMap (fun i => (if p.reads i then c.when1 s i (pairOk c.warm p.fmt false) else []) ++
    (if p.writes i then c.when1 s i (pairOk c.warm p.fmt true) else [])) ++
  all.flatMap (fun i => all.flatMap fun k =>
    if p.reads i && p.writes k then
      (if i = k ∧ !stencil then []
        else c.whenAt s k i k fun a b => (c.disjoint a b || (!stencil && alike a b)) &&
          (!stencil || !overlap (ghostFootprint a c.warm gh) (b.footprint c.warm)))
    else []) ++
  (if stencil then all.flatMap fun i =>
      if p.reads i then
        c.when1 s i (fun d => !d.blockEn || gh.all (· == 0)) ++
          (match c.tensor? s i with
            | some d => s.accessChecks c.q.team (ghostFootprint d c.warm gh) (some i)
            | none => [])
      else []
    else []) ++
  need (p.ok false (fun i => c.slot.handle i != noHandle) &&
    p.blockStoresOk (fun i => match c.tensor? s i with
      | some d => d.blockEn
      | none => false) && (stencil || p.halo.all (· == 0))) .badProgram

def fields (stencil : Bool) : FieldMap :=
  { handles := List.range 6, sA := true, sB := true, sC := true, sD := true
    operands := (if stencil then [(0x1E, 0, 6)] else []) ++ [(0x20, 0, 64)] }

/-- Without its program, a command's handles and descriptors are checked all the same, for the lowest status is reported
(R201). -/
def checks (stencil : Bool) (c : Cmd) (s : State) : List Fail :=
  fieldChecks c.slot (fields stencil) ++ placeChecks c.slot c.q.team ++
    match find c s with
    | .bad st => (st, none) :: (List.range 6).flatMap fun i => if c.slot.handle i = noHandle then [] else c.tensorFails s false i
    | .prog p => streamChecks stencil c s p

/-- The places of the elements of a tensor, tile by tile. -/
def placesOf (d : Desc) : List Place := (allIdx d.exts).map fun ix => (ix, d.tileOf ix)

/-- The parameters of R161: the fields sA to sD always name a register, 0 naming s0, since the spec gives no way to name none
(DESIGN CHOICE, log 133); then the constants. -/
def params (c : Cmd) (p : Prog) : List W64 :=
  [c.reg c.slot.sA, c.reg c.slot.sB, c.reg c.slot.sC, c.reg c.slot.sD] ++ p.consts

def body (c : Cmd) (s : State) : Res :=
  match find c s with
  | .bad st => .fail st none
  | .prog p =>
    let ts := streams c s
    let a := progField c.slot
    match s.poisoned.find? fun l => decide (l < a + Prog.size p.head) && decide (a < l + 256) with
    | some l => .fault s Mech.poisonRead.code 3 (State.stackOf l) l
    | none =>
      match (firstWritten p).bind fun k => ts.getD k none with
      | none => .ok s 0 0
      | some d =>
        c.work s d.tiles [] fun w =>
          (runProgram (Env.of c.job) p ts (params c p) (modes c.slot) (placesOf d) w, 0)

end Ew

def execEwise (q : Nat) (s : State) : Host.Outcome State Fault Refusal :=
  .next (s.runMacro (State.isOp .ewise) (Ew.checks false) Ew.body q)

def execStencil (q : Nat) (s : State) : Host.Outcome State Fault Refusal :=
  .next (s.runMacro (State.isOp .stencil) (Ew.checks true) Ew.body q)

end Sys2Proof.Machine
end

