-- ==== Sys2Proof/Machine/Operands.lean ====
section
/-! DEFINITION. The operand forms of the control macro-ops (R229, R242): immediates that stand in for registers, and
signal word addresses. -/

namespace Sys2Proof.Machine

/-- A register or the immediate that replaces it, by flag (R229). -/
def regOrImm (c : Cmd) (imm : Bool) (ref off : Nat) : W64 :=
  if imm then BitVec.ofNat 64 (c.slot.operand off 0 64) else c.reg ref

/-- The immediate stands only with its flag: otherwise its field is 0. -/
def immOk (w : Slot) (imm : Bool) (off : Nat) : List Fail := need (imm || w.operand off 0 64 == 0) .badOperand

/-- The first flag bit of operand byte 0x1E (timm, vimm, cimm at its own byte). -/
def flag (w : Slot) (off bit : Nat) : Bool := bitAt (w.operand off 0 8) bit

/-- A signal word address: aligned and in Edern memory, and not closed to the team (R242). -/
def wordChecks (s : State) (a : Nat) : List Fail :=
  if a % 8 != 0 || decide (2 ^ 52 ≤ a) || !isEdern a then [(.badOperand, none)]
  else need (!s.inClosed a 8) .noperm

/-- The address field of a control macro-op. -/
def addrField (w : Slot) : Nat := w.operand 0x20 0 64

/-- The fields that every control macro-op shares: place 0 and the handles it uses. -/
def controlChecks (w : Slot) (m : FieldMap) : List Fail := fieldChecks w m ++ controlPlace w

/-- Whether a word satisfies a threshold (R244). -/
def satisfied (w h : W64) : Bool := decide ((w - h).toNat < 2 ^ 63)

/-- The effect of an access by a queue's sequencer to an aligned doubleword (R233): the status that refuses it. -/
def seqAccess (s : State) (team : BitVec 128) (a : Nat) : Option Status :=
  if a % 8 != 0 then some .badOperand
  else
    match regionOf a with
    | .reserved => some .decerr
    | .edern _ => if s.inClosed a 8 then some .noperm else none
    | .cluster k => if teamHas team (k / 8) then none else some .noperm
    | _ => some .noperm

end Sys2Proof.Machine
end

