-- ==== Sys2Proof/Machine/Control.lean ====
section
/-! DEFINITION. Control macro-ops that act on their own queue or a signal word (R227 to R251, R258 to R262): SCAL, BR,
LAP, ENDLAP, WAIT, SIGNAL, local HURDLE, PHASE, CKPT, COMMIT, TAG, FENCE and HALT, and the events that release queues. -/

namespace Sys2Proof.Machine

/-! ### SCAL (R230 to R233) -/

namespace Scal

def op (w : Slot) : Nat := w.operand 0x1E 0 8
def bimm (w : Slot) : Bool := flag w 0x1F 0

/-- Operations that use B, and operations that use C. -/
def usesB (o : Nat) : Bool :=
  (1 ≤ o && o ≤ 0xD) || (0x10 ≤ o && o ≤ 0x16) || o == 0x21 || o == 0x22
def isMem (o : Nat) : Bool := o == 0x21 || o == 0x22
def usesC (o : Nat) : Bool := o != 0x21

def defined (o : Nat) : Bool := decide (o ≤ 0xD) || (0x10 ≤ o && o ≤ 0x1B) || (0x20 ≤ o && o ≤ 0x22)

def fields (w : Slot) : FieldMap :=
  { sA := op w != 0x22, sB := usesB (op w), sC := usesC (op w) && !bimm w, sD := op w == 0x14
    operands := [(0x1E, 0, 8), (0x1F, 0, 1), (0x20, 0, 64)] }

def checks (c : Cmd) (_ : State) : List Fail :=
  let w := c.slot
  controlChecks w (fields w) ++ need (defined (op w)) .badOperand ++ need (!isMem (op w) || !bimm w) .badOperand ++
    (if isMem (op w) then [] else immOk w (bimm w) 0x20) ++
    need (!(op w == 0x20 && bimm w) || decide (w.operand 0x20 0 8 < 8)) .badOperand

/-- Truncated signed division with its corners (R230). -/
def idiv (b c : W64) : W64 :=
  if c = 0 then BitVec.ofInt 64 (-1) else BitVec.ofInt 64 (Int.tdiv b.toInt c.toInt)

def irem (b c : W64) : W64 := if c = 0 then b else BitVec.ofInt 64 (b.toInt - c.toInt * Int.tdiv b.toInt c.toInt)

def fbin (f : Num → Num → Num) (b c : W64) : W64 := seqWrite (f (seqRead b) (seqRead c))

/-- The integer and floating-point operations. -/
def compute (o : Nat) (b c d : W64) : W64 :=
  match o with
  | 0x00 => c
  | 0x01 => b + c
  | 0x02 => b - c
  | 0x03 => b * c
  | 0x04 => idiv b c
  | 0x05 => irem b c
  | 0x06 => b &&& c
  | 0x07 => b ||| c
  | 0x08 => b ^^^ c
  | 0x09 => b <<< (c.toNat % 64)
  | 0x0A => b >>> (c.toNat % 64)
  | 0x0B => b.sshiftRight (c.toNat % 64)
  | 0x0C => if c.toInt < b.toInt then c else b
  | 0x0D => if b.toInt < c.toInt then c else b
  | 0x10 => fbin Num.add b c
  | 0x11 => fbin Num.sub b c
  | 0x12 => fbin Num.mul b c
  | 0x13 => fbin Num.div b c
  | 0x14 => seqWrite (((seqRead b).mul (seqRead c)).add (seqRead d))
  | 0x15 => fbin Num.minR b c
  | 0x16 => fbin Num.maxR b c
  | 0x17 => seqWrite (seqRead c).sqrt
  | 0x18 => seqWrite (.ofInt c.toInt)
  | 0x19 =>
    match seqRead c with
    | .nan => 0
    | .inf n => BitVec.ofInt 64 (if n then -(2 ^ 63 : Int) else 2 ^ 63 - 1)
    | .fin n m e => BitVec.ofInt 64 (clampInt 64 (roundInt .rtz 0 n m e))
  | 0x1A => BitVec.ofNat 64 (f32.encode (ieeeRound f32 .rne (seqRead c)).1)
  | 0x1B => seqWrite (f32.decode (c.toNat % 2 ^ 32))
  | _ => 0

/-- GET (R232). -/
def get (c : Cmd) (sel : Nat) : W64 :=
  match sel with
  | 0 => BitVec.ofNat 64 c.job.step
  | 1 => c.pos
  | 2 => if c.q.generate then 1 else 0
  | 3 => BitVec.ofNat 64 c.job.lap
  | 4 => (c.q.laps.head?.map Lap.iter).getD 0
  | 5 => (c.q.laps.head?.map Lap.count).getD 0
  | 6 => if c.job.lastSkip then 1 else 0
  | _ => BitVec.ofNat 64 c.job.id

/-- LDM and STM (R233). -/
def memory (c : Cmd) (s : State) : Res :=
  let w := c.slot
  let a := (c.reg w.sB + BitVec.ofNat 64 (w.operand 0x20 0 64)).toNat
  match seqAccess s c.q.team a with
  | some st => .fail st none
  | none =>
    if s.poisonIn a 8 then .fault s Mech.poisonRead.code 3 (State.stackOf a) (a / 256 * 256)
    else if op w = 0x21 then .ok (Reduce.setReg (s.recallBlocks a 8) c.q.id w.sA (s.read64 a)) 0 0
    else .ok (s.store64 a (c.reg w.sC)) 0 0

def body (c : Cmd) (s : State) : Res :=
  let w := c.slot
  let cv := regOrImm c (bimm w) w.sC 0x20
  if isMem (op w) then memory c s
  else if op w = 0x20 then
    (if 8 ≤ cv.toNat % 256 then .fail .badOperand none
    else .ok (Reduce.setReg s c.q.id w.sA (get c (cv.toNat % 256))) 0 0)
  else .ok (Reduce.setReg s c.q.id w.sA (compute (op w) (c.reg w.sB) cv (c.reg w.sD))) 0 0

end Scal

def execScal (q : Nat) (s : State) : Host.Outcome State Fault Refusal :=
  .next (s.runMacro (State.isOp .scal) Scal.checks Scal.body q)

/-! ### BR, LAP and ENDLAP (R235 to R241) -/

namespace Branch

def type (w : Slot) : Nat := w.operand 0x1E 6 2
def cond (w : Slot) : Nat := w.operand 0x1E 3 3
def bimm (w : Slot) : Bool := flag w 0x1E 0
def offset (w : Slot) : W64 := BitVec.ofNat 64 (w.operand 0x28 0 64)

def fields (w : Slot) : FieldMap :=
  { sA := cond w != 0, sB := cond w != 0 && !bimm w
    operands := [(0x1E, 0, 1), (0x1E, 3, 5), (0x20, 0, 64), (0x28, 0, 64)] }

def checks (c : Cmd) (_ : State) : List Fail :=
  let w := c.slot
  controlChecks w (fields w) ++ need (type w != 3 && (cond w != 7 || type w == 2)) .badOperand ++
    need (cond w != 0 || !bimm w) .badOperand ++ immOk w (bimm w) 0x20 ++ need (offset w != 0) .badOperand

/-- The comparison of R235: none where unordered. -/
def compare (t : Nat) (a b : W64) : Option Ordering :=
  match t with
  | 0 => some (Ord.compare a.toInt b.toInt)
  | 1 => some (Ord.compare a.toNat b.toNat)
  | _ => Num.cmp (seqRead a) (seqRead b)

def taken (cond : Nat) (o : Option Ordering) : Bool :=
  match cond with
  | 0 => true
  | 1 => o == some .eq
  | 2 => o != some .eq
  | 3 => o == some .lt
  | 4 => o == some .gt || o == some .eq
  | 5 => o == some .lt || o == some .eq
  | 6 => o == some .gt
  | _ => o.isNone

/-- Whether a position lies in the body of a Lap. -/
def inBody (l : Lap) (t : W64) : Bool := decide ((t - (l.pos + 1)).toNat < l.d)

/-- The Laps that stay open when a branch goes to t: those from the first that contains it outwards (R241). -/
def closeLaps (t : W64) (ls : List Lap) : List Lap := ls.filter (inBody · t)

def body (c : Cmd) (s : State) : Res :=
  let w := c.slot
  if taken (cond w) (compare (type w) (c.reg w.sA) (regOrImm c (bimm w) w.sB 0x20)) then
    let t := c.pos + offset w
    if (t - s.qwFree c.q).toNat ≥ c.q.slots then .fail .badTarget none
    else .jump (s.setQueue { c.q with laps := closeLaps t c.q.laps, cur := BitVec.ofNat 32 w }) t
  else .ok s 0 0

end Branch

def execBr (q : Nat) (s : State) : Host.Outcome State Fault Refusal :=
  .next (s.runMacro (State.isOp .br) Branch.checks Branch.body q)

namespace LapOp

def cimm (w : Slot) : Bool := flag w 0x1E 0
def d (w : Slot) : Nat := w.operand 0x28 0 32

def checks (c : Cmd) (_ : State) : List Fail :=
  let w := c.slot
  controlChecks w { sA := !cimm w, operands := [(0x1E, 0, 1), (0x20, 0, 64), (0x28, 0, 32)] } ++
    immOk w (cimm w) 0x20 ++ need (decide (1 ≤ d w) && decide (d w ≤ c.q.slots - 1)) .badOperand

def body (c : Cmd) (s : State) : Res :=
  let w := c.slot
  let n := regOrImm c (cimm w) w.sA 0x20
  if n = 0 then .jump s (c.pos + BitVec.ofNat 64 (d w) + 1)
  else if 8 ≤ c.q.laps.length then .fail .lapDepth none
  else
    .ok (s.setQueue { c.q with
      laps := { pos := c.pos, d := d w, count := n, iter := 0 } :: c.q.laps, cur := BitVec.ofNat 32 w }) 0 0

def endChecks (c : Cmd) (_ : State) : List Fail := controlChecks c.slot { operands := [(0x28, 0, 32)] }

def endBody (c : Cmd) (s : State) : Res :=
  match c.q.laps with
  | [] => .fail .badOperand none
  | l :: ls =>
    if c.pos ≠ l.pos + BitVec.ofNat 64 l.d ∨ d c.slot ≠ l.d then .fail .badOperand none
    else
      let q := { c.q with cur := BitVec.ofNat 32 c.slot }
      if (l.iter + 1).toNat < l.count.toNat then
        .jump (s.setQueue { q with laps := { l with iter := l.iter + 1 } :: ls }) (l.pos + 1)
      else .ok (s.setQueue { q with laps := ls }) 0 0

end LapOp

def execLap (q : Nat) (s : State) : Host.Outcome State Fault Refusal :=
  .next (s.runMacro (State.isOp .lap) LapOp.checks LapOp.body q)

def execEndlap (q : Nat) (s : State) : Host.Outcome State Fault Refusal :=
  .next (s.runMacro (State.isOp .endlap) LapOp.endChecks LapOp.endBody q)

/-! ### WAIT, SIGNAL and local HURDLE (R242 to R247) -/

namespace Sync

def imm (w : Slot) : Bool := flag w 0x1E 0

/-- The fault of an access to a signal word in a poisoned line, or what follows. -/
def onWord (s : State) (a : Nat) (r : Res) : Res :=
  if s.poisonIn a 8 then .fault s Mech.poisonRead.code 3 (State.stackOf a) (a / 256 * 256) else r

def waitChecks (c : Cmd) (s : State) : List Fail :=
  let w := c.slot
  controlChecks w { sB := !imm w, operands := [(0x1E, 0, 1), (0x20, 0, 64), (0x28, 0, 64)] } ++
    immOk w (imm w) 0x28 ++ wordChecks s (addrField w)

/-- The read with which a WAIT starts recalls a dirty block of its word (R244, R290). -/
def waitBody (c : Cmd) (s : State) : Res :=
  let w := c.slot
  let a := addrField w
  let h := regOrImm c (imm w) w.sB 0x28
  let s1 := s.recallBlocks a 8
  onWord s a (if satisfied (s.read64 a) h then .ok s1 0 0 else .wait s1 (.word a h))

def addChecks (c : Cmd) (s : State) : List Fail :=
  let w := c.slot
  controlChecks w { sB := !imm w, operands := [(0x1E, 0, 2), (0x20, 0, 64), (0x28, 0, 64)] } ++
    immOk w (imm w) 0x28 ++ wordChecks s (addrField w)

/-- One indivisible addition at the stack (R242). -/
def addWord (s : State) (a : Nat) (v : W64) : State := s.store64 a (s.read64 a + v)

def addBody (c : Cmd) (s : State) : Res :=
  let a := addrField c.slot
  onWord s a (.ok (addWord s a (regOrImm c (imm c.slot) c.slot.sB 0x28)) 0 0)

/-- The message queue that a POST names, if it is one of the same job (R246). -/
def postRing (c : Cmd) (s : State) : Option RingQ :=
  let id := addrField c.slot
  match s.ring? id with
  | some r => if 0xD000 ≤ id ∧ id ≤ 0xFEFF ∧ r.kind = .message ∧ r.job = some c.job.id then some r else none
  | none => none

def postChecks (c : Cmd) (s : State) : List Fail :=
  let w := c.slot
  controlChecks w { sB := !imm w, operands := [(0x1E, 0, 2), (0x20, 0, 16), (0x28, 0, 64)] } ++
    immOk w (imm w) 0x28 ++ need (postRing c s).isSome .badOperand

/-- The 32 bytes of a message (R246). -/
def message (s : State) (q : CmdQueue) (head : Nat) (pos v : W64) : List Byte :=
  toLe 2 q.id ++ toLe 2 (bitsAt head 16 16) ++ toLe 2 q.job ++ toLe 2 0 ++ toLe 4 (s.stepOf (some q.job)) ++ toLe 4 0 ++
    toLe 8 v.toNat ++ toLe 8 pos.toNat

def postBody (c : Cmd) (s : State) : Res :=
  let v := regOrImm c (imm c.slot) c.slot.sB 0x28
  match postRing c s with
  | some r =>
    if s.ringFull r then .wait s (.post r.id v)
    else
      match s.ringLine r with
      | some l => .fault s Mech.poisonRead.code 3 (State.stackOf l) l
      | none => .ok (s.ringPut r (message s c.q c.slot c.pos v)) 0 0
  | none => .fail .badOperand none

/-- The local count n of a HURDLE. -/
def members (w : Slot) : Nat := w.operand 0x28 0 16

def localChecks (c : Cmd) (s : State) : List Fail :=
  let w := c.slot
  controlChecks w { operands := [(0x1E, 0, 1), (0x20, 0, 64), (0x28, 0, 16)] } ++
    need (decide (1 ≤ members w) && decide (members w ≤ 4096)) .badOperand ++ wordChecks s (addrField w)

/-- The threshold of a member that arrived with value v: n × ceil (v / n) (R247). -/
def roundEnd (n : Nat) (v : W64) : W64 := BitVec.ofNat 64 (n * ceilDiv v.toNat n)

def localBody (c : Cmd) (s : State) : Res :=
  let a := addrField c.slot
  let v := s.read64 a + 1
  let h := roundEnd (members c.slot) v
  let s1 := addWord s a 1
  onWord s a (if satisfied v h then .ok s1 0 0 else .wait s1 (.word a h))

end Sync

def execWait (q : Nat) (s : State) : Host.Outcome State Fault Refusal :=
  .next (s.runMacro (State.isOp .wait) Sync.waitChecks Sync.waitBody q)

/-- The slots of SIGNAL in a mode: 0 ADD, 1 POST. -/
def isSignal (post : Bool) (w : Slot) : Bool := State.isOp .signal w && flag w 0x1E 1 == post

def execSignalAdd (q : Nat) (s : State) : Host.Outcome State Fault Refusal :=
  .next (s.runMacro (isSignal false) Sync.addChecks Sync.addBody q)

def execSignalPost (q : Nat) (s : State) : Host.Outcome State Fault Refusal :=
  .next (s.runMacro (isSignal true) Sync.postChecks Sync.postBody q)

/-- The slots of HURDLE in a scope: 0 LOCAL, 1 GROUP. -/
def isHurdle (group : Bool) (w : Slot) : Bool := State.isOp .hurdle w && flag w 0x1E 0 == group

def execHurdleLocal (q : Nat) (s : State) : Host.Outcome State Fault Refusal :=
  .next (s.runMacro (isHurdle false) Sync.localChecks Sync.localBody q)

/-! ### PHASE, CKPT, COMMIT, TAG, FENCE and HALT -/

/-- The checks of a control macro-op without operands. -/
def bareChecks (c : Cmd) (_ : State) : List Fail := controlChecks c.slot {}

def phaseChecks (c : Cmd) (_ : State) : List Fail := controlChecks c.slot { operands := [(0x1E, 0, 1)] }

/-- PHASE sets the phase of its own queue (R251). -/
def phaseBody (c : Cmd) (s : State) : Res :=
  .ok (s.setQueue { c.q with generate := flag c.slot 0x1E 0, cur := BitVec.ofNat 32 c.slot }) 0 0

def execPhase (q : Nat) (s : State) : Host.Outcome State Fault Refusal :=
  .next (s.runMacro (State.isOp .phase) phaseChecks phaseBody q)

/-- CKPT asks for a generation at the next COMMIT (R257). -/
def ckptBody (c : Cmd) (s : State) : Res := .ok (s.modJob c.job.id fun j => { j with ckptRequested := true }) 0 0

def execCkpt (q : Nat) (s : State) : Host.Outcome State Fault Refusal :=
  .next (s.runMacro (State.isOp .ckpt) bareChecks ckptBody q)

/-- A queue that reaches its COMMIT waits for COMMIT_CLOSE (R253). -/
def commitBody (_ : Cmd) (s : State) : Res := .wait s .commit

def execCommit (q : Nat) (s : State) : Host.Outcome State Fault Refusal :=
  .next (s.runMacro (State.isOp .commit) bareChecks commitBody q)

/-- TAG only completes (R258). -/
def tagBody (_ : Cmd) (s : State) : Res := .ok s 0 0

def execTag (q : Nat) (s : State) : Host.Outcome State Fault Refusal :=
  .next (s.runMacro (State.isOp .tag) bareChecks tagBody q)

/-- FENCE goes on where every chain that the queue armed has completed, and waits otherwise (R259). -/
def fenceBody (c : Cmd) (s : State) : Res := if c.q.armed.isEmpty then .ok s 0 0 else .wait s .fence

def execFence (q : Nat) (s : State) : Host.Outcome State Fault Refusal :=
  .next (s.runMacro (State.isOp .fence) bareChecks fenceBody q)

/-- HALT completes and its queue enters HALTED (R260). -/
def haltBody (_ : Cmd) (s : State) : Res := .halt s

def execHalt (q : Nat) (s : State) : Host.Outcome State Fault Refusal :=
  .next (s.runMacro (State.isOp .halt) bareChecks haltBody q)

/-! ### What releases a waiting queue -/

namespace State

/-- Complete the control macro-op of a queue that waits for what `rel` tells. DESIGN CHOICE, log 14. -/
def release (rel : CmdQueue → State → Option State) (qid : Nat) (s : State) : State :=
  match s.queue? qid with
  | none => s
  | some q =>
    if q.state != .waiting || s.unfit then s
    else
      match rel q s with
      | some s1 =>
        match s1.queue? qid with
        | some q1 => s1.complete q1 { status := .ok, next := q1.pos + 1, countA := 0, countB := 0 }
        | none => s1
      | none => s

end State

/-- A word that satisfies the threshold of the queue's WAIT or HURDLE (R244). DEDUCED, log 18. -/
def wordReached (q : CmdQueue) (s : State) : Option State :=
  match q.wait with
  | .word a h => if satisfied (s.stackWord a) h then some s else none
  | _ => none

def execWaitSatisfied (q : Nat) (s : State) : Host.Outcome State Fault Refusal := .next (s.release wordReached q)

/-- Every chain that the waiting queue armed has completed (R259). -/
def chainsDone (q : CmdQueue) (s : State) : Option State :=
  if q.wait = .fence ∧ q.armed.isEmpty then some s else none

def execFenceRelease (q : Nat) (s : State) : Host.Outcome State Fault Refusal := .next (s.release chainsDone q)

/-- A slot of the message queue is free: the message of the waiting SIGNAL is written (R246). -/
def slotFree (q : CmdQueue) (s : State) : Option State :=
  match q.wait with
  | .post mq v =>
    match s.ring? mq with
    | some r => if s.ringFull r then none else some (s.ringPut r (Sync.message s q q.cur.toNat q.pos v))
    | none => none
  | _ => none

/-- The poisoned line that the message of a waiting SIGNAL would go to (R272). -/
def postLine (qid : Nat) (s : State) : Option (CmdQueue × Nat) :=
  match s.queue? qid with
  | some q =>
    match q.state, q.wait with
    | .waiting, .post mq _ =>
      match s.ring? mq with
      | some r => if s.ringFull r then none else (s.ringLine r).map fun l => (q, l)
      | none => none
    | _, _ => none
  | none => none

def execMessageSlotFree (q : Nat) (s : State) : Host.Outcome State Fault Refusal :=
  .next (match postLine q s with
    | some (x, l) => s.detect false
        { mech := Mech.poisonRead.code, cls := 3, index := State.stackOf l, job := some x.job, queue := some q, addr := l }
    | none => s.release slotFree q)

/-- A slot of the completion queue is free: the held completion is made (R205). DESIGN CHOICE, log 14. -/
def cqRelease (qid : Nat) (s : State) : State :=
  match s.queue? qid with
  | some q =>
    match q.wait with
    | .cq d => if q.state = .waitCq ∧ !s.cqBlocked q d.status then s.finish q d else s
    | _ => s
  | none => s

def execCqSlotFree (q : Nat) (s : State) : Host.Outcome State Fault Refusal := .next (cqRelease q s)

/-- A debug break fires before the queue's next command (R262). -/
def breakNow (qid : Nat) (s : State) : State :=
  match s.queue? qid with
  | some q =>
    match s.job? q.job with
    | some j =>
      if State.queueReady q && s.runsJob j then
        match State.breakHit q (s.slotAt q q.next).tag with
        | some i => s.fireBreak q i (s.slotAt q q.next).tag
        | none => s
      else s
    | none => s
  | none => s

def execBreakFires (q : Nat) (s : State) : Host.Outcome State Fault Refusal := .next (breakNow q s)

/-! ### STASH and UNSTASH (R152 to R158) -/

namespace Stash

/-- The byte addresses of a tensor, in the order of R154. -/
def addrs (d : Desc) (warm : Bool) : List Nat :=
  let f := d.fmtIn warm
  let body : List Nat :=
    if d.tiled then
      let tiles := (allIdx ((List.range 6).map fun i => if i < 2 then ceilDiv (d.ext i) 32 else d.ext i)).map fun t =>
        d.base + ((List.range 6).map fun i => t.getD i 0 * d.stride i).sum
      if d.count = 0 then []
      else tiles.flatMap fun a => List.range' a (if f.bits < 8 then 128 * f.bits else 1024 * (f.bits / 8))
    else
      (allIdx d.exts).foldl (fun acc ix =>
        let (a, n) := d.span f ix
        acc ++ (List.range' a n).filter fun x => !acc.contains x) []
  let heads : List Nat := if d.blockEn then (List.range d.blocks).flatMap fun k => [d.headers + 2 * k, d.headers + 2 * k + 1]
    else []
  body ++ heads

/-- `b` rounded up to a multiple of 256. -/
def up (b : Nat) : Nat := ceilDiv b 256 * 256

def entryAddr (hdr i : Nat) : Nat := hdr + 0x40 + i * 0x40

/-- The 64 bytes of an entry: state, handle, step, offset, length. -/
def entryBytes (st h step off len : Nat) : List Byte :=
  toLe 4 (st <<< 24 ||| h) ++ toLe 4 step ++ toLe 8 off ++ toLe 8 len ++ List.replicate 40 0

/-- A poisoned line ends the command (R272). -/
def poisonEnd (s : State) (a : Nat) : Res := .fault s Mech.poisonRead.code 3 (State.stackOf a) (a / 256 * 256)

def checks (c : Cmd) (s : State) : List Fail := controlChecks c.slot { handles := [0] } ++ c.tensorFails s false 0

def body (c : Cmd) (s : State) : Res :=
  if c.q.generate then .ok s 0 0
  else if c.q.share = 0 then .fail .stashFull none
  else
    match c.tensor? s 0 with
    | none => .fail .badHandle none
    | some d =>
      let h := c.q.hdr
      let top := s.read h 8
      let live := s.read (h + 8) 4
      let count := s.read (h + 0xC) 4
      let as_ := addrs d c.warm
      let b := as_.length
      let head := byteSpan h 0x40
      let bump (s : State) : State := (s.storeNat (h + 8) 4 (live + 1)).storeNat (h + 0xC) 4 (count + 1)
      if s.poisonIn h 0x40 then poisonEnd s h
      else if 1023 ≤ count then .fail .stashFull none
      else if top + up b ≤ c.q.share then
        let w := Work.start (s.recallSpans (as_.map (byteSpan · 1))) c.job
        let w1 := if b = 0 then w else w.put (c.job.stashBase + c.q.shareOff + top) (as_.map s.byte)
        match s.poisonMet (as_.map (byteSpan · 1)) (byteSpan (entryAddr h count) 0x40 :: head :: w1.wrote) with
        | some l => poisonEnd s l
        | none =>
          let s1 := (w1.close c.job.id).unpoison w1.wrote
          let s2 := bump (s1.store (entryAddr h count) (entryBytes 1 d.handle c.job.step top b))
          let peak := max (s.read (h + 0x18) 8) (top + up b)
          .ok ((s2.storeNat h 8 (top + up b)).storeNat (h + 0x18) 8 peak) 0 0
      else if d.recomputable then
        if s.poisonIn (entryAddr h count) 0x40 then poisonEnd s (entryAddr h count)
        else
        let s1 := bump (s.store (entryAddr h count) (entryBytes 2 d.handle c.job.step top 0))
        .ok (s1.storeNat (h + 0x10) 4 (s.read (h + 0x10) 4 + 1)) 0 0
      else .fail .stashFull none

/-- The state of an entry: its state code and its handle. -/
def entryState (s : State) (hdr i : Nat) : Nat := s.read (entryAddr hdr i + 3) 1
def entryHandle (s : State) (hdr i : Nat) : Nat := s.read (entryAddr hdr i) 3

/-- The entry that UNSTASH selects: the highest with the handle, HELD or RECOMPUTE. -/
def find (s : State) (hdr count handle : Nat) : Option Nat :=
  (List.range count).reverse.find? fun i =>
    entryHandle s hdr i == handle && (entryState s hdr i == 1 || entryState s hdr i == 2)

/-- Where the data of the highest entry that is not released ends. -/
def topOf (s : State) (hdr count : Nat) : Nat :=
  match (List.range count).reverse.find? fun i => entryState s hdr i == 1 || entryState s hdr i == 2 with
  | some i => s.read (entryAddr hdr i + 8) 8 + up (s.read (entryAddr hdr i + 16) 8)
  | none => 0

/-- The entry becomes RELEASED, live falls, top retreats. -/
def release (s : State) (hdr count i : Nat) : State :=
  let s1 := s.storeNat (entryAddr hdr i + 3) 1 3
  let s2 := s1.storeNat (hdr + 8) 4 (s.read (hdr + 8) 4 - 1)
  s2.storeNat hdr 8 (topOf s2 hdr count)

def unChecks (c : Cmd) (s : State) : List Fail :=
  controlChecks c.slot { handles := [0], sA := true } ++ c.tensorFails s false 0

/-- The header table's lines that an UNSTASH reads or writes: its header, and its entries from the top to the lower of the
entry selected and of the one that `top` then follows. -/
def unTable (s : State) (h count handle : Nat) : List Span :=
  let i := find s h count handle
  let k := (List.range count).reverse.find? fun k => some k != i && (entryState s h k == 1 || entryState s h k == 2)
  let lo := match i with
    | some i => min i (k.getD 0)
    | none => 0
  byteSpan h 0x40 :: (List.range' lo (count - lo)).map fun e => byteSpan (entryAddr h e) 0x40

def unBody (c : Cmd) (s : State) : Res :=
  let result (s : State) (v : W64) : Res := .ok (Reduce.setReg s c.q.id c.slot.sA v) 0 0
  if c.q.generate then result s 2
  else if c.q.share = 0 then .fail .stashFull none
  else
    match c.tensor? s 0 with
    | none => .fail .badHandle none
    | some d =>
      let h := c.q.hdr
      let count := min (s.read (h + 0xC) 4) 1023
      match s.poisonMet (unTable s h count d.handle) [] with
      | some l => poisonEnd s l
      | none =>
      match find s h count d.handle with
      | none => .fail .stashMiss none
      | some i =>
        if entryState s h i = 2 then result (release s h count i) 1
        else
          let as_ := addrs d c.warm
          let off := s.read (entryAddr h i + 8) 8
          if as_.length ≠ s.read (entryAddr h i + 16) 8 then .fail .badDesc (some 0)
          else
            let src := c.job.stashBase + c.q.shareOff + off
            let w := Work.start (s.recallSpans [byteSpan src as_.length]) c.job
            let w1 := (as_.zip (s.bytes src as_.length)).foldl (fun w p => w.put p.1 [p.2]) w
            match s.poisonMet [byteSpan src as_.length] w1.wrote with
            | some l => poisonEnd s l
            | none =>
              let s1 := (w1.close c.job.id).unpoison w1.wrote
              result (release s1 h count i) 0

end Stash

def execStash (q : Nat) (s : State) : Host.Outcome State Fault Refusal :=
  .next (s.runMacro (State.isOp .stash) Stash.checks Stash.body q)

def execUnstash (q : Nat) (s : State) : Host.Outcome State Fault Refusal :=
  .next (s.runMacro (State.isOp .unstash) Stash.unChecks Stash.unBody q)

end Sys2Proof.Machine
end

