-- ==== Sys2Proof/Machine/Access.lean ====
section
/-! DEFINITION. Who reaches which region (R35), doorbells (R188), and the mailbox window (R466, R467). -/

namespace Sys2Proof.Machine

/-- Whether an initiator reaches a mailbox (R35): a host core reaches every mailbox of the host cores (DEDUCED, log 44). -/
def ownMailbox (src : Initiator) (m : Nat) : Bool :=
  match src with
  | .hostCore _ => decide (16 ≤ m) && decide (m ≤ 47)
  | .relay _ => decide (48 ≤ m) && decide (m ≤ 54)
  | .starter => true
  | .debug => true
  | _ => false

/-- The register blocks that host cores read (R35). -/
def coreReadable (b : Nat) : Bool := b == 0 || b == 5 || (0x40 ≤ b && b ≤ 0xA3) || (0xB0 ≤ b && b ≤ 0xCF)

namespace State

def session? (s : State) (id : W32) : Option Session := s.sessions.find? fun x => x.id == id

def setSession (s : State) (x : Session) : State :=
  { s with sessions := s.sessions.map fun y => if y.id == x.id then x else y }

def modSession (s : State) (id : W32) (f : Session → Session) : State :=
  { s with sessions := s.sessions.map fun y => if y.id == id then f y else y }

/-- Whether one registered region of a session holds a range, with the right asked for (R498). -/
def regionGrants (x : Session) (write : Bool) (a n : Nat) : Bool :=
  x.regions.any fun r => decide (r.base ≤ a) && decide (a + n ≤ r.base + r.len) && (if write then r.write else r.read)

/-- Whether a heat's team reaches a cluster. -/
def teamReaches (s : State) (h c : Nat) : Bool :=
  s.queues.any fun q => teamHas q.team h && teamHas q.team (c / 8)

/-- The table of R35 for an access to a region, as a read or a write, of the bytes [a, a + n). -/
def mayAccess (s : State) (src : Initiator) (write : Bool) (a n : Nat) : Bool :=
  match regionOf a, src with
  | .reserved, _ => false
  | .edern _, .external w => (s.session? w).any fun x => regionGrants x write a n
  | .edern k, .stackLogic t => k == t.val
  | .edern _, _ => true
  | .cluster c, .heat h => s.teamReaches h.val c
  | .cluster _, .external _ => false
  | .cluster _, .stackLogic _ => false
  | .cluster _, _ => true
  | .hcStore k, .hostCore m => k == m.val
  | .hcTrace k, .hostCore m => k == m.val
  | .hcStore _, src => src == .starter || src == .debug
  | .hcTrace _, src => src == .starter || src == .debug
  | .doorbell q, .external w =>
    write && a % 0x1000 == 0 && n == 8 && (s.session? w).isSome && (s.queue? q).isSome
  | .doorbell _, .heat _ => write
  | .doorbell _, .relay _ => write
  | .doorbell _, .stackLogic _ => false
  | .doorbell _, _ => true
  | .csr b, .hostCore _ => !write && coreReadable b
  | .csr _, src => src == .starter || src == .debug
  | .mailbox m, src => ownMailbox src m
  | .boot, .starter => true
  | .boot, src => !write && (src == .debug || match src with
      | .hostCore _ => true
      | _ => false)

/-- Whether an initiator counts as software, which pools and shadow regions refuse (R294, R401). -/
def isSoftware (src : Initiator) : Bool :=
  match src with
  | .external _ => true
  | .hostCore _ => true
  | .heat _ => true
  | .stackLogic _ => true
  | _ => false

/-- The status that refuses an access; none where it is performed (R13, R35). -/
def refusal (s : State) (src : Initiator) (write : Bool) (a n : Nat) : Option Status :=
  if n = 0 then none
  else if !oneRegion a n then some .decerr
  else if s.mayAccess src write a n && !(isSoftware src && s.inClosed a n) then none
  else some .noperm

/-! ### Doorbells (R188) -/

/-- A doorbell write of v to a queue. DEDUCED, log 18. -/
def ringQueue (s : State) (qid : Nat) (v : W64) : State :=
  match s.queue? qid with
  | none => s
  | some q =>
    if q.state = .unbound then s
    else
      let free := s.qwFree q
      if (v - q.write).toNat < 2 ^ 63 ∧ (v - free).toNat ≤ q.slots then
        let q1 := { q with write := v }
        s.setQueue { q1 with state := if q.state = .idle then readyState q1 else q.state }
      else s.postQueue .doorbellBad q 0 (toLe 8 v.toNat ++ toLe 8 q.write.toNat ++ toLe 8 free.toNat)

/-! ### Mailboxes (R466, R467) -/

def mbox (s : State) (m : Nat) : Mailbox := s.mailboxes.getD m {}

def modMbox (s : State) (m : Nat) (f : Mailbox → Mailbox) : State := { s with mailboxes := s.mailboxes.modify m f }

def mboxArea (m : Nat) : Nat := mailboxBase + m * 0x2000

/-- Ring a mailbox: accepted where it is not busy, else overrun. Mailbox 55 ignores its doorbell. DEDUCED, log 68. -/
def ringMailbox (s : State) (m : Nat) : State :=
  if m = 55 then s
  else if (s.mbox m).busy then s.modMbox m fun x => { x with overrun := true }
  else s.modMbox m fun x => { x with busy := true, done := false, count := x.count + 1 }

/-- A write of the mailbox's status register: W1C of overrun and done. -/
def mboxStatusWrite (s : State) (m : Nat) (v : Nat) : State :=
  s.modMbox m fun x =>
    { x with overrun := x.overrun && !bitAt v 2, done := x.done && !bitAt v 1 }

/-- A write to the message area, ignored while the Starter owns it. -/
def mboxAreaWrite (s : State) (m off : Nat) (bs : List Byte) : State :=
  if (s.mbox m).busy then s else s.store (mboxArea m + off) bs

end State

/-- DOORBELL: an aligned 8-byte write of v to `qw.db` of queue q (R188). -/
def execDoorbell (q : Nat) (v : W64) (s : State) : Host.Outcome State Fault Refusal := .next (s.ringQueue q v)

/-- MAILBOX_DOORBELL: a write of v to `mbx.mM.db` by an initiator (R465, R467). -/
def execMailboxDoorbell (src : Initiator) (m : Fin 64) (v : W64) (s : State) : Host.Outcome State Fault Refusal :=
  .next (match s.refusal src true (State.mboxArea m.val + 0x1000) 8 with
    | some st => { s with replyStatus := st.code }
    | none =>
      let s1 : State := { s with replyStatus := 0 }
      if v.getLsbD 0 then s1.ringMailbox m.val else s1)

end Sys2Proof.Machine
end

