-- ==== Sys2Proof/Machine/RegRead.lean ====
section
/-! DEFINITION. Reading the control and status registers: the value of every register of every block (R34, R187, R277,
R343, R383, R422 to R424, R443, R463, R466, R496, R517, R526, R528, R536), and what a read clears (R11). -/

namespace Sys2Proof.Machine

/-- A bit as a field. -/
def bit (b : Bool) (at_ : Nat) : Nat := if b then 2 ^ at_ else 0

/-- The bytes of a byte register array as the word at an aligned offset. -/
def byteWord (f : Nat → Nat) (i : Nat) : Nat := leNat ((List.range 8).map fun k => BitVec.ofNat 8 (f (i + k)))

/-- Vendor ID, which the spec names but does not state (DESIGN CHOICE, log 3). -/
def vendorId : Nat := leNat ((List.range 4).map fun i => Config.fuseByte (0x100 + i))
/-- The fused base MAC address (R494). DESIGN CHOICE, log 3, DESIGN CHOICE, log 114. -/
def macBase : Nat := leNat ((List.range 6).map fun i => Config.fuseByte (0x120 + i))

namespace State

def spares (s : State) (d : Nat) : Nat := spareCount s.unitMap d

/-- A slot's place in the boot store and its size: kind, slot B. DESIGN CHOICE, log 3. -/
def slotBase (os b : Bool) : Nat :=
  bootBase + (if os then (if b then 0x4000_0000 else 0x0800_0000) else if b then 0x0400_0000 else 0)

/-- The active slot of a kind, and whether the other is marked for trial. -/
def activeSlot (s : State) (os : Bool) : Bool := if os then s.starter.osSlot else s.starter.fwSlot
def trialMarked (s : State) (os : Bool) : Bool := if os then s.starter.osTrial else s.starter.fwTrial

/-- The slot that this boot runs. -/
def runningSlot (s : State) (os : Bool) : Bool :=
  if s.starter.trialBoot && s.trialMarked os then !s.activeSlot os else s.activeSlot os

/-- A byte of the header of the Aimucor image that runs (R514); of the image that the device was made with, which the spec does
not state, a byte of `Config.fuseByte` (DESIGN CHOICE, log 3). -/
def imageByte (s : State) (o : Nat) : Nat :=
  let a := slotBase false (s.runningSlot false)
  (if s.read a 4 = 0x4D494B4E then s.byte (a + o) else Config.fuseByte (0x108 + o)).toNat

/-- The numerics revision of R9. DESIGN CHOICE, log 3. -/
def numericsRev (s : State) : Nat := s.imageByte 0xA

/-- `top.id.rev` (R463). DESIGN CHOICE, log 3. -/
def idRev (s : State) : Nat :=
  vendorId <<< 32 ||| 0x01 <<< 24 ||| s.imageByte 8 <<< 16 ||| s.imageByte 9 <<< 8 ||| s.numericsRev

/-- Whether an owner key is enrolled. -/
def owned (s : State) : Bool := !s.starter.owners.isEmpty

/-- `top.state` (R463). -/
def topState (s : State) : Nat :=
  bit (s.pair.mode != .unpaired) 17 + bit s.owned 16 + s.starter.lastReset <<< 8 + s.dev.code

/-- `top.unit.spares` (R34). -/
def unitSpares (s : State) : Nat := bit s.unfit 16 + s.spares 1 <<< 8 + s.spares 0

/-- `top` (R34, R463). -/
def topReg (s : State) (o : Nat) : Nat :=
  if o = 0 then s.serial.toNat
  else if o = 8 then s.idRev
  else if o = 0x10 then s.topState
  else if o = 0x1000 then s.unitSpares
  else if 0x1100 ≤ o ∧ o < 0x1168 then
    byteWord (fun p => ((s.unitMap.state[p]?).map fun x => x.code <<< 6).getD 0) (o - 0x1100)
  else if 0x1200 ≤ o ∧ o < 0x1268 then byteWord (fun h => s.unitMap.phys.getD h 0) (o - 0x1200)
  else if o = 0x1300 then s.unitMap.gen % 2 ^ 32
  else if o = 0x2000 then s.starter.nmi.toNat
  else if o = 0x2008 then ((s.now - s.starter.kickedAt) % 2 ^ 32) <<< 32 ||| s.starter.wdogLimit.toNat
  else 0

/-- `pacer` (R526, R536). -/
def pacerReg (s : State) (o : Nat) : Nat :=
  let p := s.pacer
  match o with
  | 0x000 => (min p.goodRun 15) <<< 8 ||| p.state <<< 4 ||| bit p.intFault 1 ||| bit p.crystal 0
  | 0x008 => 65536
  | 0x010 => 1310 <<< 16 ||| 131
  | 0x018 => p.lastCnt % 2 ^ 18
  | 0x020 => p.switchCnt
  | 0x028 => p.failCnt
  | 0x100 => bit s.pace.ramping 11 ||| bit s.pace.throttled 10 ||| s.pace.inForce.code <<< 8 ||| s.pace.requested.code
  | 0x108 =>
    unsignedOf 8 s.temps.cd0 <<< 56 ||| unsignedOf 8 s.temps.cd1 <<< 48 ||| unsignedOf 8 s.temps.hub <<< 40 |||
      unsignedOf 8 s.temps.dram <<< 32 ||| unsignedOf 8 s.temps.optics <<< 24
  | 0x110 => s.power.trip.toNat
  | _ => 0

/-- `timer` (R528). -/
def timerReg (s : State) (o : Nat) : Nat :=
  let x := s.inputs
  match o with
  | 0x000 => s.now
  | 0x008 => bit (x.alertN && !x.drive) 2 ||| bit x.pairPresent 1 ||| bit x.resetN 0
  | 0x010 => bit x.straps.ethSpeed 9 ||| bit x.straps.pairSide 8 ||| x.straps.siteId.toNat
  | 0x018 => bit x.drive 0
  | _ => 0

/-- Whether a claim handshake or CLAIM session exists (R517). -/
def claimBusy (s : State) : Bool :=
  s.sessions.any fun x => x.claim && (x.state == .handshake || x.state == .claim)

/-- `sec` (R517). -/
def secReg (s : State) (o : Nat) : Nat :=
  let x := s.starter
  match o with
  | 0x000 =>
    (x.claimFail % 256) <<< 16 ||| x.owners.length <<< 8 ||| bit x.trialFail 5 ||| bit x.osSlot 4 ||| bit x.fwSlot 3 |||
      bit s.owned 1 ||| bit s.claimBusy 0
  | 0x008 => x.osBlown <<< 8 ||| x.fwBlown
  | 0x010 => x.lockUntil
  | _ => 0

def ethPort (s : State) (e : Nat) : EthPort := s.eth.getD e {}

/-- `eth.ethN.ctl` and `stat` (R496). -/
def ethCtl (x : EthPort) : Nat :=
  bit x.vlanEn 32 ||| x.vlanId.toNat <<< 20 ||| x.pcpRoce.toNat <<< 17 ||| x.pcpSuilo.toNat <<< 14 |||
    x.fc.toNat <<< 12 ||| x.pfcMask.toNat <<< 4 ||| bit x.speed 1 ||| bit x.enable 0

def ethStat (x : EthPort) : Nat :=
  bit (x.ipv6 != 0) 5 ||| bit (x.ipv4 != 0) 4 ||| bit x.speedNow 1 ||| bit x.up 0

/-- `eth` (R496). DESIGN CHOICE, log 119. -/
def ethReg (s : State) (o : Nat) : Nat :=
  let n := o / 0x10_0000
  let x := s.ethPort n
  if 8 ≤ n then 0
  else
    match o % 0x10_0000 with
    | 0x000 => ethCtl x
    | 0x008 => ethStat x
    | 0x010 => (macBase + n) % 2 ^ 48
    | 0x018 => x.ipv4.toNat
    | 0x020 => x.rxFrames
    | 0x028 => x.txFrames
    | 0x030 => x.rxDrop
    | 0x038 => x.fcsErr
    | 0x040 => x.fecCe
    | 0x048 => x.fecUe
    | 0x050 => x.suiloBad
    | 0x058 => x.cnpTx
    | _ => 0

/-- Whether an offset of `telem` lies in the energy ledger (R423): those counters are measured (DESIGN CHOICE, log 6). -/
def isLedger (o : Nat) : Bool :=
  (0x1_0000 ≤ o && o < 0x1_0000 + 800 * 16) || (0x2_0000 ≤ o && o < 0x2_0080) || (0x2_0100 ≤ o && o < 0x2_0170)

/-- Floor energy of a partner port in pJ: 1.75 pJ for each payload bit sent or accepted (R539). -/
def portFloor (x : Port) : Nat := 14 * (x.txBytes + x.rxBytes)

/-- The partner port whose floor energy an offset of the ledger names: the spec states what each of its operations adds.
DESIGN CHOICE, log 6. -/
def floorPort? (o : Nat) : Option Nat := (List.range 6).find? fun p => o == 0x2_0108 + 16 * p

/-- `telem` outside the ledger (R422). -/
def telemReg (s : State) (o : Nat) : Nat :=
  match o with
  | 0x000 => (s.telem.completed % 2 ^ 32) <<< 32 ||| s.telem.queue.length <<< 4 ||| bit s.telem.running.isSome 0
  | 0x008 => s.telem.lastInject
  | 0x010 => s.faultCnt
  | 0x018 => (s.jobsHeld % 2 ^ 32) <<< 32 ||| s.restarts % 2 ^ 32
  | _ => 0

/-- The torus sizes of `relay.pN.coord`: each less 1. -/
def sizeBits (s : State) : Nat := (coordBits (s.topo.size.map (· - 1))).toNat

def coordReg (s : State) (x : Port) : Nat :=
  bit s.topo.valid 48 ||| (if s.topo.valid then s.sizeBits else 0) <<< 36 |||
    (if s.topo.valid then s.ownCoord.toNat else 0) <<< 12 ||| (if x.partnerValid then x.partner.toNat else 0)

/-- `relay.pN` and `relay.pp` (R343). -/
def relayReg (s : State) (p o : Nat) : Nat :=
  let x := s.port p
  match o with
  | 0x000 => bit x.loopback 1 ||| bit x.enable 0
  | 0x008 => x.cause <<< 24 ||| bit x.torus 17 ||| bit x.half 16 ||| x.partnerPort <<< 8 ||| x.state.code
  | 0x010 => x.partnerId.toNat
  | 0x018 => s.coordReg x
  | 0x020 => x.fecCe
  | 0x028 => x.fecUe
  | 0x030 => x.crcErr
  | 0x038 => x.retryCnt
  | 0x040 => x.retrainCnt
  | 0x048 => x.hopFail
  | 0x050 => x.txBytes
  | 0x058 => x.rxBytes
  | 0x100 => x.laneBad.toNat % 2 ^ 64
  | 0x108 => x.laneBad.toNat >>> 64
  | _ => 0

/-- `judge.X` (R383). -/
def judgeReg (s : State) (j o : Nat) : Nat :=
  let x := s.judges.getD j {}
  match o with
  | 0x000 => x.rate
  | 0x008 => x.sampled
  | 0x010 => x.mismatch
  | 0x018 => x.last.toNat
  | 0x020 => x.pending.length % 2 ^ 16
  | _ => 0

def stack (s : State) (e : Nat) : Edern := s.edern.getD e {}

/-- Free bytes in all snapshot pools of a stack (R277, R298). -/
def poolFree (s : State) (e : Nat) : Nat := (s.jobs.map fun j => freePool j e).sum

/-- `edern.eN` (R277). -/
def edernReg (s : State) (e o : Nat) : Nat :=
  let x := s.stack e
  match o with
  | 0x000 => bit x.secondDie 16 ||| bit x.markedDie.isSome 8 ||| x.markedDie.getD 0
  | 0x008 => x.eccCe
  | 0x010 => x.eccUe
  | 0x018 => x.eccUeAddr
  | 0x100 => x.patrolPeriod
  | 0x108 => x.patrolPos
  | 0x110 => (x.passes % 2 ^ 32) <<< 32 ||| x.lastPass % 2 ^ 32
  | 0x200 => s.poolFree e
  | 0x208 => x.shadowSent
  | 0x300 => x.invocations
  | _ => 0

/-- `track.cdN` (R424). -/
def trackReg (s : State) (d o : Nat) : Nat :=
  let x := s.tracks.getD d {}
  match o with
  | 0x000 => x.limit
  | 0x008 => x.fired
  | 0x010 => x.last.toNat
  | 0x018 => x.marker
  | _ => 0

def core (s : State) (n : Nat) : HostCore := s.cores.getD n {}

/-- `hc.hcN` (R443). DESIGN CHOICE, log 119. -/
def hcReg (s : State) (n o : Nat) : Nat :=
  let x := s.core n
  match o with
  | 0x000 => x.state.code
  | 0x008 => x.resetVec.toNat
  | 0x010 => match x.job with
    | some j => 0x8000 + j
    | none => 0
  | 0x018 => x.dedClean
  | 0x020 => bit x.trace 0
  | 0x028 => x.traceCnt
  | _ => 0

/-- A register of a block at an aligned offset, other than the energy ledger. Blocks without registers of their own
read 0 (R13). DEDUCED, log 112. -/
def blockReg (s : State) (b o : Nat) : Nat :=
  if b = 0 then s.topReg o
  else if b = 1 then s.pacerReg o
  else if b = 2 then s.timerReg o
  else if b = 3 then s.secReg o
  else if b = 4 then s.ethReg o
  else if b = 5 then s.telemReg o
  else if 0x10 ≤ b ∧ b ≤ 0x16 then s.relayReg (b - 0x10) o
  else if 0x18 ≤ b ∧ b ≤ 0x1A then s.judgeReg (b - 0x18) o
  else if 0x20 ≤ b ∧ b ≤ 0x27 then s.edernReg (b - 0x20) o
  else if b = 0x30 ∨ b = 0x31 then s.trackReg (b - 0x30) o
  else if 0xB0 ≤ b ∧ b ≤ 0xCF then s.hcReg (b - 0xB0) o
  else 0

/-- What a read of a register clears (RC, R11). -/
def clearRc (s : State) (b o : Nat) : State :=
  if 0x10 ≤ b ∧ b ≤ 0x16 then
    s.modPort (b - 0x10) fun x =>
      { x with
        fecCe := if o = 0x020 then 0 else x.fecCe
        fecUe := if o = 0x028 then 0 else x.fecUe
        crcErr := if o = 0x030 then 0 else x.crcErr
        retryCnt := if o = 0x038 then 0 else x.retryCnt }
  else if 0x20 ≤ b ∧ b ≤ 0x27 ∧ o = 0x008 then
    { s with edern := s.edern.modify (b - 0x20) fun e => { e with eccCe := 0 } }
  else if b = 4 then
    { s with eth := s.eth.modify (o / 0x10_0000) fun x =>
        { x with
          fcsErr := if o % 0x10_0000 = 0x038 then 0 else x.fcsErr
          fecCe := if o % 0x10_0000 = 0x040 then 0 else x.fecCe
          fecUe := if o % 0x10_0000 = 0x048 then 0 else x.fecUe } }
  else s

/-- Read a register of a block: its value, and the state after the read. DEDUCED, log 112. -/
def readReg (s : State) (b o : Nat) : W64 × State :=
  if b = 5 ∧ isLedger o then
    match floorPort? o with
    | some p => (BitVec.ofNat 64 (portFloor (s.port p)), s)
    | none => s.fresh
  else (BitVec.ofNat 64 (s.blockReg b o), s.clearRc b o)

/-- The doorbell window of a queue (R187). -/
def doorbellReg (s : State) (qid o : Nat) : W64 :=
  match s.queue? qid with
  | none => 0
  | some q =>
    match o with
    | 0x000 => q.write
    | 0x008 => q.pos
    | 0x010 => q.next
    | 0x018 => s.qwFree q
    | 0x020 => BitVec.ofNat 64 (q.status <<< 16 ||| q.state.code)
    | 0x028 => BitVec.ofNat 64 (q.lastOpcode <<< 16 ||| q.lastTag)
    | 0x030 => q.count
    | _ => 0

/-- The register page of a mailbox (R466). -/
def mailboxReg (s : State) (m o : Nat) : W64 :=
  let x := s.mbox m
  match o with
  | 0x1008 => BitVec.ofNat 64
      ((x.result % 2 ^ 16) <<< 32 ||| (x.seq % 2 ^ 16) <<< 16 ||| bit x.overrun 2 ||| bit x.done 1 ||| bit x.busy 0)
  | 0x1010 => BitVec.ofNat 64 x.count
  | _ => 0

/-- The aligned 8 bytes at an address that names registers or a mailbox, and the state after the read. -/
def readWord (s : State) (a : Nat) : W64 × State :=
  match regionOf a with
  | .csr b => s.readReg b ((a - csrBase) % 0x100_0000)
  | .doorbell q => (s.doorbellReg q (a % 0x1000), s)
  | .mailbox m =>
    let o := (a - mailboxBase) % 0x2000
    if o < 0x1000 then ((if (s.mbox m).busy then 0 else s.read64 a), s) else (s.mailboxReg m o, s)
  | _ => (s.read64 a, s)

/-- Read `n` bytes that lie in one region: memory, or register words one after another. DESIGN CHOICE, log 17. -/
def readBytes (s : State) (a n : Nat) : List Byte × State :=
  match regionOf a with
  | .csr _ | .doorbell _ | .mailbox _ =>
    let first := a / 8
    let words := (List.range' first (if n = 0 then 0 else (a + n - 1) / 8 - first + 1))
    let (bs, s1) := words.foldl (fun (acc : List Byte × State) w =>
      let (v, s1) := acc.2.readWord (w * 8)
      (acc.1 ++ toLe 8 v.toNat, s1)) ([], s)
    ((bs.drop (a % 8)).take n, s1)
  | _ => (s.bytes a n, s)

end State

end Sys2Proof.Machine
end

