-- ==== Sys2Proof/Machine/Harts.lean ====
section
/-! DEFINITION. Host cores: register access, control and status registers, interrupts, traps and trap returns (R425 to
R433, R438 to R450). Where R425 and R428 cite the RISC-V specifications, the model takes them (PRESUMED, log 2). -/

namespace Sys2Proof.Machine

namespace HostCore

def reg (c : HostCore) (i : Nat) : W64 := if i = 0 then 0 else c.x.getD i 0

def setReg (c : HostCore) (i : Nat) (v : W64) : HostCore := if i = 0 then c else { c with x := c.x.set i v }

def vreg (c : HostCore) (i : Nat) : VReg := c.y.getD i 0

def setVreg (c : HostCore) (i : Nat) (v : VReg) : HostCore := { c with y := c.y.set i v }

/-- q0 reads all ones and discards writes (R445). -/
def preg (c : HostCore) (i : Nat) : PReg := if i = 0 then BitVec.allOnes 128 else c.q.getD i 0

def setPreg (c : HostCore) (i : Nat) (v : PReg) : HostCore := if i = 0 then c else { c with q := c.q.set i v }

/-- fn is bits [63:0] of yn (R445). -/
def freg (c : HostCore) (i : Nat) : W64 := (c.vreg i).setWidth 64

/-- A scalar write of fn clears the rest of yn and makes FS Dirty (R446). -/
def setFreg (c : HostCore) (i : Nat) (v : W64) : HostCore :=
  let c1 := c.setVreg i (v.setWidth 1024)
  { c1 with csr := { c1.csr with mstatus := c1.csr.mstatus ||| 0x6000 } }

def frm (c : HostCore) : Nat := c.csr.fcsr.toNat / 32

/-- Accrue exception flags: FS becomes Dirty unless it is Off. DESIGN CHOICE, log 122. -/
def accrue (c : HostCore) (code : Nat) : HostCore :=
  if code = 0 then c
  else
    let dirty : W64 := if bitsAt c.csr.mstatus.toNat 13 2 = 0 then 0 else 0x6000
    { c with csr := { c.csr with fcsr := c.csr.fcsr ||| BitVec.ofNat 8 code, mstatus := c.csr.mstatus ||| dirty } }

/-- `mstatus.FS` is not Off. -/
def fpOn (c : HostCore) : Bool := bitsAt c.csr.mstatus.toNat 13 2 != 0

/-- SVX is not Off (R449). -/
def svxOn (c : HostCore) : Bool := c.csr.svxcsr != 0

end HostCore

namespace State

def setCore (s : State) (n : Nat) (c : HostCore) : State := { s with cores := s.cores.set n c }

def modCore (s : State) (n : Nat) (f : HostCore → HostCore) : State := s.setCore n (f (s.core n))

/-- The reservation of a core ends (R438). -/
def dropReservation (s : State) (n : Nat) : State := { s with reservations := s.reservations.filter fun r => r.1 != n }

/-! ### Interrupts (R440, R441) -/

def ringNotEmpty (s : State) (r : RingQ) : Bool := s.read64 r.base != s.read64 (r.base + 8)

/-- The non-empty message queues bound to a core, by ascending ID. -/
def messagesFor (s : State) (n : Nat) : List Nat :=
  (s.rings.filter fun r => r.kind == .message && r.core == some n && s.ringNotEmpty r).map (·.id)

/-- The core's mailbox holds a response that it has not read. -/
def responseFor (s : State) (n : Nat) : Bool := (s.mbox (16 + n)).done

/-- The supervisor external interrupt's level (R440). -/
def externalPending (s : State) (n : Nat) : Bool := !(s.messagesFor n).isEmpty || s.responseFor n

/-- `sxqsrc` (R440). -/
def sxqsrc (s : State) (n : Nat) : Nat :=
  if s.externalPending n then bit (s.responseFor n) 32 ||| (s.messagesFor n).headD 0 else 2 ^ 63

/-- `mip`: software bits, the timers and the external level. -/
def mipOf (s : State) (n : Nat) : Nat :=
  let c := (s.core n).csr
  let stip := if c.menvcfg.getLsbD 63 then decide (c.stimecmp.toNat ≤ s.now) else c.mip.getLsbD 5
  bit (c.mip.getLsbD 1) 1 ||| bit stip 5 ||| bit (decide (c.mtimecmp.toNat ≤ s.now)) 7 |||
    bit (c.mip.getLsbD 9 || s.externalPending n) 9

/-- Interrupt numbers in descending priority. -/
def irqOrder : List Nat := [11, 3, 7, 9, 1, 5]

/-- The enabled pending interrupt that a core takes next. -/
def nextIrq (s : State) (n : Nat) : Option Nat :=
  let c := s.core n
  let p := s.mipOf n &&& c.csr.mie.toNat
  let mOn := c.mode != .m || c.csr.mstatus.getLsbD 3
  let sOn := c.mode == .u || (c.mode == .s && c.csr.mstatus.getLsbD 1)
  match irqOrder.find? fun i => bitAt p i && !c.csr.mideleg.getLsbD i && mOn with
  | some i => some i
  | none => irqOrder.find? fun i => bitAt p i && c.csr.mideleg.getLsbD i && sOn && c.mode != .m

/-! ### Trace (R444) -/

def traceBase (n : Nat) : Nat := hcBase + n * 0x100_0000 + 0x80_0000

/-- A trace record: the pc, the destination, and bit 0 for traps and trap returns. -/
def traceRec (s : State) (n : Nat) (pc dst : W64) (trap : Bool) : State :=
  let c := s.core n
  if c.trace then
    let s1 := s.store (traceBase n + (c.traceCnt % 4096) * 16)
      (toLe 8 pc.toNat ++ toLe 8 (dst.toNat / 2 * 2 + bit trap 0))
    s1.setCore n { c with traceCnt := c.traceCnt + 1 }
  else s

/-! ### Traps -/

/-- `mstatus` with a field replaced. -/
def putField (v : W64) (at_ n x : Nat) : W64 :=
  (v &&& ~~~(BitVec.ofNat 64 ((2 ^ n - 1) <<< at_))) ||| BitVec.ofNat 64 ((x % 2 ^ n) <<< at_)

/-- The handler's address: vectored for interrupts where the mode bit says so. -/
def vectorPc (tvec : W64) (irq : Bool) (cause : Nat) : W64 :=
  (tvec &&& ~~~3) + (if irq && tvec.getLsbD 0 then BitVec.ofNat 64 (4 * cause) else 0)

def causeWord (irq : Bool) (cause : Nat) : W64 := BitVec.ofNat 64 (bit irq 63 + cause)

/-- Whether a trap goes to supervisor mode; cause 19 never does (R433). -/
def delegated (c : HostCore) (irq : Bool) (cause : Nat) : Bool :=
  c.mode != .m && (if irq then c.csr.mideleg.getLsbD cause else cause != 19 && c.csr.medeleg.getLsbD cause)

/-- The core after a trap is entered in machine mode. -/
def enterM (c : HostCore) (irq : Bool) (cause : Nat) (tval : W64) : HostCore :=
  let ms := putField (putField (putField c.csr.mstatus 7 1 (c.csr.mstatus.toNat / 8)) 3 1 0) 11 2 c.mode.code
  { c with
    mode := .m, pc := vectorPc c.csr.mtvec irq cause, state := .running
    csr := { c.csr with mstatus := ms, mepc := c.pc, mcause := causeWord irq cause, mtval := tval } }

/-- The core after a trap is entered in supervisor mode. -/
def enterS (c : HostCore) (irq : Bool) (cause : Nat) (tval : W64) : HostCore :=
  let ms := putField (putField (putField c.csr.mstatus 5 1 (c.csr.mstatus.toNat / 2)) 1 1 0) 8 1 c.mode.code
  { c with
    mode := .s, pc := vectorPc c.csr.stvec irq cause, state := .running
    csr := { c.csr with mstatus := ms, sepc := c.pc, scause := causeWord irq cause, stval := tval } }

/-- Take a trap: an exception or an interrupt, with the pc of the instruction that met it. PRESUMED, log 2. -/
def trap (s : State) (n : Nat) (irq : Bool) (cause : Nat) (tval : W64) : State :=
  let c := s.core n
  let c1 := if delegated c irq cause then enterS c irq cause tval else enterM c irq cause tval
  ((s.dropReservation n).setCore n c1).traceRec n c.pc c1.pc true

/-- Return from machine mode. -/
def leaveM (c : HostCore) : HostCore :=
  let ms := c.csr.mstatus
  let mpp := bitsAt ms.toNat 11 2
  let mode : Priv := if mpp = 3 then .m else if mpp = 1 then .s else .u
  let ms1 := putField (putField (putField ms 3 1 (ms.toNat / 128)) 7 1 1) 11 2 0
  { c with
    mode := mode, pc := c.csr.mepc
    csr := { c.csr with mstatus := if mode = .m then ms1 else putField ms1 17 1 0 } }

/-- Return from supervisor mode. -/
def leaveS (c : HostCore) : HostCore :=
  let ms := c.csr.mstatus
  let mode : Priv := if ms.getLsbD 8 then .s else .u
  let ms1 := putField (putField (putField (putField ms 1 1 (ms.toNat / 32)) 5 1 1) 8 1 0) 17 1 0
  { c with mode := mode, pc := c.csr.sepc, csr := { c.csr with mstatus := ms1 } }

end State

/-! ### Control and status registers -/

namespace Csr

def mstatusMask : W64 := 0x7E_79AA
def sstatusMask : W64 := 0xC_6122
def medelegMask : W64 := 0xB3FF
def midelegMask : W64 := 0x222
def mieMask : W64 := 0xAAA

/-- `misa`: MXL 2, and A, C, D, F, I, M, S, U, X (R426). -/
def misa : Nat := 2 ^ 63 + 2 ^ 0 + 2 ^ 2 + 2 ^ 3 + 2 ^ 5 + 2 ^ 8 + 2 ^ 12 + 2 ^ 18 + 2 ^ 20 + 2 ^ 23

/-- `mstatus` as read: XS summarises SVX (R449), SD any Dirty state. -/
def mstatusRead (c : Csrs) : Nat :=
  let v := c.mstatus.toNat ||| c.svxcsr.toNat <<< 15
  v ||| bit (bitsAt v 13 2 == 3 || bitsAt v 15 2 == 3) 63

/-- `sstatus`: UXL, XS, SD and the supervisor's fields. -/
def sstatusRead (c : Csrs) : Nat := mstatusRead c &&& (2 ^ 63 + 0x3_000D_E122)

/-- A write of `mstatus` through a mask; MPP keeps its value where the new one is the reserved 2. -/
def putStatus (c : Csrs) (mask v : W64) : Csrs :=
  let v1 := if bitsAt v.toNat 11 2 = 2 then State.putField v 11 2 (bitsAt c.mstatus.toNat 11 2) else v
  { c with mstatus := (c.mstatus &&& ~~~mask) ||| (v1 &&& mask) }

def masked (old v mask : W64) : W64 := (old &&& ~~~mask) ||| (v &&& mask)

/-- `menvcfg` and `senvcfg`: CBIE 2 is reserved and keeps the old field. -/
def putEnv (old v mask : W64) : W64 :=
  let v1 := if bitsAt v.toNat 4 2 = 2 then State.putField v 4 2 (bitsAt old.toNat 4 2) else v
  masked old v1 mask

/-- `satp` takes Bare, Sv39 and Sv48; any other mode leaves it as it was (R429). -/
def putSatp (old v : W64) : W64 :=
  let m := bitsAt v.toNat 60 4
  if m = 0 ∨ m = 8 ∨ m = 9 then v else old

/-- Trap vectors: mode 0 or 1. -/
def putTvec (v : W64) : W64 := v &&& ~~~2

/-! PMP (R430): 16 entries, 4 KiB granularity. -/

def pmpLocked (c : Csrs) (i : Nat) : Bool := (c.pmpcfg.getD i 0).getLsbD 7

def pmpMode (b : Byte) : Nat := bitsAt b.toNat 3 2

/-- A configuration byte as stored: NA4 is not offered at this granularity, and W without R is reserved. -/
def pmpByte (old v : Byte) : Byte :=
  if old.getLsbD 7 then old
  else
    let v1 := v &&& 0x9F
    if pmpMode v1 = 2 ∨ (v1.getLsbD 1 && !v1.getLsbD 0) then old else v1

def pmpCfgWord (c : Csrs) (g : Nat) : Nat := leNat ((List.range 8).map fun k => c.pmpcfg.getD (8 * g + k) 0)

def putPmpCfg (c : Csrs) (g : Nat) (v : W64) : Csrs :=
  let put (l : List Byte) (k : Nat) : List Byte :=
    l.set (8 * g + k) (pmpByte (l.getD (8 * g + k) 0) (BitVec.ofNat 8 (v.toNat >>> (8 * k))))
  { c with pmpcfg := (List.range 8).foldl put c.pmpcfg }

/-- `pmpaddr` as read: low bits depend on the mode. -/
def pmpAddrRead (c : Csrs) (i : Nat) : Nat :=
  let v := (c.pmpaddr.getD i 0).toNat
  if 2 ≤ pmpMode (c.pmpcfg.getD i 0) then v ||| 0x1FF else v / 1024 * 1024

def putPmpAddr (c : Csrs) (i : Nat) (v : W64) : Csrs :=
  if pmpLocked c i || (pmpLocked c (i + 1) && pmpMode (c.pmpcfg.getD (i + 1) 0) == 1) then c
  else { c with pmpaddr := c.pmpaddr.set i (BitVec.ofNat 64 (v.toNat % 2 ^ 54)) }

/-- Whether a counter is enabled for the mode. -/
def counterOk (c : HostCore) (i : Nat) : Bool :=
  (c.mode == .m || c.csr.mcounteren.getLsbD i) && (c.mode != .u || c.csr.scounteren.getLsbD i)

/-- The counters at 0xC00 and 0xB00 by number (R427). -/
def counter (c : HostCore) (i : Nat) : W64 :=
  if i = 0 then c.csr.cycle
  else if i = 2 then c.csr.instret
  else if 3 ≤ i ∧ i ≤ 6 then (if (c.csr.hpmevent.getD (i - 3) 0).toNat ≤ 4 then c.csr.hpm.getD (i - 3) 0 else 0)
  else 0

def putCounter (c : Csrs) (i : Nat) (v : W64) : Csrs :=
  if i = 0 then { c with cycle := v }
  else if i = 2 then { c with instret := v }
  else if 3 ≤ i ∧ i ≤ 6 then { c with hpm := c.hpm.set (i - 3) v }
  else c

/-- The least privilege and the read-only mark in a CSR's number. -/
def privOk (c : HostCore) (a : Nat) : Bool := decide (bitsAt a 8 2 ≤ c.mode.code)

/-- The value of a CSR; none where its access is illegal. PRESUMED, log 2. -/
def read (s : State) (n : Nat) (a : Nat) : Option Nat :=
  let c := s.core n
  let k := c.csr
  if !privOk c a then none
  else if 0x001 ≤ a ∧ a ≤ 0x003 then
    (if !c.fpOn then none
    else some (if a = 1 then k.fcsr.toNat % 32 else if a = 2 then k.fcsr.toNat / 32 else k.fcsr.toNat))
  else if 0xC00 ≤ a ∧ a ≤ 0xC1F then
    (if !counterOk c (a - 0xC00) then none
    else if a = 0xC01 then some s.now
    else some (counter c (a - 0xC00)).toNat)
  else if (a = 0xB00 ∨ (0xB02 ≤ a ∧ a ≤ 0xB1F)) then some (counter c (a - 0xB00)).toNat
  else if 0x323 ≤ a ∧ a ≤ 0x33F then
    some (if a ≤ 0x326 then (k.hpmevent.getD (a - 0x323) 0).toNat else 0)
  else if 0x3B0 ≤ a ∧ a ≤ 0x3BF then some (pmpAddrRead k (a - 0x3B0))
  else
    match a with
    | 0x800 => if c.svxOn then some k.svxstart.toNat else none
    | 0xCC0 => if c.svxOn then some 128 else none
    | 0x5C0 => some k.svxcsr.toNat
    | 0xDC0 => some (s.sxqsrc n)
    | 0x7C0 => some k.mtimecmp.toNat
    | 0x100 => some (sstatusRead k)
    | 0x104 => some (k.mie &&& k.mideleg).toNat
    | 0x105 => some k.stvec.toNat
    | 0x106 => some k.scounteren.toNat
    | 0x10A => some k.senvcfg.toNat
    | 0x140 => some k.sscratch.toNat
    | 0x141 => some k.sepc.toNat
    | 0x142 => some k.scause.toNat
    | 0x143 => some k.stval.toNat
    | 0x144 => some (s.mipOf n &&& k.mideleg.toNat)
    | 0x14D =>
      if c.mode = .m ∨ (k.menvcfg.getLsbD 63 ∧ k.mcounteren.getLsbD 1) then some k.stimecmp.toNat else none
    | 0x180 => if c.mode = .s ∧ k.mstatus.getLsbD 20 then none else some k.satp.toNat
    | 0x300 => some (mstatusRead k)
    | 0x301 => some misa
    | 0x302 => some k.medeleg.toNat
    | 0x303 => some k.mideleg.toNat
    | 0x304 => some k.mie.toNat
    | 0x305 => some k.mtvec.toNat
    | 0x306 => some k.mcounteren.toNat
    | 0x30A => some k.menvcfg.toNat
    | 0x320 => some k.mcountinhibit.toNat
    | 0x340 => some k.mscratch.toNat
    | 0x341 => some k.mepc.toNat
    | 0x342 => some k.mcause.toNat
    | 0x343 => some k.mtval.toNat
    | 0x344 => some (s.mipOf n)
    | 0x3A0 => some (pmpCfgWord k 0)
    | 0x3A2 => some (pmpCfgWord k 1)
    | 0xF11 => some vendorId
    | 0xF12 => some 0xD80
    | 0xF13 => some s.numericsRev
    | 0xF14 => some n
    | 0xF15 => some 0
    | _ => none

/-- The registers after a write of a CSR that `read` allows; the read-only ones are refused by number. PRESUMED, log 2. -/
def write (k : Csrs) (a : Nat) (v : W64) : Csrs :=
  if 0xB00 ≤ a ∧ a ≤ 0xB1F then putCounter k (a - 0xB00) v
  else if 0x323 ≤ a ∧ a ≤ 0x33F then
    (if a ≤ 0x326 then { k with hpmevent := k.hpmevent.set (a - 0x323) v } else k)
  else if 0x3B0 ≤ a ∧ a ≤ 0x3BF then putPmpAddr k (a - 0x3B0) v
  else
    match a with
    | 0x001 => { k with fcsr := (k.fcsr &&& 0xE0) ||| (v.setWidth 8 &&& 0x1F), mstatus := k.mstatus ||| 0x6000 }
    | 0x002 => { k with fcsr := (k.fcsr &&& 0x1F) ||| ((v.setWidth 8 &&& 7) <<< 5), mstatus := k.mstatus ||| 0x6000 }
    | 0x003 => { k with fcsr := v.setWidth 8, mstatus := k.mstatus ||| 0x6000 }
    | 0x800 => { k with svxstart := v }
    | 0x5C0 => { k with svxcsr := v.setWidth 2 }
    | 0x7C0 => { k with mtimecmp := v }
    | 0x100 => putStatus k sstatusMask v
    | 0x104 => { k with mie := masked k.mie v (mieMask &&& k.mideleg) }
    | 0x105 => { k with stvec := putTvec v }
    | 0x106 => { k with scounteren := v &&& 0xFFFFFFFF }
    | 0x10A => { k with senvcfg := putEnv k.senvcfg v 0xF1 }
    | 0x140 => { k with sscratch := v }
    | 0x141 => { k with sepc := v &&& ~~~1 }
    | 0x142 => { k with scause := v }
    | 0x143 => { k with stval := v }
    | 0x144 => { k with mip := masked k.mip v (0x2 &&& k.mideleg) }
    | 0x14D => { k with stimecmp := v }
    | 0x180 => { k with satp := putSatp k.satp v }
    | 0x300 => putStatus k mstatusMask v
    | 0x302 => { k with medeleg := v &&& medelegMask }
    | 0x303 => { k with mideleg := v &&& midelegMask }
    | 0x304 => { k with mie := v &&& mieMask }
    | 0x305 => { k with mtvec := putTvec v }
    | 0x306 => { k with mcounteren := v &&& 0xFFFFFFFF }
    | 0x30A => { k with menvcfg := putEnv k.menvcfg v 0x8000_0000_0000_00F1 }
    | 0x320 => { k with mcountinhibit := v &&& 0x7D }
    | 0x340 => { k with mscratch := v }
    | 0x341 => { k with mepc := v &&& ~~~1 }
    | 0x342 => { k with mcause := v }
    | 0x343 => { k with mtval := v }
    | 0x344 => { k with mip := masked k.mip v (if k.menvcfg.getLsbD 63 then 0x202 else 0x222) }
    | 0x3A0 => putPmpCfg k 0 v
    | 0x3A2 => putPmpCfg k 1 v
    | _ => k

/-- The outcome of a CSR instruction: the old value and the state after the write, if it writes; none where the access
is illegal. -/
def access (s : State) (n a : Nat) (w : Option (W64 → W64)) : Option (W64 × State) :=
  match read s n a with
  | none => none
  | some old =>
    let o := BitVec.ofNat 64 old
    match w with
    | none => some (o, s)
    | some f =>
      if bitsAt a 10 2 = 3 then none
      else
        -- a set or clear of `mip` or `sip` acts on the software bits, not on the external level
        let base := if a = 0x344 ∨ a = 0x144 then o &&& ~~~0x200 ||| ((s.core n).csr.mip &&& 0x200) else o
        some (o, s.modCore n fun c => { c with csr := write c.csr a (f base) })

end Csr

/-- TIMER_INTERRUPT: a comparison comes true and its interrupt becomes pending; a core in WFI goes on, and takes the
interrupt where it is enabled (R441). DEDUCED, log 111. -/
def timerFires (s : State) (n : Nat) : State :=
  let c := s.core n
  if bitsAt (s.mipOf n) 5 3 = 0 then s
  else
    match c.state with
    | .running | .wfi =>
      match s.nextIrq n with
      | some i => s.trap n true i 0
      | none =>
        if c.state = .wfi ∧ s.mipOf n &&& c.csr.mie.toNat ≠ 0 then s.setCore n { c with state := .running } else s
    | _ => s

def execTimerInterrupt (n : Fin 32) (s : State) : Host.Outcome State Fault Refusal := .next (timerFires s n.val)

end Sys2Proof.Machine
end

