-- ==== Sys2Proof/Machine/Mmu.lean ====
section
/-! DEFINITION. Memory as a host core sees it: PMP (R430), Sv39 and Sv48 (R429), the attributes of the regions (R431,
R432), hardware errors (R433), and the core's caches (R289 to R291, R434). -/

namespace Sys2Proof.Machine

/-- The kind of an access; `amo` stands for AMO and SC, `lr` for LR, which reads alone. -/
inductive Access where
  | fetch | load | store | amo | lr
  deriving DecidableEq, Repr

namespace Access

/-- The exception codes of RISC-V: access fault, page fault, misaligned. -/
def fault : Access → Nat
  | .fetch => 1 | .load => 5 | .store => 7 | .amo => 7 | .lr => 5

def page : Access → Nat
  | .fetch => 12 | .load => 13 | .store => 15 | .amo => 15 | .lr => 13

def misaligned : Access → Nat
  | .fetch => 0 | .load => 4 | .store => 6 | .amo => 6 | .lr => 4

def writes : Access → Bool
  | .store => true | .amo => true | _ => false

end Access

/-- The result of a memory operation of a core: a value, or an exception with its cause; the state in either case. -/
inductive MemRes (α : Type) where
  | ok (v : α) (s : State)
  | trap (cause : Nat) (s : State)

/-! ### PMP -/

namespace Pmp

/-- The range [lo, hi) of entry i, if it is on. -/
def range (c : Csrs) (i : Nat) : Option (Nat × Nat) :=
  let addr (k : Nat) : Nat := (c.pmpaddr.getD k 0).toNat
  match Csr.pmpMode (c.pmpcfg.getD i 0) with
  | 1 => some (if i = 0 then 0 else addr (i - 1) / 1024 * 4096, addr i / 1024 * 4096)
  | 3 =>
    let v := addr i ||| 0x1FF
    let ones := ((List.range 55).find? fun k => !v.testBit k).getD 54
    let size := 2 ^ (ones + 3)
    let base := (v * 4) / size * size
    some (base, base + size)
  | _ => none

/-- Whether an entry allows a kind of access. -/
def allows (b : Byte) (k : Access) : Bool :=
  match k with
  | .fetch => b.getLsbD 2
  | .load => b.getLsbD 0
  | .lr => b.getLsbD 0
  | .store => b.getLsbD 1
  | .amo => b.getLsbD 0 && b.getLsbD 1

/-- The lowest entry that meets the bytes [a, a + n) decides; it must hold all of them. -/
def ok (c : Csrs) (mode : Priv) (k : Access) (a n : Nat) : Bool :=
  match (List.range 16).find? fun i =>
      match range c i with
      | some (lo, hi) => decide (lo < a + n) && decide (a < hi)
      | none => false with
  | some i =>
    match range c i with
    | some (lo, hi) =>
      let b := c.pmpcfg.getD i 0
      decide (lo ≤ a) && decide (a + n ≤ hi) && ((mode == .m && !b.getLsbD 7) || allows b k)
    | none => false
  | none => mode == .m

end Pmp

namespace State

/-! ### Physical accesses -/

/-- Whether a region takes a kind of access of a core (R431). -/
def regionTakes (n : Nat) (k : Access) (r : Region) : Bool :=
  match k, r with
  | .fetch, .edern _ => true
  | .fetch, .hcStore m => m == n
  | .fetch, _ => false
  | .amo, .edern _ => true
  | .amo, _ => false
  | .lr, .edern _ => true
  | .lr, _ => false
  | _, _ => true

/-- Whether a region takes a misaligned scalar access within one 64-byte block (R431). -/
def misalignOk : Region → Bool
  | .edern _ => true
  | .hcStore _ => true
  | .hcTrace _ => true
  | _ => false

/-- Whether SVX reaches a region (R431). -/
def svxOk : Region → Bool
  | .edern _ => true
  | .hcStore _ => true
  | .hcTrace _ => true
  | .cluster _ => true
  | _ => false

/-- The exception of a physical access of n bytes, if one is raised (R430 to R432). -/
def physFault (s : State) (hc : Fin 32) (mode : Priv) (k : Access) (svx : Bool) (a n : Nat) : Option Nat :=
  let r := regionOf a
  if 2 ^ 52 ≤ a ∨ !Pmp.ok (s.core hc.val).csr mode k a n then some k.fault
  else if (s.refusal (.hostCore hc) k.writes a 1).isSome ∨ !regionTakes hc.val k r ∨ (svx ∧ !svxOk r) then some k.fault
  else if a % n ≠ 0 ∧ (k = .amo ∨ k = .lr ∨ svx ∨ !misalignOk r ∨ 64 < a % 64 + n) then some k.misaligned
  else if (s.refusal (.hostCore hc) k.writes a n).isSome then some k.fault
  else none

/-- The blocks of 64 bytes that a range touches. -/
def blocksOf (a n : Nat) : List Nat :=
  if n = 0 then [] else (List.range' (a / 64) ((a + n - 1) / 64 - a / 64 + 1)).map (· * 64)

/-- A core takes a copy of the blocks of a range: another core's dirty copy is written back first (R290).
DESIGN CHOICE, log 47. -/
def cacheBlocks (s : State) (n : Nat) (bs : List Nat) : State :=
  { s with caches := bs.foldl (fun cs b =>
      let cs1 := cs.map fun x => if x.addr = b ∧ x.core ≠ n then { x with stale := none } else x
      if cs1.any fun x => x.addr = b ∧ x.core = n then cs1 else cs1 ++ [{ core := n, addr := b, stale := none }]) s.caches }

/-- A store of a core into Edern memory: its block becomes dirty, other copies go, reservations on the line end, and a
granule shared with a generation is copied (R268, R290, R291, R296). DESIGN CHOICE, log 47. -/
def cacheStore (s : State) (n a : Nat) (bs : List Byte) : State :=
  let blocks := blocksOf a bs.length
  let dirty (cs : List CacheBlock) (b : Nat) : List CacheBlock :=
    let kept := cs.filter fun x => !(x.addr == b)
    let old := match cs.find? fun x => x.addr == b && x.core == n with
      | some x => x.stale.getD (s.bytes b 64)
      | none => s.bytes b 64
    kept ++ [{ core := n, addr := b, stale := some old }]
  { s with
    mem := s.mem.setBytes a bs
    caches := blocks.foldl dirty s.caches
    reservations := s.reservations.filter fun r => !(decide (r.2 < a + bs.length) && decide (a < r.2 + 256))
    jobs := s.jobs.map fun j => (granulesIn a bs.length).foldl touchGranule j }

/-- A read of a poisoned line by a core: a detected fault (R272, R433). -/
def coreError (s : State) (n a : Nat) : State :=
  s.detect false { mech := Mech.poisonRead.code, cls := 3, index := stackOf a, job := (s.core n).job, addr := a / 256 * 256 }

/-- Read n bytes at a physical address that `physFault` allows. -/
def physRead (s : State) (hc : Nat) (a n : Nat) : MemRes (List Byte) :=
  match regionOf a with
  | .edern _ =>
    if s.poisonIn a n then .trap 19 (s.coreError hc a)
    else .ok (s.bytes a n) (s.cacheBlocks hc (blocksOf a n))
  | _ =>
    let (bs, s1) := s.readBytes a n
    .ok bs s1

/-- Write bytes at a physical address that `physFault` allows. A partial write of a poisoned line is a detected fault and
leaves it (R272); the trace buffer ignores the core while it captures (R444); a part of a register is ignored. -/
def physWrite (s : State) (hc : Nat) (a : Nat) (bs : List Byte) : State :=
  let n := bs.length
  match regionOf a with
  | .edern _ => if s.poisonIn a n then s.coreError hc a else s.cacheStore hc a bs
  | .hcTrace _ => if (s.core hc).trace then s else s.store a bs
  | .hcStore _ => s.store a bs
  | .cluster _ => s.store a bs
  | .doorbell q => if a % 0x1000 = 0 ∧ n = 8 then s.ringQueue q (BitVec.ofNat 64 (leNat bs)) else s
  | .mailbox m =>
    let o := (a - mailboxBase) % 0x2000
    if o < 0x1000 then s.mboxAreaWrite m o bs
    else if n ≠ 8 then s
    else if o = 0x1000 then (if bitAt (leNat bs) 0 then s.ringMailbox m else s)
    else if o = 0x1008 then s.mboxStatusWrite m (leNat bs)
    else s
  | _ => s

end State

/-! ### Translation (R429) -/

namespace Mmu

/-- A leaf of the page table: where it lies, the entry, and the level. -/
structure Leaf where
  addr : Nat
  pte : Nat
  level : Nat

/-- One level of the walk: an error, a leaf, or the table below. -/
def entry (s : State) (hc : Fin 32) (k : Access) (va level table : Nat) (down : Nat → MemRes Leaf) : MemRes Leaf :=
  let a := table + bitsAt va (12 + 9 * level) 9 * 8
  if (s.physFault hc .s .load false a 8).isSome then .trap k.fault s
  else
    match s.physRead hc.val a 8 with
    | .trap c s1 => .trap c s1
    | .ok bs _ =>
      let pte := leNat bs
      if !bitAt pte 0 || (!bitAt pte 1 && bitAt pte 2) || bitsAt pte 54 10 != 0 then .trap k.page s
      else if bitAt pte 1 || bitAt pte 3 then
        (if bitsAt pte 10 (9 * level) = 0 then .ok ⟨a, pte, level⟩ s else .trap k.page s)
      else if bitAt pte 4 || bitAt pte 6 || bitAt pte 7 then .trap k.page s
      else down (bitsAt pte 10 44 * 4096)

/-- The walk from a level downwards. -/
def walk (s : State) (hc : Fin 32) (k : Access) (va : Nat) : Nat → Nat → MemRes Leaf
  | 0, table => entry s hc k va 0 table fun _ => .trap k.page s
  | l + 1, table => entry s hc k va (l + 1) table (walk s hc k va l)

/-- Whether a leaf's permissions allow an access in a mode. -/
def permits (c : HostCore) (mode : Priv) (k : Access) (pte : Nat) : Bool :=
  let r := bitAt pte 1
  let w := bitAt pte 2
  let x := bitAt pte 3
  let u := bitAt pte 4
  let kind := match k with
    | .fetch => x
    | .load | .lr => r || (x && c.csr.mstatus.getLsbD 19)
    | _ => w
  kind && (match mode with
    | .u => u
    | _ => !u || (k != .fetch && c.csr.mstatus.getLsbD 18))

/-- Set the A bit, and D for a write, as one update at the stack. -/
def touch (s : State) (hc : Fin 32) (k : Access) (f : Leaf) : Option State :=
  let want := f.pte ||| 2 ^ 6 ||| (if k.writes then 2 ^ 7 else 0)
  if want = f.pte then some s
  else if (s.physFault hc .s .amo false f.addr 8).isSome then none
  else some (s.store64 f.addr (BitVec.ofNat 64 want))

/-- Whether a virtual address is in canonical form for a number of levels. -/
def canonical (va levels : Nat) : Bool :=
  let b := 12 + 9 * levels
  let top := va >>> (b - 1)
  top == 0 || top == 2 ^ (65 - b) - 1

/-- The physical address of a virtual one. DESIGN CHOICE, log 110. PRESUMED, log 2. -/
def translate (s : State) (hc : Fin 32) (mode : Priv) (k : Access) (va : Nat) : MemRes Nat :=
  let c := s.core hc.val
  let m := bitsAt c.csr.satp.toNat 60 4
  if mode = .m ∨ m = 0 then .ok va s
  else
    let levels := if m = 8 then 3 else 4
    if !canonical va levels then .trap k.page s
    else
      match walk s hc k va (levels - 1) (bitsAt c.csr.satp.toNat 0 44 * 4096) with
      | .trap cause s1 => .trap cause s1
      | .ok f _ =>
        if !permits c mode k f.pte then .trap k.page s
        else
          match touch s hc k f with
          | some s1 =>
            let size := 2 ^ (12 + 9 * f.level)
            .ok (bitsAt f.pte 10 44 * 4096 + va % size) s1
          | none => .trap k.fault s

/-- The mode that loads and stores act in: MPRV lends the previous one. -/
def dataMode (c : HostCore) : Priv :=
  if c.mode = .m ∧ c.csr.mstatus.getLsbD 17 then
    (match bitsAt c.csr.mstatus.toNat 11 2 with
      | 0 => .u
      | 1 => .s
      | _ => .m)
  else c.mode

/-- Translate and check an access of n bytes: its physical address. PRESUMED, log 2. -/
def resolve (s : State) (hc : Fin 32) (k : Access) (svx : Bool) (va n : Nat) : MemRes Nat :=
  let c := s.core hc.val
  let mode := if k = .fetch then c.mode else dataMode c
  match translate s hc mode k va with
  | .trap cause s1 => .trap cause s1
  | .ok a s1 =>
    match s1.physFault hc mode k svx a n with
    | some cause => .trap cause s1
    | none => .ok a s1

/-- Load n bytes. -/
def load (s : State) (hc : Fin 32) (svx : Bool) (va n : Nat) : MemRes Nat :=
  match resolve s hc .load svx va n with
  | .trap cause s1 => .trap cause s1
  | .ok a s1 =>
    match s1.physRead hc.val a n with
    | .trap cause s2 => .trap cause s2
    | .ok bs s2 => .ok (leNat bs) s2

/-- Store n bytes. -/
def store (s : State) (hc : Fin 32) (svx : Bool) (va n v : Nat) : MemRes Unit :=
  match resolve s hc .store svx va n with
  | .trap cause s1 => .trap cause s1
  | .ok a s1 => .ok () (s1.physWrite hc.val a (toLe n v))

/-- Fetch at the pc: the parcel must be readable as an instruction. -/
def fetchFault (s : State) (hc : Fin 32) (va n : Nat) : Option (Nat × State) :=
  match resolve s hc .fetch false va n with
  | .trap cause s1 => some (cause, s1)
  | .ok a s1 => if isEdern a && s1.poisonIn a n then some (19, s1.coreError hc.val a) else none

end Mmu

end Sys2Proof.Machine
end

