-- ==== Sys2Proof/Machine/CoreRun.lean ====
section
/-! DEFINITION. How a host core executes one instruction: interrupts and the fetch come first, then the body, then the pc,
the counters and the trace; and the instructions with rows of their own: cache-block operations (R436), atomics (R268,
R438) and FENCE (R435). -/

namespace Sys2Proof.Machine

/-- How an instruction ends. DEDUCED, log 111. -/
inductive IRes where
  /-- It completes and the pc moves past it. -/
  | done (s : State)
  /-- It completes with a control transfer. -/
  | jump (s : State) (target : W64)
  /-- It completes as a return from a trap: the pc and the mode are set; `from_` was the pc. -/
  | ret (s : State) (from_ : W64)
  /-- It completes and the core waits for an interrupt. -/
  | wait (s : State)
  /-- It raises an exception. -/
  | trap (s : State) (cause : Nat) (tval : W64)

namespace State

/-- A counter that counts what a step of the core brings: an event that R427 defines, or a free amount for steps and
misses (DESIGN CHOICE, log 7). -/
def bumpHpm (n : Nat) (svx : Bool) (s : State) (i : Nat) : State :=
  let k := (s.core n).csr
  if k.mcountinhibit.getLsbD (i + 3) then s
  else
    let add (s : State) (d : W64) : State :=
      s.modCore n fun c => { c with csr := { c.csr with hpm := c.csr.hpm.set i (c.csr.hpm.getD i 0 + d) } }
    match (k.hpmevent.getD i 0).toNat with
    | 0 => s
    | 1 => if svx then add s 1 else s
    | 2 | 3 | 4 => let (v, s1) := s.fresh; add s1 v
    | _ => s.modCore n fun c => { c with csr := { c.csr with hpm := c.csr.hpm.set i 0 } }

/-- The counters after an instruction retires (R421, R427). DESIGN CHOICE, log 7. -/
def retire (s : State) (n : Nat) (svx : Bool) : State :=
  let (v, s0) := s.fresh
  let s1 := s0.modCore n fun c =>
    let k := c.csr
    { c with
      retired := c.retired + 1
      csr := { k with
        cycle := if k.mcountinhibit.getLsbD 0 then k.cycle else k.cycle + v
        instret := if k.mcountinhibit.getLsbD 2 then k.instret else k.instret + 1 } }
  (List.range 4).foldl (bumpHpm n svx) s1

/-- What follows an instruction of `len` bytes. -/
def endInstr (n : Nat) (svx : Bool) (len : Nat) : IRes → State
  | .done s => (s.modCore n fun c => { c with pc := c.pc + BitVec.ofNat 64 len }).retire n svx
  | .jump s t => ((s.traceRec n (s.core n).pc t false).modCore n fun c => { c with pc := t }).retire n svx
  | .ret s pc => (s.traceRec n pc (s.core n).pc true).retire n svx
  | .wait s => (s.modCore n fun c => { c with pc := c.pc + BitVec.ofNat 64 len, state := .wfi }).retire n svx
  | .trap s cause tval => s.trap n false cause tval

/-- The first fault of the parcels of an instruction at the pc. -/
def fetchFails (s : State) (hc : Fin 32) (len : Nat) : Option (Nat × State × W64) :=
  let pc := (s.core hc.val).pc
  let at_ (d : Nat) : Option (Nat × State × W64) :=
    let a := pc + BitVec.ofNat 64 d
    (Mmu.fetchFault s hc a.toNat 2).map fun r => (r.1, r.2, a)
  match at_ 0 with
  | some r => some r
  | none => if len = 4 then at_ 2 else none

/-- One instruction of `len` bytes on a core: nothing unless the core runs; an enabled interrupt is taken in its place;
a fetch that fails traps. DEDUCED, log 111. -/
def runInstr (hc : Fin 32) (svx : Bool) (len : Nat) (body : State → IRes) (s : State) : State :=
  let n := hc.val
  let c := s.core n
  if c.state != .running && c.state != .wfi then s
  else
    let s0 := s.setCore n { c with state := .running }
    match s0.nextIrq n with
    | some i => s0.trap n true i 0
    | none =>
      match s0.fetchFails hc len with
      | some (cause, s1, a) => s1.trap n false cause a
      | none => endInstr n svx len (body s0)

end State

/-- An illegal instruction; `w` is its word. -/
def illegal (s : State) (w : Nat) : IRes := .trap s 2 (BitVec.ofNat 64 w)

/-- Write an integer register and complete. -/
def withReg (s : State) (n rd : Nat) (v : W64) : IRes := .done (s.modCore n fun c => c.setReg rd v)

/-! ### Cache-block operations (R436) -/

namespace Cbo

inductive Op where
  | clean | flush | zero | inval
  deriving DecidableEq, Repr

/-- The envcfg fields of the mode and the modes below machine (CBIE for inval, CBCFE for clean and flush, CBZE for
zero): whether the operation is allowed, and for inval whether it acts as a flush. -/
def allowed (c : HostCore) (op : Op) : Bool :=
  let ok (v : W64) : Bool := match op with
    | .inval => bitsAt v.toNat 4 2 != 0
    | .zero => v.getLsbD 7
    | _ => v.getLsbD 6
  (c.mode == .m || ok c.csr.menvcfg) && (c.mode != .u || ok c.csr.senvcfg)

def flushes (c : HostCore) : Bool :=
  (c.mode != .m && bitsAt c.csr.menvcfg.toNat 4 2 == 1) || (c.mode == .u && bitsAt c.csr.senvcfg.toNat 4 2 == 1)

/-- The effect on the block at a physical address. -/
def act (s : State) (op : Op) (a : Nat) : State :=
  match op with
  | .clean => { s with caches := s.caches.map fun b => if b.addr = a then { b with stale := none } else b }
  | .flush => { s with caches := s.caches.filter fun b => b.addr != a }
  | .zero => s.store a (List.replicate 64 0)
  | .inval =>
    -- the stack's bytes come back where the copy was dirty
    let back (s : State) (b : CacheBlock) : State :=
      match b.stale with
      | some old => { s with mem := s.mem.setBytes a old }
      | none => s
    let s1 := (s.caches.filter fun b => b.addr == a).foldl back s
    { s1 with caches := s1.caches.filter fun b => b.addr != a }

/-- The access whose permissions a cache-block operation needs: any right to the block serves management. PRESUMED, log 2. -/
def resolve (s : State) (hc : Fin 32) (op : Op) (va : Nat) : MemRes Nat :=
  let s0 := s
  match op with
  | .zero => Mmu.resolve s0 hc .store false va 64
  | _ =>
    match Mmu.resolve s0 hc .load false va 64 with
    | .ok a s1 => .ok a s1
    | .trap _ _ => Mmu.resolve s0 hc .store false va 64

def body (hc : Fin 32) (op : Op) (rs1 : Nat) (w : Nat) (s : State) : IRes :=
  let c := s.core hc.val
  if !allowed c op then illegal s w
  else
    let va := (c.reg rs1).toNat / 64 * 64
    match resolve s hc op va with
    | .trap cause s1 => .trap s1 cause (BitVec.ofNat 64 va)
    | .ok a s1 =>
      let op1 := if op = .inval ∧ flushes c then .flush else op
      if op = .zero ∧ !isEdern a then .done (s1.physWrite hc.val a (List.replicate 64 0))
      else if op = .zero ∧ s1.poisonIn a 64 then .done (s1.coreError hc.val a)
      else .done (if isEdern a then act s1 op1 a else s1)

end Cbo

/-- The word of a cache-block instruction, by its operation and base register. -/
def cboWord (imm rs1 : Nat) : Nat := imm <<< 20 ||| rs1 <<< 15 ||| 2 <<< 12 ||| 0x0F

def execCboClean (n : Fin 32) (rs1 : BitVec 5) (s : State) : Host.Outcome State Fault Refusal :=
  .next (s.runInstr n false 4 (Cbo.body n .clean rs1.toNat (cboWord 1 rs1.toNat)))

def execCboFlush (n : Fin 32) (rs1 : BitVec 5) (s : State) : Host.Outcome State Fault Refusal :=
  .next (s.runInstr n false 4 (Cbo.body n .flush rs1.toNat (cboWord 2 rs1.toNat)))

def execCboZero (n : Fin 32) (rs1 : BitVec 5) (s : State) : Host.Outcome State Fault Refusal :=
  .next (s.runInstr n false 4 (Cbo.body n .zero rs1.toNat (cboWord 4 rs1.toNat)))

def execCboInval (n : Fin 32) (rs1 : BitVec 5) (s : State) : Host.Outcome State Fault Refusal :=
  .next (s.runInstr n false 4 (Cbo.body n .inval rs1.toNat (cboWord 0 rs1.toNat)))

/-! ### Atomics at the stack (R268, R438) -/

namespace Amo

/-- The new word of an atomic on `bits` bits: the word held, the operand. -/
def compute (op : AmoOp) (bits : Nat) (old v : Nat) : Nat :=
  match op with
  | .swap => v
  | .add => (old + v) % 2 ^ bits
  | .xor => old ^^^ v
  | .and => old &&& v
  | .or => old ||| v
  | .min => if signedOf bits v < signedOf bits old then v else old
  | .max => if signedOf bits old < signedOf bits v then v else old
  | .minu => min old v
  | .maxu => max old v

/-- Sign-extend a word of `n` bytes into a register. -/
def extend (n v : Nat) : W64 := BitVec.ofInt 64 (signedOf (8 * n) v)

/-- The word as the stack holds it once dirty copies are recalled. -/
def atStack (s : State) (a n : Nat) : State := s.recallBlocks a n

def body (hc : Fin 32) (op : AmoOp) (double : Bool) (rd rs1 rs2 : Nat) (s : State) : IRes :=
  let c := s.core hc.val
  let n := if double then 8 else 4
  let va := (c.reg rs1).toNat
  match Mmu.resolve s hc .amo false va n with
  | .trap cause s1 => .trap s1 cause (BitVec.ofNat 64 va)
  | .ok a s1 =>
    if s1.poisonIn a n then .trap (s1.coreError hc.val a) 19 (BitVec.ofNat 64 va)
    else
      let old := s1.read a n
      let v := (c.reg rs2).toNat % 2 ^ (8 * n)
      withReg ((atStack s1 a n).storeNat a n (compute op (8 * n) old v)) hc.val rd (extend n old)

/-- LR: the word is read and the 256-byte line is reserved. -/
def lr (hc : Fin 32) (double : Bool) (rd rs1 : Nat) (s : State) : IRes :=
  let c := s.core hc.val
  let n := if double then 8 else 4
  let va := (c.reg rs1).toNat
  match Mmu.resolve s hc .lr false va n with
  | .trap cause s1 => .trap s1 cause (BitVec.ofNat 64 va)
  | .ok a s1 =>
    if s1.poisonIn a n then .trap (s1.coreError hc.val a) 19 (BitVec.ofNat 64 va)
    else
      let s2 := (atStack s1 a n).dropReservation hc.val
      withReg { s2 with reservations := s2.reservations ++ [(hc.val, a / 256 * 256)] } hc.val rd (extend n (s1.read a n))

/-- SC: the word is written, and 0 returned, only while the core's reservation holds its line; the reservation ends. -/
def sc (hc : Fin 32) (double : Bool) (rd rs1 rs2 : Nat) (s : State) : IRes :=
  let c := s.core hc.val
  let n := if double then 8 else 4
  let va := (c.reg rs1).toNat
  match Mmu.resolve s hc .amo false va n with
  | .trap cause s1 => .trap s1 cause (BitVec.ofNat 64 va)
  | .ok a s1 =>
    let held := s1.reservations.contains (hc.val, a / 256 * 256)
    let s2 := s1.dropReservation hc.val
    if !held then withReg s2 hc.val rd 1
    else if s2.poisonIn a n then .trap (s2.coreError hc.val a) 19 (BitVec.ofNat 64 va)
    else withReg ((atStack s2 a n).storeNat a n ((c.reg rs2).toNat % 2 ^ (8 * n))) hc.val rd 0

end Amo

def execHcAmo (n : Fin 32) (op : AmoOp) (double : Bool) (rd rs1 rs2 : BitVec 5) (s : State) :
    Host.Outcome State Fault Refusal :=
  .next (s.runInstr n false 4 (Amo.body n op double rd.toNat rs1.toNat rs2.toNat))

def execLrSc (n : Fin 32) (sc double : Bool) (rd rs1 rs2 : BitVec 5) (s : State) : Host.Outcome State Fault Refusal :=
  .next (s.runInstr n false 4
    (if sc then Amo.sc n double rd.toNat rs1.toNat rs2.toNat else Amo.lr n double rd.toNat rs1.toNat))

/-- FENCE orders accesses: the model performs them in order, so the pc moves on (R435). DESIGN CHOICE, log 110. -/
def fenceInstr (s : State) : IRes := .done s

def execHcFence (n : Fin 32) (_pred _succ : BitVec 4) (s : State) : Host.Outcome State Fault Refusal :=
  .next (s.runInstr n false 4 fenceInstr)

end Sys2Proof.Machine
end

