-- ==== Sys2Proof/Machine/Stacks.lean ====
section
/-! DEFINITION. Edern stacks: error correction and die marks (R269 to R273), line reads and writes, atomics (R267,
R268), patrol (R275, R276) and refresh (R274). -/

namespace Sys2Proof.Machine

/-! ### Corrections and die marks (R270, R271) -/

namespace State

def modStack (s : State) (e : Nat) (f : Edern → Edern) : State := { s with edern := s.edern.modify e f }

/-- Mark a DRAM die: the unit map holds the mark, a DIE_MARK record and one STACK_DIE_MARKED event (R271). -/
def markDie (s : State) (st d addr : Nat) : State :=
  let s1 := (s.modStack st fun e => { e with markedDie := some d })
  let s2 := s1.writeMap { s1.unitMap with gen := s1.unitMap.gen + 1 }
  (s2.recordFault { mech := Mech.dieMark.code, outcome := .masked, cls := 3, index := st, addr := addr, detail := d }).postDevice
    .stackDieMarked (toLe 1 st ++ toLe 1 d)

/-- The die that the corrections of this pass mark: one whose symbols were erased, or one with errors in 16 lines
(R271). DEDUCED, log 48. -/
def dieToMark (x : Edern) (erased : Option Nat) : Option Nat :=
  if x.markedDie.isSome then none
  else if erased.isSome then erased
  else (List.range 16).find? fun d => decide (16 ≤ (x.corrected.filter fun c => c.2 == d).length)

/-- Count the corrections of a physical line, read at an address, and attribute them to dies (R271, R277). DEDUCED, log 48. -/
def noteCorrected (s : State) (st addr line : Nat) (vs : List Ecc.Verdict) : State :=
  let n := (vs.filter Ecc.Verdict.isCorrected).length
  if n = 0 then s
  else
    let pairs := ((vs.flatMap Ecc.Verdict.dies).eraseDups).map fun d => (line, d)
    let s1 := s.modStack st fun e =>
      { e with
        eccCe := e.eccCe + n
        ceTotal := e.ceTotal + n
        corrected := e.corrected ++ pairs.filter fun p => !e.corrected.contains p }
    match dieToMark (s1.stack st) (vs.findSome? Ecc.Verdict.erased) with
    | some d => s1.markDie st d addr
    | none => s1

/-! ### Poison (R272, R276) -/

/-- The physical line of an address: the live mapping of the job whose set holds it (R296). -/
def physLine (s : State) (a : Nat) : Nat :=
  match s.jobs.find? fun j => j.ranges.any fun r => r.contains a with
  | some j => physOf j.map (a / granule * granule) + a % granule / 256 * 256
  | none => a / 256 * 256

/-- The address of the set that a mapping places on a physical line. -/
def lineIn (set : List Nat) (map : List (Nat × Nat)) (p : Nat) : Option Nat :=
  (set.find? fun g => physOf map g == p / granule * granule).map fun g => g + p % granule

/-- The address at which software sees a physical line; none where only generations hold it. -/
def liveLine (s : State) (p : Nat) : Option Nat :=
  match s.jobs.find? fun j => (j.ranges ++ j.pools).any fun r => r.contains p with
  | some j =>
    match lineIn (granulesOf j.ranges) j.map p with
    | some l => some l
    | none => if j.ranges.any fun r => r.contains p then none else some p
  | none => some p

/-- A generation whose granule a physical line lies in holds it poisoned. -/
def poisonGen (set : List Nat) (p : Nat) (g : Gen) : Gen :=
  if g.state = .released then g
  else
    match lineIn set g.map p with
    | some l => if g.poisoned.contains l then g else { g with poisoned := g.poisoned ++ [l] }
    | none => g

/-- Write a physical line back with a poison syndrome. -/
def poisonPhys (s : State) (p : Nat) : State :=
  let live := s.liveLine p
  { s with
    poisoned := match live with
      | some l => if s.poisoned.contains l then s.poisoned else s.poisoned ++ [l]
      | none => s.poisoned
    jobs := s.jobs.map fun j => { j with gens := j.gens.map (poisonGen (granulesOf j.ranges) p) } }

/-- Whether a physical line is poisoned. -/
def physPoisoned (s : State) (p : Nat) : Bool :=
  (match s.liveLine p with
    | some l => s.poisoned.contains l
    | none => false) ||
  s.jobs.any fun j => j.gens.any fun g => g.state != .released &&
    match lineIn (granulesOf j.ranges) g.map p with
    | some l => g.poisoned.contains l
    | none => false

/-- Generations whose only copy on the device a poisoned line lies in lose it (R276). -/
def loseLocal (s : State) (p : Nat) : State :=
  { s with jobs := s.jobs.map fun j =>
      let set := granulesOf j.ranges
      if (lineIn set j.map p).isSome then j
      else { j with gens := j.gens.map fun g =>
        if g.state != .released && (lineIn set g.map p).isSome then
          { g with lostLocal := true, state := if g.state = .shadowed then .lostLocal else g.state }
        else g } }

/-- An uncorrectable line: poisoned, and where a die is marked a second die has failed, which makes the device unfit
(R271, R272, R21). DEDUCED, log 48. -/
def uncorrectable (s : State) (st line p : Nat) (mech : Mech) (job : Option Nat) : State :=
  let second := (s.stack st).markedDie.isSome
  let s1 := (s.poisonPhys p).modStack st fun e => { e with secondDie := e.secondDie || second }
  s1.detect second { mech := mech.code, cls := 3, index := st, job := job, addr := line }

/-! ### Line reads and writes -/

/-- The job whose command or chain an access of an initiator serves. -/
def jobOfAccess (s : State) (src : Initiator) (a : Nat) : Option Nat :=
  match src with
  | .hostCore n => (s.core n.val).job
  | .heat h => (s.queues.find? fun q => teamHas q.team h.val).map CmdQueue.job
  | .stackLogic _ | .relay _ => (s.jobs.find? fun j => j.ranges.any fun r => r.contains a).map Job.id
  | _ => none

/-- What a reader observes of a poisoned line besides the detected fault (R272). -/
def readerSees (s : State) (src : Initiator) (a : Nat) : State :=
  match src with
  | .hostCore n => s.trap n.val false 19 (BitVec.ofNat 64 a)
  | .external w =>
    match s.qps.find? fun q => q.session == w && !q.error with
    | some q => { s with qps := s.qps.map fun x => if x.qpn = q.qpn then { x with error := true } else x }
    | none => s
  | _ => s

/-- The answer of an access. DESIGN CHOICE, log 13. -/
def answer (s : State) (st : Status) (bs : List Byte) : State := { s with replyStatus := st.code, reply := bs }

/-- The bytes of a line as its codewords hold them: their data symbols (R269). -/
def stored (s : State) (line : Nat) : List Byte :=
  (Ecc.dataOf (Ecc.codewords ((s.bytes line 256).map BitVec.toNat))).map (BitVec.ofNat 8)

/-- The read of a line that an access may make: corrected, poisoned or delivered (R270 to R273, R290). -/
def readLine (s : State) (src : Initiator) (a : Nat) (err : LineErr) : State :=
  let line := a / 256 * 256
  let st := stackOf a
  let p := s.physLine a
  if s.poisoned.contains line then
    ((s.detect false { mech := Mech.poisonRead.code, cls := 3, index := st, job := s.jobOfAccess src a, addr := line }).readerSees
      src a).answer .fault []
  else
    let mark := (s.stack st).markedDie
    let vs := [Ecc.judge mark err.first, Ecc.judge mark err.second]
    let s1 := s.noteCorrected st line p vs
    if vs.contains .uncorrectable then
      ((s1.uncorrectable st line p .eccUe (s1.jobOfAccess src a)).readerSees src a).answer .fault []
    else
      let s2 := match src with
        | .hostCore n => s1.cacheBlocks n.val [a / 64 * 64]
        | _ => s1.recallBlocks line 256
      s2.answer .ok (s2.stored line)

/-- Write the part of a write that lies in one line: a partial write of a poisoned line is a detected fault (R272). -/
def writeLinePart (src : Initiator) (addr : Nat) (data : List Byte) (s : State) (line : Nat) : State :=
  let lo := max addr line
  let hi := min (addr + data.length) (line + 256)
  if s.poisoned.contains line && decide (hi - lo < 256) then
    s.detect false
      { mech := Mech.poisonRead.code, cls := 3, index := stackOf line, job := s.jobOfAccess src line, addr := line }
  else s.store lo ((data.drop (lo - addr)).take (hi - lo))

/-- An access that its region refuses is answered with the status and has no effect (R35). -/
def guarded (s : State) (src : Initiator) (write : Bool) (a n : Nat) (go : State) : State :=
  match (if isEdern a then s.refusal src write a n else some .decerr) with
  | some st => s.answer st []
  | none => go

end State

/-- LINE_READ (R273). -/
def execLineRead (src : Initiator) (addr : Nat) (err : LineErr) (s : State) : Host.Outcome State Fault Refusal :=
  .next (s.guarded src false addr 1 (s.readLine src addr err))

/-- LINE_WRITE (R267, R296): line after line, each indivisible. -/
def execLineWrite (src : Initiator) (addr : Nat) (data : List Byte) (s : State) : Host.Outcome State Fault Refusal :=
  .next (s.guarded src true addr data.length
    (((State.linesOf addr data.length).foldl (State.writeLinePart src addr data) s).answer .ok []))

/-! ### Atomics (R268) -/

namespace State

/-- One indivisible read-modify-write of an aligned word at the stack; it answers the word that was held. -/
def amoAtStack (s : State) (a : Nat) (op : AmoOp) (n : Nat) (v : Nat) : State :=
  if s.poisonIn a n then
    (s.detect false
      { mech := Mech.poisonRead.code, cls := 3, index := stackOf a, job := s.jobOfAccess (.relay 0) a, addr := a / 256 * 256 }).answer
      .fault []
  else
    let old := s.read a n
    ((s.recallBlocks a n).storeNat a n (Amo.compute op (8 * n) old (v % 2 ^ (8 * n)))).answer .ok (toLe n old)

end State

/-- STACK_AMO (R268): a misaligned word, or one outside the stacks, reaches no stack as an atomic. -/
def execStackAmo (addr : Nat) (op : AmoOp) (double : Bool) (v : W64) (s : State) : Host.Outcome State Fault Refusal :=
  let n := if double then 8 else 4
  if addr % n = 0 && isEdern addr then .next (s.amoAtStack addr op n v.toNat) else .next (s.answer .decerr [])

/-! ### Patrol and refresh (R274 to R276) -/

namespace Patrol

/-- Lines of a stack, and its populated bytes. -/
def lines : Nat := 402653184

/-- Cycles of a minute of the timer. -/
def minute : Nat := 6000000000

/-- Whether the slot of the next line has begun; times are in 1/N cycles (R275, R8). -/
def due (x : Edern) (now : Nat) : Bool :=
  decide (x.passStart + x.patrolPos / 256 * (x.passPeriod * minute) ≤ now * lines)

/-- The next line, or the next pass: it starts one line slot before the period is over (R275). -/
def advance (x : Edern) (now : Nat) : Edern :=
  if x.patrolPos / 256 + 1 < lines then { x with patrolPos := x.patrolPos + 256 }
  else
    { x with
      patrolPos := 0
      passes := x.passes + 1
      lastPass := (now * lines - x.passStart) / (lines * 100000000)
      passStart := x.passStart + x.passPeriod * minute * lines - x.passPeriod * minute
      passPeriod := x.patrolPeriod
      corrected := [] }

end Patrol

namespace State

/-- What patrol does with a line. -/
def patrolLine (s : State) (st p : Nat) (err : LineErr) : State :=
  let mark := (s.stack st).markedDie
  let vs := [Ecc.judge mark err.first, Ecc.judge mark err.second]
  if s.physPoisoned p then
    ((s.countUe st p).detect false { mech := Mech.patrolUe.code, cls := 3, index := st, addr := p }).postDevice .stackUe (toLe 8 p)
  else
    let s1 := s.noteCorrected st p p vs
    if vs.contains .uncorrectable then
      (((s1.countUe st p).uncorrectable st p p .patrolUe none).loseLocal p).postDevice .stackUe (toLe 8 p)
    else s1

/-- One patrol read in its time slot; none before self-test completes (R275, R546). -/
def patrol (s : State) (st : Nat) (err : LineErr) : State :=
  let x := s.stack st
  if !s.power.tested || !Patrol.due x s.now then s
  else (s.patrolLine st (st * stackStride + x.patrolPos) err).modStack st fun e => Patrol.advance e s.now

end State

def execPatrolRead (st : Fin 8) (err : LineErr) (s : State) : Host.Outcome State Fault Refusal :=
  .next (s.patrol st.val err)

/-- REFRESH: the standard interval up to 85 °C, half of it above; no value changes (R274). DESIGN CHOICE, log 49. -/
def execRefresh (st : Fin 8) (s : State) : Host.Outcome State Fault Refusal :=
  .next (s.modStack st.val fun e => { e with refreshHalved := decide (85 < e.temp) })

end Sys2Proof.Machine
end

