-- ==== Sys2Proof/Machine/Updates.lean ====
section
/-! DEFINITION. The element index of a tensor (R283, R351), views of part of a tensor, and the stack logic engine: update
programs, their checks, the built-in programs and the update invocation (R278 to R288). -/

namespace Sys2Proof.Machine

/-! ### The element index (R351) -/

namespace Desc

/-- Units of a tensor: its tiles, or its blocks of 1,024 consecutive elements (R283). -/
def units (d : Desc) : Nat :=
  if d.tiled then ceilDiv (d.ext 0) 32 * ceilDiv (d.ext 1) 32 * d.ext 2 * d.ext 3 * d.ext 4 * d.ext 5
  else ceilDiv d.count 1024

/-- The coordinates at an element index; none beyond the extents (R177, R351). -/
def elemOf (d : Desc) (k : Nat) : Option (List Nat) :=
  if d.tiled then
    let t := k / 1024
    let e := k % 1024
    let n0 := ceilDiv (d.ext 0) 32
    let n1 := ceilDiv (d.ext 1) 32
    let i0 := t % n0 * 32 + e % 32
    let i1 := t / n0 % n1 * 32 + e / 32
    if i0 < d.ext 0 ∧ i1 < d.ext 1 ∧ t < d.units then
      some (i0 :: i1 :: unrank ((List.range' 2 4).map d.ext) (t / (n0 * n1)))
    else none
  else if k < d.count then some (unrank d.exts k)
  else none

/-- The elements at the indices [k0, k1). -/
def elemsIn (d : Desc) (k0 k1 : Nat) : List (List Nat) := (List.range' k0 (k1 - k0)).filterMap d.elemOf

end Desc

/-! ### Views: a tensor and some of its elements -/

/-- A tensor with the elements of it that an access concerns. -/
abbrev View := Desc × List (List Nat)

/-- The bits of the view's elements and of the headers of their blocks. -/
def View.spans (v : View) (warm : Bool) : List Span := v.1.spans warm v.2

def viewSpans (warm : Bool) (vs : List View) : List Span := vs.flatMap (View.spans · warm)

namespace State

/-- The poisoned line that views read, or write in part (R272). -/
def viewPoison (s : State) (warm : Bool) (ins outs : List View) : Option Nat :=
  s.poisonMet (viewSpans warm ins) (viewSpans warm outs)

def viewUnpoison (s : State) (warm : Bool) (outs : List View) : State := s.unpoison (viewSpans warm outs)

def viewRecall (s : State) (warm : Bool) (vs : List View) : State := s.recallSpans (viewSpans warm vs)

/-! ### Chains and buckets -/

def chain? (s : State) (id : Nat) : Option Chain := s.chains.find? fun c => c.id == id

def modChain (s : State) (id : Nat) (f : Chain → Chain) : State :=
  { s with chains := s.chains.map fun c => if c.id == id then f c else c }

def modBucket (s : State) (id b : Nat) (f : Bucket → Bucket) : State :=
  s.modChain id fun c => { c with buckets := c.buckets.modify b f }

end State

/-! ### Update programs (R279 to R282) -/

namespace Update

/-- An instruction of format V. -/
def iV (op d a b c : Nat) : Nat := op <<< 26 ||| d <<< 21 ||| a <<< 16 ||| b <<< 11 ||| c <<< 6

/-- LD and ST of a stream. -/
def iLd (d s : Nat) : Nat := 0x20 <<< 26 ||| d <<< 21 ||| s <<< 18
def iSt (a s : Nat) : Nat := 0x21 <<< 26 ||| a <<< 21 ||| s <<< 18

def add (d a b : Nat) : Nat := iV 0x01 d a b 0
def sub (d a b : Nat) : Nat := iV 0x02 d a b 0
def mul (d a b : Nat) : Nat := iV 0x03 d a b 0
def fma (d a b c : Nat) : Nat := iV 0x04 d a b c
def fnma (d a b c : Nat) : Nat := iV 0x05 d a b c
def bcast (d p : Nat) : Nat := iV 0x13 d p 0 0

/-- The built-in programs of R288 on registers v1 = g, v2 = w, v3 = a, v4 = b, then the parameters from v8, in the order
that R288 gives each line; v0 stays 0. -/
def code (id : Nat) : List Nat :=
  match id with
  | 1 => [iLd 1 0, iLd 2 1, iLd 3 2, bcast 8 0, bcast 9 1, bcast 10 2, bcast 11 3,
      mul 1 1 11, fma 1 10 2 1, fma 3 9 3 1, fnma 2 8 3 2, iSt 2 1, iSt 3 2]
  | 2 => [iLd 1 0, iLd 2 1, iLd 3 2, bcast 8 0, bcast 9 1, bcast 10 2, bcast 11 3,
      mul 1 1 11, fma 1 10 2 1, fma 3 9 3 1, fma 5 9 3 1, fnma 2 8 5 2, iSt 2 1, iSt 3 2]
  | 3 => [iLd 1 0, iLd 2 1, iLd 3 2, iLd 4 3, bcast 8 0, bcast 9 1, bcast 10 2, bcast 11 3, bcast 12 4, bcast 13 5,
      bcast 14 6, bcast 15 7, mul 1 1 15, sub 5 3 1, fma 3 9 5 1, mul 6 1 1, sub 5 4 6, fma 4 10 5 6, mul 7 3 13,
      iV 0x07 5 4 0 0, fma 5 5 14 11, iV 0x06 5 7 5 0, fma 5 12 2 5, fnma 2 8 5 2, iSt 2 1, iSt 3 2, iSt 4 3]
  | 4 => [iLd 1 0, iLd 2 1, iLd 3 2, bcast 8 0, bcast 9 1, bcast 10 2, bcast 11 3, bcast 12 4, bcast 13 8, bcast 14 9,
      mul 1 1 12, sub 5 3 1, fma 6 9 5 1, iV 0x10 1 0 6 2, iV 0x10 2 6 0 2, iV 0x11 7 13 6 1, iV 0x11 7 14 7 2,
      fma 7 11 2 7, fnma 2 8 7 2, fma 3 10 5 1, iSt 2 1, iSt 3 2]
  | _ => [iLd 2 1, iSt 2 1]

/-- Streams that a built-in program reads, and writes, besides the working copy. -/
def readMask (id : Nat) : Nat := if id = 3 then 0xF else if id = 5 then 0x2 else 0x7
def writeMask (id : Nat) : Nat := if id = 3 then 0xE else if id = 5 then 0x2 else 0x6

/-- A built-in program in a width, with the working copy's store where stream 4 is in use. DEDUCED, log 50. -/
def builtin (id width : Nat) (copy : Bool) : Prog :=
  let instrs := code id ++ (if copy then [iSt 2 4] else [])
  let consts : List W64 := if id = 4 then
      (if width = 0 then [0x3FF0000000000000, 0xBFF0000000000000] else [0x3F800000, 0xBF800000])
    else []
  let wm := writeMask id ||| (if copy then 0x10 else 0)
  { head := 2 <<< 24 ||| width <<< 22 ||| instrs.length <<< 11 ||| consts.length <<< 7 ||| readMask id <<< 32 ||| wm <<< 38
    consts := consts, instrs := instrs }

/-- The tensor of a stream. -/
def tensor? (s : State) (j : Job) (h : Nat) : Option Desc :=
  if h != noHandle && State.handleOk j h && (s.descAt j h).ok then some (s.descAt j h) else none

def tensors (s : State) (j : Job) (hs : List Nat) : List (Option Desc) := hs.map (tensor? s j)

/-- The failures of a footprint that must lie in the executing stack. -/
def access (s : State) (st : Fin 8) (is : List Interval) (h : Option Nat) : List Fail :=
  is.filterMap fun i =>
    if i.lo < 0 then some (.decerr, h) else (s.refusal (.stackLogic st) true i.lo.toNat i.len).map fun e => (e, h)

/-- The bytes of some elements of a tensor, and of the headers of their blocks: what an invocation over part of a shard
touches (R279, R353). -/
def spans (d : Desc) (warm : Bool) (idxs : List (List Nat)) : List Interval :=
  let f := d.fmtIn warm
  idxs.flatMap fun ix =>
    let (a, n) := d.span f ix
    { lo := (a : Int), len := n } :: (if d.blockEn then [{ lo := (d.headerAddr ix : Int), len := 2 }] else [])

def whole (a n : Nat) : List Interval := [{ lo := (a : Int), len := n }]

/-- The program that a reference names, or the failures of finding it. DEDUCED, log 50. -/
def find (s : State) (j : Job) (st : Fin 8) (ref : ProgRef) (hs : List Nat) : Prog × List Fail :=
  match ref with
  | .builtin id =>
    if id = 0 ∨ 5 < id then (builtin 5 1 false, [(.badOperand, none)])
    else
      match tensor? s j (hs.getD 1 noHandle) with
      | some w =>
        let f := w.fmtIn (decide (0 < j.lap))
        (builtin id (if f = .fp64 then 0 else 1) (hs.getD 4 noHandle != noHandle),
          need (f == .fp64 || f == .fp32) .badDesc (some 1))
      | none => (builtin id 1 (hs.getD 4 noHandle != noHandle), [(.badHandle, some 1)])
  | .address a =>
    match access s st (whole a 16) none with
    | [] => (Prog.load s a, access s st (whole a (Prog.size (s.read a 16))) none)
    | fs => (builtin 5 1 false, fs)

/-- The checks of one stream. -/
def streamFails (s : State) (j : Job) (st : Fin 8) (builtIn : Bool) (p : Prog) (hs : List Nat) (u0 u1 i : Nat) : List Fail :=
  let h := hs.getD i noHandle
  let warm := decide (0 < j.lap)
  if !p.uses i then need (h == noHandle || (builtIn && i == 0)) .badOperand (some i)
  else if h = noHandle then [(if builtIn then .badHandle else .badProgram, some i)]
  else if !State.handleOk j h then [(.badHandle, some i)]
  else
    let d := s.descAt j h
    if !d.ok then [(.badDesc, some i)]
    else
      need ((!p.reads i || Ew.pairOk warm p.fmt false d) && (!p.writes i || Ew.pairOk warm p.fmt true d)) .badDesc (some i) ++
        need (!overlap (d.footprint warm) (State.stashRegion j)) .badDesc (some i) ++
        access s st (spans d warm (d.elemsIn (1024 * u0) (1024 * u1))) (some i)

/-- Streams in use as tensors. -/
def used (p : Prog) (ts : List (Option Desc)) : List Desc := ((List.range 6).filter p.uses).filterMap fun i => ts.getD i none

/-- Every stream in use has the same extents and layout (R281). DEDUCED, log 50. -/
def alikeAll (ds : List Desc) : Bool :=
  match ds with
  | [] => true
  | d :: rest => rest.all fun e => e.exts == d.exts && e.tiled == d.tiled

/-- The units of the streams. -/
def unitsOf (ds : List Desc) : Nat :=
  match ds with
  | [] => 0
  | d :: _ => d.units

/-- The checks of an update program with its streams, made at arming and at the start (R279 to R281, R353). -/
def progFails (s : State) (j : Job) (st : Fin 8) (ref : ProgRef) (hs : List Nat) (params u0 u1 : Nat) : List Fail :=
  let (p, fs) := find s j st ref hs
  let ts := tensors s j hs
  let builtIn := match ref with
    | .builtin _ => true
    | _ => false
  if fs.isEmpty then
    (List.range 6).flatMap (streamFails s j st builtIn p hs u0 u1) ++ access s st (whole params 64) none ++
      need (p.ok true (fun i => (ts.getD i none).isSome) && alikeAll (used p ts) &&
        p.blockStoresOk (fun i => match ts.getD i none with
          | some d => d.blockEn
          | none => false)) .badProgram
  else fs

/-- The elements of the units [u0, u1) of a tensor, with their unit and position. -/
def places (d : Desc) (u0 u1 : Nat) : List Place :=
  (List.range' (1024 * u0) (1024 * (u1 - u0))).filterMap fun k => (d.elemOf k).map fun ix => (ix, k / 1024, k % 1024)

/-- What an invocation comes to. -/
inductive End where
  | ok (s : State)
  | fail (st : Status)
  /-- It met a poisoned line. -/
  | poisoned (line : Nat)

/-- Run a checked program over units. -/
def apply (s : State) (j : Job) (st : Fin 8) (ref : ProgRef) (hs : List Nat) (params u0 u1 : Nat) : End :=
  let p := (find s j st ref hs).1
  let ts := tensors s j hs
  let ds := used p ts
  match ds with
  | [] => .ok s
  | d :: _ =>
    if unitsOf ds < u1 then .fail .badOperand
    else
      let ps := places d u0 u1
      let own : List Span := (8 * params, 512) :: match ref with
        | .address a => [(8 * a, 8 * Prog.size p.head)]
        | .builtin _ => []
      let words := (List.range 8).map fun k => s.read64 (params + 8 * k)
      let w := runProgram (Env.of j) p ts (words ++ p.consts) [0, 0, 0] ps (Work.start (s.recallSpans own) j)
      match s.poisonMet (own ++ w.read) w.wrote with
      | some l => .poisoned l
      | none =>
        let s1 := ((w.close j.id).unpoison w.wrote).recallSpans w.read
        .ok (s1.modStack st.val fun e => { e with invocations := e.invocations + 1 })

end Update

namespace State

/-- The code under which a bucket notes the unit ranges that its UPDATE has finished. -/
def unitsDone : Nat := 16

/-- An invocation's report to its chain (R279, R285). DEDUCED, log 50. -/
def reportUpdate (s : State) (inv : Invocation) (st : Status) : State :=
  let s1 : State := { s with replyStatus := st.code }
  match inv.chain with
  | none => s1
  | some (c, b) => s1.modBucket c b fun x =>
      { x with
        got := x.got ++ [(unitsDone, inv.u0, inv.u1)]
        status := if st = .ok ∨ x.status ≠ .ok then x.status else st }

/-- An update invocation (R279, R284 to R286): none for a job that does not run or whose training step is skipped.
DEDUCED, log 50. -/
def invoke (s : State) (inv : Invocation) : State :=
  match s.job? inv.job with
  | none => s
  | some j =>
    if s.unfit || j.phase != .running || j.skipping then s
    else
      let hs := inv.streams.map BitVec.toNat
      match worst (Update.progFails s j inv.stack inv.prog hs inv.params inv.u0 inv.u1) with
      | some (st, _) => s.reportUpdate inv st
      | none =>
        match Update.apply s j inv.stack inv.prog hs inv.params inv.u0 inv.u1 with
        | .ok s1 => s1.reportUpdate inv .ok
        | .fail st => s.reportUpdate inv st
        | .poisoned l =>
          (s.detect false
            { mech := Mech.poisonRead.code, cls := 3, index := inv.stack.val, job := some j.id, addr := l }).reportUpdate inv .fault

end State

end Sys2Proof.Machine
end

