-- ==== Sys2Proof/Machine/Commit.lean ====
section
/-! DEFINITION. The end of a training step: the conditions of COMMIT (R253), its actions (R254, R255), checkpoint
generations and their freeze (R257, R294 to R301, R408, R409), and the mirror digest (R402, R403). -/

namespace Sys2Proof.Machine

/-! ### Committed state and the generation record (R256, R299, R300) -/

namespace State

/-- The groups that a job has joined, by ascending ID. -/
def jobGroups (s : State) (job : Nat) : List Group := s.groups.filter fun g => g.job == job

def jobQueues (s : State) (job : Nat) : List CmdQueue := s.queues.filter fun q => q.job == job

/-- The committed state of a queue at its COMMIT; an unbound queue stands at its own position (R256). -/
def committedOf (s : State) (q : CmdQueue) : Committed :=
  { position := if q.state = .unbound then q.pos else q.pos + 1
    sregs := q.sregs
    laps := q.laps
    generate := q.generate
    hurdles := (s.jobGroups q.job).map fun g => (g.id, g.arrivals, g.round) }

end State

/-- The 1,024 bytes of a queue entry (R300); Laps stand outermost first. -/
def queueEntry (id : Nat) (c : Committed) : List Byte :=
  let lapBytes (l : Lap) : List Byte := toLe 8 l.pos.toNat ++ toLe 8 l.d ++ toLe 8 l.count.toNat ++ toLe 8 l.iter.toNat
  let body := toLe 2 id ++ toLe 1 (if c.generate then 1 else 0) ++ toLe 1 c.laps.length ++ toLe 4 c.hurdles.length ++
    toLe 8 c.position.toNat ++ ((List.range 64).flatMap fun i => toLe 8 (c.sregs.getD i 0).toNat)
  let laps := ((c.laps.reverse.flatMap lapBytes) ++ List.replicate 256 0).take 256
  let hurdles := ((c.hurdles.flatMap fun (h : Nat × Nat × Nat) => toLe 2 h.1 ++ toLe 6 h.2.1 ++ toLe 8 h.2.2) ++ List.replicate 128 0).take 128
  body ++ laps ++ hurdles ++ List.replicate 112 0

/-- The generation record (R299); the CRC of the granule maps, whose bytes the spec does not lay out, is `crc`.
DESIGN CHOICE, log 25; DEDUCED, log 37. -/
def genRecord (numerics job step lap timer : Nat) (seqs : List Nat) (crc : Nat) (qs : List (Nat × Committed)) : List Byte :=
  toLe 8 step ++ toLe 4 job ++ toLe 4 numerics ++ toLe 2 lap ++ toLe 2 (if 1 ≤ lap then 1 else 0) ++
    toLe 4 qs.length ++ toLe 8 timer ++ ((seqs.flatMap fun n => toLe 4 n) ++ List.replicate 32 0).take 32 ++ toLe 4 crc ++
    List.replicate 188 0 ++ qs.flatMap fun q => queueEntry q.1 q.2

/-! ### Generations (R296 to R301, R408) -/

/-- Release the generations older than the restore point (R301, R408). -/
def releaseOlder (step : Nat) (gs : List Gen) : List Gen :=
  gs.map fun g => if g.step < step then { g with state := .released, map := [], cells := [] } else g

/-- A generation becomes SHADOWED: it is the job's restore point and older ones are released (R301, R408). -/
def shadowGen (step : Nat) (j : Job) : Job :=
  let gs := j.gens.map fun g =>
    if g.step = step ∧ g.state = .frozen then { g with state := if g.lostLocal then .lostLocal else .shadowed } else g
  { j with gens := releaseOlder step gs, restorePoint := max j.restorePoint step }

/-- Bytes of the set on a stack. -/
def setBytes (j : Job) (st : Nat) : Nat := ((j.ranges.filter fun r => State.stackOf r.base == st).map Range.len).sum

/-- The stacks whose pool is short for a freeze, as a mask (R298). -/
def shortMask (j : Job) : Nat :=
  ((List.range 8).map fun st => if State.freePool j st < setBytes j st then 2 ^ st else 0).sum

/-- Whether a freeze can take place (R298). DEDUCED, log 24. -/
def canFreeze (j : Job) : Bool := shortMask j == 0 && decide ((State.liveGens j).length ≤ 3)

namespace State

/-- Dirty host-core lines of the set are recalled (R297). -/
def recallRanges (s : State) (rs : List Range) : State :=
  { s with caches := s.caches.map fun b => if rs.any fun r => r.contains b.addr then { b with stale := none } else b }

/-- The pool of the lowest-numbered stack that holds the set (R299). -/
def recordPool (j : Job) : Option Range :=
  ((List.range 8).find? fun st => j.ranges.any fun r => stackOf r.base == st).bind fun st =>
    j.pools.find? fun r => stackOf r.base == st

/-- The record of a generation stands in that pool, from its first byte (R299). DESIGN CHOICE, log 25. -/
def storeRecord (s : State) (j : Job) (record : List Byte) : State :=
  match recordPool j with
  | some r => s.ownStore r.base (record.take r.len)
  | none => s

/-- Freeze a generation of the committed state (R297 to R301): without a twin, or in mirror mode, it is SHADOWED at
once (R301, R403). DESIGN CHOICE, log 25. -/
def freezeNow (s : State) (j : Job) (qs : List (Nat × Committed)) : State :=
  let s1 := s.recallRanges j.ranges
  let (v, s2) := s1.fresh
  let gs := s2.jobGroups j.id
  let g : Gen :=
    { step := j.step
      record := genRecord s2.numericsRev j.id j.step j.lap s2.now (gs.map Group.seq) (v.toNat % 2 ^ 32) qs
      map := j.map
      cells := j.ranges.flatMap fun r => s2.mem.slice r.base r.len
      committed := qs
      seqs := gs.map fun x => (x.id, x.seq)
      lap := j.lap
      warm := decide (1 ≤ j.lap)
      state := .frozen
      streamed := []
      lostLocal := false
      poisoned := s2.poisoned.filter fun l => j.ranges.any fun r => r.contains l }
  let s3 := (s2.storeRecord j g.record).modJob j.id fun x =>
    { x with
      gens := x.gens ++ [g], owed := false, lastFreeze := s2.now, freezeAt := none }
  if s3.pair.mode = .shadow then s3 else s3.modJob j.id (shadowGen j.step)

/-- A freeze that is due takes place or is deferred, with one CKPT_DEFERRED event for the deferral (R298). DEDUCED, log 24. -/
def freezeDue (s : State) (j : Job) (qs : List (Nat × Committed)) : State :=
  if canFreeze j then s.freezeNow j qs
  else if j.owed then s
  else (s.modJob j.id fun x => { x with owed := true }).postJob .ckptDeferred j j.step (toLe 1 (shortMask j))

/-! ### The coordinator and the time term (R405, R409) -/

/-- The lowest-numbered ring or torus group of a job. -/
def leadGroup (s : State) (job : Nat) : Option Group :=
  (s.jobGroups job).find? fun g => g.geometry != .neighbours

/-- Whether this device coordinates a job (R405). DEDUCED, log 121. -/
def coordinates (s : State) (j : Job) : Bool :=
  match s.leadGroup j.id with
  | some g => g.rank == 0
  | none =>
    (s.jobGroups j.id).isEmpty ||
      j.restart.coordinator

/-- The time term has elapsed (R257). -/
def termElapsed (s : State) (j : Job) : Bool :=
  decide (0 < j.ckptSeconds) && decide (j.ckptSeconds * 100000000 ≤ s.now - j.lastFreeze)

/-- Whether a generation is due at the COMMIT that has brought the job to its count (R257, R298, R409); on one device the
time term decides at once. DEDUCED, log 24. -/
def genDue (s : State) (j : Job) : Bool :=
  j.ckptRequested || j.owed || (decide (0 < j.ckptSteps) && j.step % j.ckptSteps == 0) || j.freezeAt == some j.step ||
    ((s.jobGroups j.id).isEmpty && s.termElapsed j)

/-- The coordinator of a job on several devices floods a freeze notice for count t + 65 (R409). -/
def freezeNotice (s : State) (j : Job) : State :=
  if !(s.jobGroups j.id).isEmpty && s.coordinates j && s.termElapsed j && j.freezeAt.isNone then
    let k := j.step - 1 + 65
    (s.modJob j.id fun x => { x with freezeAt := some k }).notify (s.jobPorts j.id) j.id .freeze s.serial k k []
  else s

/-! ### The mirror digest (R402, R403) -/

/-- The digest of the step that closes: the writes, and the committed state of every queue. DEDUCED, log 26. -/
def stepDigest (s : State) (j : Job) : W64 :=
  (s.jobQueues j.id).foldl
    (fun d q => d + mix ((crc32c (queueEntry q.id (s.committedOf q))).setWidth 64)) j.digest

/-- Digests that differ: a detected fault, and a held job where they differ again at the same step (R403). DEDUCED, log 26. -/
def mirrorDiffers (s : State) (j : Job) : State :=
  let s1 := (s.modJob j.id fun x => { x with lastMismatch := some j.step }).detect false { mech := Mech.digest.code, job := some j.id }
  if j.lastMismatch = some j.step then (s1.postJob .mirrorDiverged j j.step []).holdJob j.id 2 else s1

/-- The own digest of the step, sent once as a DIGEST packet. -/
def sendDigest (s : State) (j : Job) : State :=
  if j.ownDigests.any fun d => d.1 == j.step then s
  else
    let d := s.stepDigest j
    let k := s.mkPacket 6 .digest j.id 0 (j.step % 2 ^ 32) 0 0 0 0 (toLe 8 d.toNat)
    ((s.modJob j.id fun x => { x with ownDigests := x.ownDigests ++ [(j.step, d)] }).sampleJudge 6 k .digest (toLe 8 d.toNat)).send 6 k

/-- What mirror mode says of the step that closes: it goes on, it waits for the twin, or the digests differ. -/
inductive Mirror where
  | go | wait | differ
  deriving DecidableEq, Repr

def mirrorState (s : State) (j : Job) : Mirror :=
  if s.pair.mode ≠ .mirror then .go
  else
    match j.ownDigests.find? (fun d => d.1 == j.step), j.twinDigests.find? (fun d => d.1 == j.step) with
    | some a, some b => if a.2 = b.2 then .go else .differ
    | _, _ => .wait

/-! ### COMMIT (R253 to R255) -/

/-- No Judge comparison of the job is in progress. -/
def judgesIdle (s : State) (job : Nat) : Bool := s.judges.all fun x => x.pending.all fun c => c.packet.job.toNat != job

/-- The conditions of R253; nothing commits after PWR_GOOD deasserts (R537). -/
def commitReady (s : State) (j : Job) : Bool :=
  let qs := (s.jobQueues j.id).filter fun q => q.state != .unbound
  s.power.good && s.runsJob j && !j.faultStep && !qs.isEmpty && qs.all (fun q => q.state == .waiting && q.wait == .commit) &&
    (s.chains.all fun c => c.job != j.id) && s.judgesIdle j.id

/-- The job after actions 1, 2 and 5 (R80, R254, R481): a policy set since the last COMMIT takes effect. -/
def closeStep (j : Job) : Job :=
  let lap := if j.skipping then max (j.lap - 1) j.lapRecovery else j.lap - 1
  let j1 := { j with
    lap := lap, step := j.step + 1, lastSkip := j.skipping, skipping := false, updateArmed := false, watch := {}
    digest := 0
    ownDigests := j.ownDigests.filter fun d => decide (j.step < d.1)
    twinDigests := j.twinDigests.filter fun d => decide (j.step < d.1) }
  match j.newPolicy with
  | some (rs, ps, n, t) =>
    { j1 with
      ranges := rs, pools := ps, ckptSteps := n, ckptSeconds := t, newPolicy := none
      wholeNext := j1.wholeNext || rs != j.ranges
      map := j1.map.filter fun e => (granulesOf rs).contains e.1 }
  | none => j1

/-- Complete the COMMIT of one queue (action 7). -/
def closeQueue (s : State) (qid : Nat) : State :=
  match s.queue? qid with
  | some q =>
    if q.state = .waiting ∧ q.wait = .commit then
      s.complete q { status := .ok, next := q.pos + 1, countA := 0, countB := 0 }
    else s
  | none => s

/-- The actions of R254. -/
def commitActions (s : State) (j : Job) : State :=
  let qs := s.jobQueues j.id
  -- action 1
  let committed := qs.map fun q => (q.id, s.committedOf q)
  let s1 := { s with queues := s.queues.map fun (q : CmdQueue) => if q.job = j.id then { q with committed := s.committedOf q } else q }
  -- actions 2 and 3
  let s2 := s1.writeWatch j j.skipping
  -- action 4
  let s3 := qs.foldl (emptyStash true) s2
  -- action 5
  let j1 := closeStep j
  let s4 := s3.setJob j1
  let s5 := if j.skipping then s4.postJob .stepSkipped j j.step [] else s4
  -- action 6
  let s6 := if s5.genDue j1 then s5.freezeDue j1 committed else s5.freezeNotice j1
  let s7 := s6.modJob j.id fun x => { x with ckptRequested := false }
  -- action 7
  (qs.map CmdQueue.id).foldl closeQueue s7

/-- COMMIT_CLOSE: nothing before the conditions hold; a poisoned line of a stash table that action 4 would write ends it with a
detected fault (R272); in mirror mode the step waits for the twin's digest. -/
def commitClose (s : State) (job : Nat) : State :=
  match s.job? job with
  | none => s
  | some j =>
    if !s.commitReady j then s
    else
      match (s.jobQueues job).findSome? s.stashLine with
      | some l => s.detect false { mech := Mech.poisonRead.code, cls := 3, index := stackOf l, job := some job, addr := l }
      | none =>
      let s1 := if s.pair.mode = .mirror then s.sendDigest j else s
      match s1.job? job with
      | none => s1
      | some j1 =>
        match s1.mirrorState j1 with
        | .go => if s1.judgesIdle job then s1.commitActions j1 else s1
        | .wait => s1
        | .differ => s1.mirrorDiffers j1

end State

def execCommitClose (job : Nat) (s : State) : Host.Outcome State Fault Refusal := .next (s.commitClose job)

end Sys2Proof.Machine
end

