-- ==== Sys2Proof/WellFormed.lean ====
section
/-! DEFINITION. The shape of operands: what the sender of a command can form. A command outside it is one that no sender
of the spec forms, and its meaning stops with `Fault.illFormed`. -/

namespace Sys2Proof

/-- A packet's payload has the length that its header gives, in units of 32 bytes, at most 4,096 bytes (R325). -/
def Packet.wf (k : Packet) : Bool := k.payload.length == 32 * k.len.toNat && decide (k.len.toNat ≤ 128)

/-- A flit's payload fills it: 500 bytes on a partner port, 3,072 on the pair port (R312, R313). It has a place in a frame, and
its errors are symbols of the codewords that it touches there. -/
def Flit.wf (p : Fin 7) (f : Flit) : Bool :=
  f.payload.length == (if p = 6 then 3072 else 500) && decide (f.slot < Machine.Fec.frameFlits p.val) &&
    f.errors.length == Machine.Fec.touched p.val f.slot &&
    f.errors.all fun e => e.all fun m => decide (m < (Machine.Rs.ofPort p.val).len)

/-- What a Starter sends is a message of R469: its header and up to 4,080 bytes. -/
def StarterMove.wf : StarterMove → Bool
  | .arrives k => k.wf
  | .sends msg => decide (16 ≤ msg.length) && decide (msg.length ≤ 4096)

/-- A reading of every sensor: a value for each stack and each optical engine (R533). -/
def SensorReading.wf (r : SensorReading) : Bool := r.dram.length == 8 && r.optics.length == 6

end Sys2Proof
end

