-- ==== Sys2Proof/Machine/Links.lean ====
section
/-! DEFINITION. The Relay link layer: flits, acknowledgement and replay (R313 to R318), retrains and link DOWN (R319,
R320, R337), port bring-up (R332, R333), and pair events (R340, R341, R404). -/

namespace Sys2Proof.Machine

/-! ### The control word (R314) and the packet stream (R325) -/

namespace Ctl

def ftype (w : W64) : Nat := bitsAt w.toNat 61 3
def seq (w : W64) : Nat := bitsAt w.toNat 49 12
def ack (w : W64) : Nat := bitsAt w.toNat 37 12
def cvc (w : W64) : Nat := bitsAt w.toNat 35 2
def ccount (w : W64) : Nat := bitsAt w.toNat 23 12
def pstart (w : W64) : Nat := bitsAt w.toNat 11 12

end Ctl

/-- Where a receiver stands in the packet stream: bytes due of a payload, the part of a header that came, whether padding
holds; and of the flit in hand the first header's offset and the packet bytes taken. -/
structure Rx where
  due : Nat
  head : List Byte
  pad : Bool
  first : Option Nat := none
  bytes : Nat := 0
  deriving DecidableEq, Repr

/-- Parse the rest of a flit's payload from an offset (R325). -/
def Rx.parse : Nat → Nat → List Byte → Rx → Rx
  | 0, _, _, r => r
  | n + 1, off, rest, r =>
    if rest.isEmpty || r.pad then r
    else if 0 < r.due then
      let k := min r.due rest.length
      Rx.parse n (off + k) (rest.drop k) { r with due := r.due - k, bytes := r.bytes + k }
    else if r.head.isEmpty && rest.take 2 == [0, 0] then { r with pad := true }
    else
      let k := min (32 - r.head.length) rest.length
      let h := r.head ++ rest.take k
      let first := if r.head.isEmpty then some (r.first.getD off) else r.first
      let r1 : Rx := { r with head := h, first := first, bytes := r.bytes + k }
      let r2 := if h.length = 32 then { r1 with head := [], due := 32 * (h.getD 12 0).toNat } else r1
      Rx.parse n (off + k) (rest.drop k) r2

/-- Parse a flit's payload: after padding, the next header begins at pstart. -/
def Rx.flit (x : Port) (w : W64) (payload : List Byte) : Rx :=
  let p := Ctl.pstart w
  if x.rxPad then
    if p < payload.length then
      Rx.parse 256 p (payload.drop p) { due := x.rxDue, head := x.rxHead, pad := false }
    else { due := x.rxDue, head := x.rxHead, pad := true }
  else Rx.parse 256 0 payload { due := x.rxDue, head := x.rxHead, pad := false }

/-- A port whose link ends: replay buffer, credits, the packets that wait and the packet received in part go (R320). -/
def Port.dropLink (x : Port) : Port :=
  { x with
    oldest := x.txNext, sentAt := [], kept := [], credits := [0, 0, 0, 0], owed := [0, 0, 0, 0], sendQ := []
    starved := [none, none, none, none]
    rxDue := 0, rxHead := [], rxPad := true, starterReq := none }

namespace State

/-! ### The pair (R340, R341, R404) -/

/-- Bring a port into training (events 1 to 3 of R332). -/
def trainPort (s : State) (p : Nat) : State :=
  s.modPort p fun x =>
    { x with
      enable := true, state := .training, enabledAt := s.now, trainedAt := s.now, locked := false, fec := false, helloed := false }

/-- Turn a port off (R343). -/
def portOff (s : State) (p : Nat) : State :=
  s.modPort p fun x =>
    { x.dropLink with
      enable := false, state := .off, locked := false, fec := false, helloed := false }

/-- Whether the port trains or is up. -/
def portActive (s : State) (p : Nat) : Bool :=
  match (s.port p).state with
  | .training | .up | .retrain => true
  | _ => false

/-- The pair port follows PAIR_PRESENT: it trains where the twin is present, and stops where it is not (R341). -/
def followPresent (s : State) : State :=
  if s.inputs.pairPresent then (if s.portActive 6 then s else s.trainPort 6)
  else if (s.port 6).state = .training then s.portOff 6
  else s

/-- The twin is lost: every job goes on, in UNPAIRED mode (R404). -/
def pairLost (s : State) : State :=
  if s.pair.joined || s.pair.mode != .unpaired then
    ({ s with
      pair := { s.pair with
        mode := .unpaired, own := .unpaired, twin := none, joined := false, heardAt := none, lossPending := false } }).postDevice
      .pairLost []
  else { s with pair := { s.pair with lossPending := false } }

/-- An episode closes: the device acts once on the state found (R341). -/
def closeEpisode (s : State) : State :=
  let s1 := ({ s with pair := { s.pair with episode := none } }).followPresent
  if s1.pair.lossPending then s1.pairLost else s1

/-- A pair event with its cause code of R487 (R340, R341): within 1 ms of the last one of an open episode it joins it. -/
def pairEvent (s : State) (cause : Nat) (loss : Bool) : State :=
  let joins := match s.pair.episode with
    | some t => decide (s.now - t ≤ 100000)
    | none => false
  if joins then { s with pair := { s.pair with episode := some s.now, lossPending := s.pair.lossPending || loss } }
  else
    let s0 := if s.pair.episode.isSome then s.closeEpisode else s
    let s1 := s0.postDevice .pairEvent (toLe 1 cause ++ toLe 1 s0.pair.mode.code)
    let s2 : State := { s1 with pair := { s1.pair with episode := some s1.now, lossPending := false } }
    if loss then s2.pairLost else s2.followPresent

/-! ### Retrains and link DOWN (R319, R320) -/

/-- Jobs with a group that uses a port. DEDUCED, log 29. -/
def jobsOnPort (s : State) (p : Nat) : List Nat :=
  (s.jobs.map Job.id).filter fun j => (s.usedPorts j).contains p

/-- A link goes DOWN: replay buffers and credits go; a detected fault for every job whose groups use the port; on the
pair port a pair event (R320, R340). DEDUCED, log 29, DEDUCED, log 103. -/
def linkDown (s : State) (p cause : Nat) : State :=
  let s1 := s.modPort p fun x =>
    { x.dropLink with state := .down, cause := cause }
  let info (j : Option Nat) : FaultInfo :=
    { mech := Mech.linkDown.code, cls := 4, index := p, job := j
      serial := if (s.port p).partnerId = 0 then none else some (s.port p).partnerId }
  let js := s.jobsOnPort p
  let s2 := if js.isEmpty then s1.detect false (info none) else js.foldl (fun s j => s.detect false (info (some j))) s1
  if p = 6 then s2.pairEvent 1 true else s2

/-- A retrain, or link DOWN where it is the third within 1 s (R319). -/
def retrain (s : State) (p : Nat) : State :=
  let x := s.port p
  let times := (x.retrains.filter fun t => decide (s.now - t ≤ 100000000)) ++ [s.now]
  let s1 := s.setPort p { x with retrainCnt := x.retrainCnt + 1, retrains := times }
  if 2 < times.length then s1.linkDown p 1
  else
    (s1.modPort p fun y => { y with state := .retrain, retrainAt := s.now, replays := 0 }).recordFault
      { mech := Mech.retrain.code, outcome := .masked, cls := 4, index := p }

/-! ### Acknowledgement and replay (R316 to R318) -/

/-- Apply an ack: it passes every sequence number before it. -/
def applyAck (s : State) (p a : Nat) : State :=
  let x := s.port p
  let adv := (a + 4096 - x.oldest) % 4096
  if 0 < adv ∧ adv ≤ (x.txNext + 4096 - x.oldest) % 4096 then
    let s1 := s.setPort p { x with oldest := a, replays := 0, sentAt := x.sentAt.drop adv, kept := x.kept.drop adv }
    pump p (s1.port p).sendQ.length s1
  else s

/-- Resend every unacknowledged flit from the oldest, with its bytes unchanged (R317). -/
def resendAll (s : State) (p : Nat) : State :=
  let x := s.port p
  x.kept.foldl (fun s f => s.sendFlit p f true) (s.setPort p { x with sentAt := x.kept.map fun _ => s.now })

/-- A replay: a ninth of one sequence number without acceptance retrains instead (R317, R319). -/
def replay (s : State) (p : Nat) : State :=
  let x := s.port p
  if x.oldest = x.txNext then s
  else
    let s1 := s.setPort p { x with retryCnt := x.retryCnt + 1, replaysEver := x.replaysEver + 1, replays := x.replays + 1 }
    if 8 < x.replays + 1 then s1.retrain p else s1.resendAll p

/-- Send the next expected sequence number: in a DATA flit with credits where some are due and the replay buffer has
room, else in an IDLE flit (R318). -/
def sendAck (s : State) (p : Nat) : State :=
  let x := s.port p
  let room := decide ((x.txNext + 4096 - x.oldest) % 4096 < replayFlits p)
  if (owedVc x).isSome && room then s.sendData p 0xFFF [] else s.sendPlainFlit p 1

/-- One NAK with the next expected sequence number. DEDUCED, log 28. -/
def sendNak (s : State) (p : Nat) : State :=
  (s.modPort p fun x => { x with discarding := true }).sendPlainFlit p 2

/-- The credits of a packet that leaves its receive buffer are due to the partner (R322). -/
def freeCredits (s : State) (p : Nat) (k : Packet) : State :=
  let v := k.vc.toNat
  s.modPort p fun x => { x with owed := x.owed.set v (x.owed.getD v 0 + Pkt.creditsOf k) }

/-- A NAK received: a replay, or a retrain where more than 64 came within 1 ms (R317, R319). -/
def nakReceived (s : State) (p : Nat) : State :=
  let x := s.port p
  let times := (x.naks.filter fun t => decide (s.now - t ≤ 100000)) ++ [s.now]
  let s1 := s.setPort p { x with naks := times }
  if 64 < times.length then s1.retrain p else s1.replay p

/-- Accept the DATA flit that is expected next (R316 item 3). -/
def acceptFlit (s : State) (p : Nat) (w : W64) (r : Rx) : State :=
  let s1 := s.applyAck p (Ctl.ack w)
  let s2 := s1.modPort p fun x =>
    let v := Ctl.cvc w
    { x with
      rxNext := (x.rxNext + 1) % 4096, discarding := false, rxDue := r.due, rxHead := r.head, rxPad := r.pad
      rxBytes := x.rxBytes + r.bytes, sinceAck := x.sinceAck + 1
      credits := x.credits.set v (min (x.credits.getD v 0 + Ctl.ccount w) ((vcBuffers (p == 6)).getD v 0)) }
  let s3 := pump p (s2.port p).sendQ.length s2
  if 64 ≤ (s3.port p).sinceAck then s3.sendAck p else s3

/-- More symbol errors than this in 1 s are more than one in 10^4 of what a lane carries: 67.2 Gb/s on a partner port,
212.5 Gb/s on the pair port, ten bits to a symbol (R312, R343). -/
def symbolLimit (p : Nat) : Nat := if p = 6 then 2125000 else 672000

/-- A codeword that a flit touches: its number in the frame, whether it begins in the flit, its symbols in error and those
erased. -/
structure Word where
  no : Nat
  begins : Bool
  err : List Nat
  erased : List Nat
  deriving DecidableEq, Repr

/-- The codewords that a flit touches (R309 to R312). -/
def wordsOf (x : Port) (p : Nat) (f : Flit) : List Word :=
  f.errors.zipIdx.map fun e =>
    let c := Fec.firstWord p f.slot + e.2
    { no := c, begins := Fec.beginsIn p f.slot e.2, err := e.1, erased := Fec.erasures p x.lost c }

def Word.corrects (p : Nat) (w : Word) : Bool := (Rs.ofPort p).corrects w.err w.erased

/-- Lanes that show more symbol errors than the limit are marked, each with an event (R343). -/
def markLanes (s : State) (p : Nat) : State :=
  let x := s.port p
  let bad := (List.range (Fec.lanesOf p)).filter fun l =>
    !x.laneBad.getLsbD l && decide (symbolLimit p < (x.laneErrs.filter fun e => e.1 == l).length)
  bad.foldl (fun s l => (s.modPort p fun y => { y with laneBad := y.laneBad ||| (1 <<< l) }).postDevice .laneDegraded
    (toLe 1 p ++ toLe 1 l)) s

/-- The FEC's work on the codewords that begin in a flit: corrected and failed ones are counted, and the symbol errors that it
found go to their lanes (R309 to R311, R343). DESIGN CHOICE, log 117. -/
def countFec (s : State) (p : Nat) (ws : List Word) : State :=
  let mine := ws.filter fun w => w.begins
  let good := mine.filter fun w => w.corrects p
  let errs := good.flatMap fun w => w.err.map fun m =>
    (Fec.lane p (s.port p).half (halfLow (s.port p)) w.no m, s.now)
  (s.modPort p fun x =>
    { x with
      fecCe := x.fecCe + (good.filter fun w => !w.err.isEmpty || !w.erased.isEmpty).length
      fecUe := x.fecUe + (mine.length - good.length)
      laneErrs := (x.laneErrs.filter fun e => decide (s.now - e.2 ≤ 100000000)) ++ errs }).markLanes p

/-- The judgement of R316 on a flit. DEDUCED, log 28. DESIGN CHOICE, log 117. -/
def judgeFlit (s : State) (p : Nat) (f : Flit) : State :=
  let ws := wordsOf (s.port p) p f
  let failed := !ws.all fun w => w.corrects p
  let s0 := s.countFec p ws
  let crcOk := f.crc == crc32c (toLe 8 f.control.toNat ++ f.payload)
  let x := s0.port p
  let r := Rx.flit x f.control f.payload
  let fresh := Ctl.ftype f.control == 0 && Ctl.seq f.control == x.rxNext
  let parsed := !fresh || r.first.getD 0xFFF == Ctl.pstart f.control
  let s1 := if crcOk && (parsed || failed) then s0 else s0.modPort p fun y => { y with crcErr := y.crcErr + 1 }
  if !crcOk || failed || 3 ≤ Ctl.ftype f.control || !parsed then s1.sendNak p
  else if Ctl.ftype f.control = 1 then s1.applyAck p (Ctl.ack f.control)
  else if Ctl.ftype f.control = 2 then (s1.applyAck p (Ctl.ack f.control)).nakReceived p
  else if fresh then s1.acceptFlit p f.control r
  else s1.applyAck p (Ctl.ack f.control)

end State

/-- FLIT_RECEIVED (R316): a port that is not UP takes no flit. -/
def execFlitReceived (p : Fin 7) (f : Flit) (s : State) : Host.Outcome State Fault Refusal :=
  if !f.wf p then .fault .illFormed
  else .next (if (s.port p.val).state = .up then s.judgeFlit p.val f else s)

/-- ACK_TIMEOUT: a count of 2,001 cycles from the sending of the oldest unacknowledged flit (R317). -/
def execAckTimeout (p : Fin 7) (s : State) : Host.Outcome State Fault Refusal :=
  let x := s.port p.val
  .next (if x.state = .up ∧ x.oldest ≠ x.txNext ∧ 2000 < s.now - x.sentAt.headD s.now then s.replay p.val else s)

/-- ACK_RETURN: the next expected sequence number goes out (R318). -/
def execAckReturn (p : Fin 7) (s : State) : Host.Outcome State Fault Refusal :=
  .next (if (s.port p.val).state = .up then s.sendAck p.val else s)

namespace State

/-- A retrain ends: the port resumes by replaying, unless it took longer than 5 ms (R319, R320). -/
def retrainDone (s : State) (p : Nat) : State :=
  let x := s.port p
  if x.state ≠ .retrain then s
  else if 500000 < s.now - x.retrainAt then s.linkDown p 2
  else
    let s1 := (s.setPort p { x with state := .up, lost := if p = 6 then x.lost else 0, txFrame := [] }).resendAll p
    pump p (s1.port p).sendQ.length s1

end State

def execRetrainComplete (p : Fin 7) (s : State) : Host.Outcome State Fault Refusal := .next (s.retrainDone p.val)

/-- RETRAIN_TIMEOUT: a retrain of more than 5 ms takes the link DOWN (R319). -/
def execRetrainTimeout (p : Fin 7) (s : State) : Host.Outcome State Fault Refusal :=
  let x := s.port p.val
  .next (if x.state = .retrain ∧ 500000 < s.now - x.retrainAt then s.linkDown p.val 2 else s)

namespace State

/-- A lane loses lock: it is marked, with an event where it was not; a partner port's FEC corrects five such lanes and retrains
beyond them; the pair port goes on at half width, or DOWN where both halves hold failed lanes (R310, R337, R343). -/
def laneLost (s : State) (p lane : Nat) : State :=
  let x := s.port p
  if Fec.lanesOf p ≤ lane ∨ x.lost.getLsbD lane ∨ !(s.portActive p) then s
  else
    let m := x.lost ||| (1 <<< lane)
    let s0 := s.setPort p { x with lost := m, laneBad := x.laneBad ||| (1 <<< lane) }
    let s1 := if x.laneBad.getLsbD lane then s0 else s0.postDevice .laneDegraded (toLe 1 p ++ toLe 1 lane)
    if x.state = .training then s1
    else if p = 6 then
      if badIn m 0 8 && badIn m 8 8 then s1.linkDown p 6
      else if x.half then s1
      else
        let s2 := (s1.modPort p fun y => { y with half := true }).recordFault
          { mech := Mech.ppHalf.code, outcome := .masked, cls := 4, index := p, detail := m.toNat }
        (s2.postDevice .ppHalfWidth []).retrain p
    else if 5 < ((List.range 128).filter m.getLsbD).length then s1.retrain p
    else s1

end State

def execLaneLockLost (p : Fin 7) (lane : Fin 128) (s : State) : Host.Outcome State Fault Refusal :=
  .next (s.laneLost p.val lane.val)

/-! ### Port bring-up (R332, R333) -/

/-- TRAINING_RESEND: a port that has not locked resends its training sequence every 100 ms (R332). -/
def execTrainingResend (p : Fin 7) (s : State) : Host.Outcome State Fault Refusal :=
  let x := s.port p.val
  .next (if x.state = .training ∧ !x.locked ∧ 10000000 ≤ s.now - x.trainedAt then
      let s1 := s.setPort p.val { x with trainedAt := s.now }
      { s1 with out := s1.out ++ [.training p.val] }
    else s)

/-- PORT_ABSENT: a port that has never been UP is ABSENT more than 30 s after its enable (R332). -/
def execPortAbsent (p : Fin 7) (s : State) : Host.Outcome State Fault Refusal :=
  let x := s.port p.val
  .next (if x.enable ∧ !x.everUp ∧ x.state ≠ .up ∧ x.state ≠ .absent ∧ 3000000000 < s.now - x.enabledAt then
      s.setPort p.val { x with state := .absent }
    else s)

/-- LANE_LOCK: event 3, at least 2 ms after the enable (R332). -/
def execLaneLock (p : Fin 7) (s : State) : Host.Outcome State Fault Refusal :=
  let x := s.port p.val
  .next (if x.state = .training ∧ 200000 ≤ s.now - x.enabledAt then s.setPort p.val { x with locked := true, lost := 0 } else s)

namespace State

/-- What this device's HELLO carries on a port (R333). -/
def ownHello (s : State) (p : Fin 7) : HelloMsg :=
  { serial := s.serial, port := p, siteId := s.inputs.straps.siteId, pairSide := s.inputs.straps.pairSide
    generation := 0x01, numerics := BitVec.ofNat 8 s.numericsRev }

/-- Whether two port names make a torus link (R333). -/
def torusLink (p q : Nat) : Bool := decide (p < 6) && decide (q < 6) && (p + 3 == q || q + 3 == p)

/-- HELLO from the partner: it is recorded; equal PAIR_SIDE straps keep the pair port DOWN (R333). -/
def helloFrom (s : State) (p : Nat) (h : HelloMsg) : State :=
  let x := s.port p
  if x.state ≠ .training ∨ !x.fec then s
  else if p = 6 ∧ h.pairSide = s.inputs.straps.pairSide then
    (s.setPort p { x with state := .down, cause := 5, partnerId := h.serial }).postDevice .pairEvent
      (toLe 1 4 ++ toLe 1 s.pair.mode.code)
  else
    s.setPort p
      { x with
        partnerId := h.serial, partnerPort := h.port.val, torus := torusLink p h.port.val, helloed := true
        partnerValid := false, partner := 0 }

/-- The link is UP: each side holds the other's full buffers as credits (R322, R332). A loopback keeps it from being UP
(R343), and without the crystal no link comes up (R525). DEDUCED, log 94, DEDUCED, log 103. -/
def linkIsUp (s : State) (p : Nat) : State :=
  let x := s.port p
  if x.state ≠ .training ∨ !x.helloed ∨ x.loopback ∨ !s.pacer.crystal then s
  else
    s.setPort p
      { x with
        state := .up, everUp := true, cause := x.cause, credits := vcBuffers (p == 6), owed := [0, 0, 0, 0], rxNext := 0
        discarding := false, rxDue := 0, rxHead := [], rxPad := true, sinceAck := 0, lastSent := s.now, txNext := 0, oldest := 0
        sentAt := [], kept := [], txFrame := [], half := false, replays := 0, naks := [], retrains := [], sendQ := []
        served := [0, 0, 0, 0], starterReq := none }

end State

/-- FEC_LOCK: event 4; HELLO goes out (R332). -/
def execFecLock (p : Fin 7) (s : State) : Host.Outcome State Fault Refusal :=
  let x := s.port p.val
  .next (if x.state = .training ∧ x.locked then
      let s1 := s.setPort p.val { x with fec := true }
      { s1 with out := s1.out ++ [.hello p.val (s.ownHello p)] }
    else s)

/-- PORT_HELLO: event 5 (R333). -/
def execPortHello (p : Fin 7) (h : HelloMsg) (s : State) : Host.Outcome State Fault Refusal := .next (s.helloFrom p.val h)

namespace State

/-- `link_ctl.enable`: 1 brings the port up, 0 turns it off (R332, R343). -/
def setEnable (s : State) (p : Nat) (on : Bool) : State :=
  if on then (if (s.port p).enable then s else s.trainPort p) else s.portOff p

/-- `link_ctl.loopback`: the link is not UP while it is set, so that one that is UP goes DOWN; a port leaves it by training
(R320, R343). DEDUCED, log 103. -/
def setLoopback (s : State) (p : Nat) (on : Bool) : State :=
  if on then
    let x := s.port p
    (if x.state = .up ∨ x.state = .retrain then s.linkDown p x.cause else s).modPort p fun y => { y with loopback := true }
  else if (s.port p).loopback && (s.port p).enable then (s.modPort p fun x => { x with loopback := false }).trainPort p
  else s.modPort p fun x => { x with loopback := false }

end State

/-- LINK_ENABLE (R332, R343). -/
def execLinkEnable (p : Fin 7) (on : Bool) (s : State) : Host.Outcome State Fault Refusal := .next (s.setEnable p.val on)

/-- LOOPBACK (R343). -/
def execLoopback (p : Fin 7) (on : Bool) (s : State) : Host.Outcome State Fault Refusal := .next (s.setLoopback p.val on)

/-- PAIR_EPISODE_CLOSE: 100,001 cycles without a pair event close the episode (R341). -/
def execPairEpisodeClose (s : State) : Host.Outcome State Fault Refusal :=
  .next (match s.pair.episode with
    | some t => if 100000 < s.now - t then s.closeEpisode else s
    | none => s)

end Sys2Proof.Machine
end

