-- ==== Sys2Proof/Machine/Rings.lean ====
section
/-! DEFINITION. Groups as rings and tori (R344 to R347), strands and pieces (R360 to R362), dissemination passes (R364),
and the group barrier: HURDLE with group scope (R248, R380). -/

namespace Sys2Proof.Machine

namespace Group

/-! ### Geometry -/

/-- Extent of a dimension; 1 where the geometry has none. -/
def extOf (g : Group) (d : Nat) : Nat :=
  match g.geometry with
  | .ring => if d = 0 then g.m else 1
  | .torus => g.ext.getD d 1
  | .neighbours => 1

/-- Coordinate of a rank in a dimension (R345). -/
def coordOf (g : Group) (rank d : Nat) : Nat :=
  match g.geometry with
  | .ring => if d = 0 then rank else 0
  | .torus =>
    match d with
    | 0 => rank % g.extOf 0
    | 1 => rank / g.extOf 0 % g.extOf 1
    | _ => rank / (g.extOf 0 * g.extOf 1) % g.extOf 2
  | .neighbours => 0

def pos (g : Group) (d : Nat) : Nat := g.coordOf g.rank d

/-- The ports to successor and predecessor in a dimension; none where its extent is 1 (R346). -/
def ring? (g : Group) (d : Nat) : Option (Nat × Nat) :=
  if g.extOf d ≤ 1 then none
  else g.rings[((List.range d).filter fun i => decide (1 < g.extOf i)).length]?

/-- The port that leads onward in a direction, and the one that messages come from. -/
def portTo (g : Group) (d : Nat) (plus : Bool) : Option Nat := (g.ring? d).map fun r => if plus then r.1 else r.2
def portFrom (g : Group) (d : Nat) (plus : Bool) : Option Nat := (g.ring? d).map fun r => if plus then r.2 else r.1

/-- The position `k` places onward from `a` in a ring of n. -/
def stepFrom (n a k : Nat) (plus : Bool) : Nat := if plus then (a + k) % n else (a + n - k % n) % n

/-! ### Strands and pieces (R360, R361) -/

def strands (g : Group) : Nat := if g.geometry = .ring then 2 else 6
def levels (g : Group) : Nat := if g.geometry = .ring then 1 else 3

/-- The dimension of a strand's level: a dimension of extent 1 forms no level but keeps its place in the order. -/
def dimAt (g : Group) (k l : Nat) : Nat := if g.geometry = .ring then 0 else (k % 3 + l) % 3

def plusOf (g : Group) (k : Nat) : Bool := if g.geometry = .ring then k == 0 else decide (k < 3)

/-- The strand that uses a dimension in a direction at a level. -/
def strandAt (g : Group) (l d : Nat) (plus : Bool) : Nat :=
  if g.geometry = .ring then (if plus then 0 else 1)
  else (d + 3 - l) % 3 + (if plus then 0 else 3)

/-- Units of a strand of a bucket of U units. -/
def strandUnits (g : Group) (u k : Nat) : Nat × Nat := (u * k / g.strands, u * (k + 1) / g.strands)

/-- Part `a` of a range divided among n positions. -/
def part (r : Nat × Nat) (n a : Nat) : Nat × Nat :=
  let v := r.2 - r.1
  (r.1 + v * a / n, r.1 + v * (a + 1) / n)

/-- The units of strand k that this device holds after levels 0 to l − 1. -/
def held (g : Group) (u k : Nat) : Nat → Nat × Nat
  | 0 => g.strandUnits u k
  | l + 1 => part (g.held u k l) (g.extOf (g.dimAt k l)) (g.pos (g.dimAt k l))

/-- The piece of strand k that this device owns. -/
def piece (g : Group) (u k : Nat) : Nat × Nat := g.held u k g.levels

/-- The pieces that this device owns, empty ones left out. -/
def pieces (g : Group) (u : Nat) : List (Nat × Nat) :=
  ((List.range g.strands).map (g.piece u)).filter fun r => decide (r.1 < r.2)

/-- The part that position j owns at a level of strand k. -/
def partOf (g : Group) (u k l j : Nat) : Nat × Nat := part (g.held u k l) (g.extOf (g.dimAt k l)) j

/-- The mask of the first `n` positions after the owner j in a strand's order (R362). -/
def maskOf (n j count : Nat) (plus : Bool) : W64 :=
  (List.range count).foldl (fun acc i => acc ||| (1 <<< stepFrom n j (i + 1) plus)) 0

end Group

/-! ### Dissemination (R364) -/

namespace Group

/-- The rank of the member of a ring or torus that a port leads to (R346). -/
def rankOn (g : Group) (p : Nat) : Option Nat :=
  match ((List.range 3).flatMap fun d => [(d, true), (d, false)]).find? fun x => g.portTo x.1 x.2 == some p with
  | some (d, plus) => (List.range g.m).find? fun r => (List.range 3).all fun e =>
      g.coordOf r e == if e = d then stepFrom (g.extOf d) (g.pos d) 1 plus else g.pos e
  | none => none

end Group

namespace Dissem

def has (d : Dissem) (l s : Nat) : Option (Option Int) :=
  (d.got.find? fun x => x.1 == l && x.2.1 == s).map fun x => x.2.2

/-- Run a pass as far as what has come allows: the new state, and the messages due as (level, step, value). -/
def run (n : Nat → Nat) (comb : List (Option Int) → Option Int) : Nat → Dissem → Dissem × List (Nat × Nat × Option Int)
  | 0, d => (d, [])
  | f + 1, d =>
    if !d.started || d.complete then (d, [])
    else if 3 ≤ d.level then ({ d with complete := true }, [])
    else
      let k := n d.level
      if k ≤ 1 then run n comb f { d with level := d.level + 1, sent := 0 }
      else
        let next : Option (Option Int) := if d.sent = 0 then some d.value else d.has d.level (d.sent - 1)
        match decide (d.sent < k - 1), next with
        | true, some v =>
          let (d1, out) := run n comb f { d with sent := d.sent + 1 }
          (d1, (d.level, d.sent, v) :: out)
        | true, none => (d, [])
        | false, _ =>
          let vs := (List.range (k - 1)).map (d.has d.level)
          if vs.all Option.isSome then
            run n comb f { d with level := d.level + 1, sent := 0, value := comb (d.value :: vs.map fun v => v.getD none) }
          else (d, [])

/-- The maximum, where NONE is below every number (R367). -/
def combMax (vs : List (Option Int)) : Option Int :=
  vs.foldl (fun acc v => match acc, v with
    | some a, some b => some (max a b)
    | none, b => b
    | a, none => a) none

/-- The exact sum (R372). -/
def combSum (vs : List (Option Int)) : Option Int := some ((vs.map fun v => v.getD 0).sum)

/-- Enough steps for every pass: three levels of at most 64 positions. -/
def fuel : Nat := 256

def start (n : Nat → Nat) (comb : List (Option Int) → Option Int) (d : Dissem) (v : Option Int) :
    Dissem × List (Nat × Nat × Option Int) :=
  run n comb fuel { d with started := true, value := v }

def receive (n : Nat → Nat) (comb : List (Option Int) → Option Int) (d : Dissem) (l s : Nat) (v : Option Int) :
    Dissem × List (Nat × Nat × Option Int) :=
  run n comb fuel { d with got := d.got ++ [(l, s, v)] }

/-- A value in a packet of the pass; NONE goes as the most negative number (DESIGN CHOICE, log 22). -/
def encode (v : Option Int) : List Byte := toLe 8 (unsignedOf 64 (v.getD (-(2 ^ 63 : Int))))

def decode (bs : List Byte) : Option Int :=
  let i := signedOf 64 (leNat (bs.take 8))
  if i = -(2 ^ 63 : Int) then none else some i

end Dissem

namespace State

def group? (s : State) (id : Nat) : Option Group := s.groups.find? fun g => g.id == id

def setGroup (s : State) (g : Group) : State :=
  { s with groups := s.groups.map fun x => if x.id == g.id then g else x }

/-- The contributor bit of the position that a value of a pass originated at, as this device sends it (R364). DEDUCED, log 54. -/
def passBit (g : Group) (l step : Nat) : W64 := 1 <<< Group.stepFrom (g.extOf l) (g.pos l) step false

/-- Send the AGREE or VERDICT messages of a pass, strand 0, to the successor. DEDUCED, log 52. -/
def sendPass (s : State) (g : Group) (bucket stage : Nat) (msgs : List (Nat × Nat × Option Int)) : State :=
  msgs.foldl (fun s (m : Nat × Nat × Option Int) =>
    match g.portTo m.1 true with
    | some p =>
      s.send p (s.mkPacket p .agree g.job g.id bucket (64 * m.1 + m.2.1) 2 stage (passBit g m.1 m.2.1) (Dissem.encode m.2.2))
    | none => s) s

/-! ### The barrier (R248, R380) -/

/-- Send the ARRIVE messages of a pass. -/
def sendArrive (s : State) (g : Group) (msgs : List (Nat × Nat × Option Int)) : State :=
  msgs.foldl (fun s (m : Nat × Nat × Option Int) =>
    match g.portTo m.1 true with
    | some p => s.send p (s.mkPacket p .arrive g.job g.id (g.round % 2 ^ 32) (64 * m.1 + m.2.1) 0 0xD (passBit g m.1 m.2.1) [])
    | none => s) s

/-- Whether the round is complete on this device. -/
def roundDone (g : Group) : Bool :=
  match g.geometry with
  | .neighbours => g.sentAt.isSome && g.ports.all fun p => g.heard.contains (p, g.round)
  | _ => g.barrier.complete

/-- Release the queues that wait for a round. -/
def releaseRound (s : State) (gid round : Nat) : State :=
  (s.queues.filter fun (q : CmdQueue) => q.state == .waiting && q.wait == .group gid round).foldl (fun s q =>
    match s.queue? q.id with
    | some q1 => s.complete q1 { status := .ok, next := q1.pos + 1, countA := 0, countB := 0 }
    | none => s) s

/-- Close a complete round: its waiting queues go on, and the next round begins. -/
def closeRound (s : State) (gid : Nat) : State :=
  match s.group? gid with
  | some g =>
    if roundDone g then
      (s.setGroup { g with
        round := g.round + 1, sentAt := none, barrier := {}, heard := g.heard.filter fun h => h.2 != g.round }).releaseRound gid g.round
    else s
  | none => s

/-- The device's own arrival of the round (R248). -/
def arriveOwn (s : State) (g : Group) : State :=
  match g.geometry with
  | .neighbours =>
    g.ports.foldl (fun s p => s.send p (s.mkPacket p .arrive g.job g.id (g.round % 2 ^ 32) 0 0 0xD 1 []))
      (s.setGroup { g with sentAt := some s.now })
  | _ =>
    let (d, msgs) := Dissem.start g.extOf Dissem.combMax g.barrier (some 1)
    (s.setGroup { g with sentAt := some s.now, barrier := d }).sendArrive g msgs

end State

/-! ### HURDLE with group scope (R248) -/

namespace Sync

/-- The group that a HURDLE or TRIG names, where this job has joined it. -/
def joined (c : Cmd) (s : State) (id : Nat) : Option Group :=
  match s.group? id with
  | some g => if g.job = c.job.id then some g else none
  | none => none

def groupChecks (c : Cmd) (s : State) : List Fail :=
  let w := c.slot
  controlChecks w { operands := [(0x1E, 0, 1), (0x20, 0, 14), (0x28, 0, 16)] } ++
    need (decide (1 ≤ members w) && decide (members w ≤ 4096)) .badOperand ++
    need (joined c s (addrField w)).isSome .badOperand

/-- A local arrival; the n-th one sends the device's own. The queue waits until the round is complete. -/
def groupBody (c : Cmd) (s : State) : Res :=
  match joined c s (addrField c.slot) with
  | none => .fail .badOperand none
  | some g =>
    let g1 := { g with arrivals := g.arrivals + 1 }
    if members c.slot ≤ g1.arrivals ∧ g.sentAt.isNone then
      let g2 := { g1 with arrivals := 0 }
      let s1 := (s.setGroup g2).arriveOwn g2
      match s1.group? g.id with
      | some g3 => if State.roundDone g3 then .ok (s1.closeRound g.id) 0 0 else .wait s1 (.group g.id g.round)
      | none => .wait s1 (.group g.id g.round)
    else .wait (s.setGroup g1) (.group g.id g.round)

end Sync

def execHurdleGroup (q : Nat) (s : State) : Host.Outcome State Fault Refusal :=
  .next (s.runMacro (isHurdle true) Sync.groupChecks Sync.groupBody q)

end Sys2Proof.Machine
end

