-- ==== Sys2Proof/Machine/Chains.lean ====
section
/-! DEFINITION. Triggered chains: their layout (R348 to R352, R378), the checks of TRIG (R353 to R357, R374), and arming. -/

namespace Sys2Proof.Machine

/-- Whether a chain arms in a training step (R355). DEDUCED, log 108. -/
def Trig.armsNow (step thin : Nat) : Bool := (step + 1) % thin == 0

namespace Chain

/-! ### Layout -/

/-- The fields of a chain header (R348). -/
structure Header where
  version : Nat
  n : Nat
  thin : Nat
  seq0 : Nat
  staging : Nat
  sstride : Nat
  status : Nat
  reserved : Bool
  deriving DecidableEq, Repr

def header (s : State) (a : Nat) : Header :=
  let w := s.read a 4
  { version := bitsAt w 24 8, n := bitsAt w 16 8, thin := bitsAt w 8 8, seq0 := s.read (a + 4) 4
    staging := s.read (a + 8) 8, sstride := s.read (a + 0x10) 8, status := s.read (a + 0x18) 8
    reserved := bitsAt w 0 8 != 0 || s.read (a + 0x20) 32 != 0 }

/-- An entry as it stands in memory: 64 bytes as a number. -/
abbrev Raw := Nat

namespace Raw

def etype (e : Raw) : Nat := bitsAt e 24 8
def carry (e : Raw) : Nat := bitsAt e 17 3
def clear (e : Raw) : Bool := bitAt e 16
def src (e : Raw) : Nat := bitsAt e 32 24
def dst (e : Raw) : Nat := bitsAt e 64 24
def nb (e : Raw) : Nat := bitsAt e 96 32
def first (e : Raw) : Nat := bitsAt e 128 64
def blen (e : Raw) : Nat := bitsAt e 192 64
def root (e : Raw) : Nat := bitsAt e 256 16
/-- UPDATE: program ID, streams 1 to 5, program address, parameter block. -/
def progId (e : Raw) : Nat := bitsAt e 16 8
def stream (e : Raw) (i : Nat) : Nat := bitsAt e (32 + 24 * (i - 1)) 24
def program (e : Raw) : Nat := bitsAt e 192 64
def params (e : Raw) : Nat := bitsAt e 256 64
/-- HALO: send and receive views of a port. DEDUCED, log 51. -/
def sendView (e : Raw) (p : Nat) : Nat := bitsAt e (32 + 24 * p) 24
def recvView (e : Raw) (p : Nat) : Nat := bitsAt e (0x16 * 8 + 24 * p) 24

/-- Reserved bits of the entry's type (R349, R352, R378). -/
def reserved (e : Raw) : Bool :=
  match etype e with
  | 4 => bitsAt e 0 16 != 0 || bitsAt e (0x13 * 8) 40 != 0 || bitsAt e (0x28 * 8) 192 != 0 ||
      (progId e != 0 && program e != 0)
  | 5 => bitsAt e 0 24 != 0 || bitsAt e (0x28 * 8) 192 != 0
  | t => bitsAt e 20 4 != 0 || bitsAt e 0 16 != 0 || bitsAt e 56 8 != 0 || bitsAt e 88 8 != 0 ||
      bitsAt e (0x22 * 8) 240 != 0 || (t != 6 && root e != 0) ||
      (t != 1 && t != 3 && (carry e != 0 || clear e))

def ref (e : Raw) : ProgRef := if progId e = 0 then .address (program e) else .builtin (progId e)

def decode (e : Raw) : ChainEntry :=
  match etype e with
  | 1 => .reduceScatter (carry e) (clear e) (src e) (dst e)
  | 2 => .allGather (src e) (dst e)
  | 3 => .allReduce (carry e) (clear e) (src e) (dst e)
  | 4 => .update (ref e) ((List.range' 1 5).map (stream e)) (params e)
  | 5 => .halo ((List.range 6).map (sendView e)) ((List.range 6).map (recvView e))
  | 6 => .bcast (src e) (dst e) (root e)
  | _ => .allToAll (src e) (dst e)

end Raw

def rawEntries (s : State) (a n : Nat) : List Raw := (List.range n).map fun k => s.read (a + 0x40 + 0x40 * k) 64

/-- Bytes of a carry element (R327). -/
def carryBytes (c : Nat) : Nat :=
  match c with
  | 0 => 4
  | 3 => 16
  | _ => 8

/-- The stream handles of an UPDATE that follows a REDUCE_SCATTER into `dst` (R352). -/
def updateStreams (dst : Nat) (e : Raw) : List Nat := dst :: (List.range' 1 5).map e.stream

/-! ### Checks (R353) -/

/-- What the checks know: the command, the group and the parts of the chain. -/
structure Parts where
  c : Cmd
  g : Group
  h : Header
  es : List Raw

namespace Parts

/-- The first entry that carries nb, and the first of types 1 to 3, whose first and blen the types 1 to 4 share (R351). -/
def lead (x : Parts) : Option Raw := x.es.find? fun e => e.etype != 4 && e.etype != 5
def sums (x : Parts) : Option Raw := x.es.find? fun e => decide (1 ≤ e.etype) && decide (e.etype ≤ 3)

def nb (x : Parts) : Nat := (x.lead.map Raw.nb).getD 1
def first (x : Parts) : Nat := (x.sums.map Raw.first).getD 0
def blen (x : Parts) : Nat := (x.sums.map Raw.blen).getD 1024

/-- The first index and the bucket length of an entry (R351). -/
def range (x : Parts) (e : Raw) : Nat × Nat :=
  match e.etype with
  | 4 => (x.first, x.blen)
  | 5 => (0, 0)
  | _ => (e.first, e.blen)

def tensor? (x : Parts) (s : State) (h : Nat) : Option Desc := Update.tensor? s x.c.job h

/-- Handle and descriptor checks, the stash region's (R155), and the access check of the footprint. -/
def tensorFails (x : Parts) (s : State) (h : Nat) : List Fail :=
  if !State.handleOk x.c.job h then [(.badHandle, none)]
  else
    let d := s.descAt x.c.job h
    if !d.ok then [(.badDesc, none)]
    else
      need (!overlap (d.footprint x.c.warm) (State.stashRegion x.c.job)) .badDesc ++
        s.accessChecks x.c.q.team (d.footprint x.c.warm) none

def when2 (x : Parts) (s : State) (a b : Nat) (f : Desc → Desc → Bool) : List Fail :=
  match x.tensor? s a, x.tensor? s b with
  | some p, some q => need (f p q) .badDesc
  | _, _ => []

/-- Whether an entry's bucket ranges lie in a tensor's element index. -/
def rangeOk (e : Raw) (d : Desc) : Bool :=
  decide (e.first + e.nb * e.blen ≤ if d.tiled then 1024 * d.units else d.count)

/-- Formats of a reduction (R365). -/
def reduceFmt (d : Desc) : Bool :=
  !d.blockEn && match Fmt.ofCode d.fmtCode with
    | some .fp64 | some .fp32 | some .bf16 | some .fp16 => true
    | _ => false

/-- Equal format and block settings: bytes can be copied. -/
def sameBytes (warm : Bool) (a b : Desc) : Bool :=
  a.fmtIn warm == b.fmtIn warm && a.blockEn == b.blockEn &&
    (!a.blockEn || (a.blockSize == b.blockSize && a.variant == b.variant && a.contig == b.contig))

/-- Extent of the outermost dimension. -/
def outer (d : Desc) : Nat := d.ext (d.rank - 1)

def fits (x : Parts) (s : State) (h : Nat) (f : Desc → Bool) : List Fail :=
  match x.tensor? s h with
  | some d => need (f d) .badDesc
  | none => []

/-- Members whose ranks a group has; a NEIGHBOURS group has none. -/
def allowed (x : Parts) (t : Nat) : Bool :=
  match x.g.geometry with
  | .neighbours => t == 5
  | _ => decide (1 ≤ t) && decide (t ≤ 7)

/-- The elements of this device's pieces of bucket b in a tensor's index. -/
def pieceRanges (x : Parts) (b : Nat) : List (Nat × Nat) :=
  (x.g.pieces (x.blen / 1024)).map fun r =>
    let base := (x.first + b * x.blen) / 1024
    (base + r.1, base + r.2)

/-- The stack that a unit range of a tensor lies in, where it lies in one. -/
def stackOfRange (d : Desc) (warm : Bool) (r : Nat × Nat) : Option (Fin 8) :=
  let is := Update.spans d warm (d.elemsIn (1024 * r.1) (1024 * r.2))
  match is with
  | [] => none
  | i :: _ =>
    let st := State.stackOf i.lo.toNat
    if h : st < 8 then
      (if is.all fun j => decide (0 ≤ j.lo) && isEdern j.lo.toNat && State.stackOf j.lo.toNat == st &&
          State.stackOf (j.lo.toNat + j.len - 1) == st then some ⟨st, h⟩ else none)
    else none

/-- The checks of an UPDATE on the dst of its REDUCE_SCATTER: program, streams, and one stack for each owned piece. A member
that owns no piece checks the program and the streams in the stack of the parameter block. DEDUCED, log 52. -/
def updateFails (x : Parts) (s : State) (dst : Nat) (e : Raw) : List Fail :=
  match x.tensor? s dst with
  | none => []
  | some d =>
    let hs := updateStreams dst e
    let st := State.stackOf e.params
    if (x.g.pieces (x.blen / 1024)).all fun r => decide (r.2 ≤ r.1) then
      (Update.progFails s x.c.job (if h : st < 8 then ⟨st, h⟩ else 0) e.ref hs e.params 0 0).map fun f => (f.1, none)
    else
    (List.range x.nb).flatMap fun b => ((x.pieceRanges b).filter fun r => decide (r.1 < r.2)).flatMap fun r =>
      match stackOfRange d x.c.warm r with
      | none => [(.badDesc, none)]
      | some st =>
        need (hs.all fun h => match x.tensor? s h with
          | some t => stackOfRange t x.c.warm r == some st || (t.elemsIn (1024 * r.1) (1024 * r.2)).isEmpty
          | none => true) .badDesc ++
        (Update.progFails s x.c.job st e.ref hs e.params r.1 r.2).map fun f => (f.1, none)

/-- The checks of entry k. -/
def entryFails (x : Parts) (s : State) (k : Nat) (e : Raw) : List Fail :=
  let prev : Option Raw := if k = 0 then none else x.es[k - 1]?
  let common : List Fail := need (!e.reserved && x.allowed e.etype) .badOperand
  match e.etype with
  | 4 =>
    common ++ match prev with
      | some r => if r.etype = 1 then x.updateFails s r.dst e else [(.badOperand, none)]
      | none => [(.badOperand, none)]
  | 5 =>
    let ps := State.groupPorts x.g
    common ++ need (x.es.length == 1) .badOperand ++
      (List.range 6).flatMap fun p =>
        let a := e.sendView p
        let b := e.recvView p
        need ((a == noHandle && b == noHandle) || ps.contains p) .badOperand ++
          (if a = noHandle then [] else x.tensorFails s a) ++ (if b = noHandle then [] else x.tensorFails s b) ++
          (if a = noHandle ∨ b = noHandle then [] else x.when2 s a b (sameBytes x.c.warm)) ++
          (List.range 6).flatMap fun q =>
            (if b = noHandle ∨ e.sendView q = noHandle then []
              else x.when2 s b (e.sendView q) fun v w => !overlap (v.footprint x.c.warm) (w.footprint x.c.warm)) ++
            (if b = noHandle ∨ q ≤ p ∨ e.recvView q = noHandle then []
              else x.when2 s b (e.recvView q) fun v w => !overlap (v.footprint x.c.warm) (w.footprint x.c.warm))
  | t =>
    if t = 0 ∨ 7 < t then [(.badOperand, none)] else
    common ++
      need (decide (1 ≤ e.nb) && decide (e.nb ≤ 4096) && e.nb == x.nb && (decide (t < 6) || e.nb == 1)) .badOperand ++
      need (e.first % 1024 == 0 && e.blen % 1024 == 0 && (decide (1 ≤ e.blen) || t == 7)) .badOperand ++
      need (decide (4 ≤ t) || (e.first == x.first && e.blen == x.blen)) .badOperand ++
      need (decide (e.carry ≤ 3)) .badOperand ++ need (t != 6 || decide (e.root < x.g.m)) .badOperand ++
      x.tensorFails s e.src ++ x.tensorFails s e.dst ++
      (if t = 7 then
        x.fits s e.src (fun d => outer d == x.g.m) ++ x.fits s e.dst (fun d => outer d == x.g.m) ++
          x.when2 s e.src e.dst fun a b => sameBytes x.c.warm a b && a.exts == b.exts && a.tiled == b.tiled
      else x.fits s e.src (rangeOk e) ++ x.fits s e.dst (rangeOk e)) ++
      (if t = 1 ∨ t = 3 then x.fits s e.src reduceFmt ++ x.fits s e.dst reduceFmt else []) ++
      (if t = 6 then x.when2 s e.src e.dst (sameBytes x.c.warm) else []) ++
      (if t = 2 then x.when2 s e.src e.dst fun a b => pairDefined (a.fmtIn x.c.warm) (b.fmtIn x.c.warm) else [])

/-- Bytes of the staging slot that an entry needs, and how many slots (R354). -/
def slotNeed (x : Parts) (s : State) (e : Raw) : Nat × Nat :=
  match e.etype with
  | 1 | 3 => (e.blen * carryBytes e.carry, min x.nb 256)
  | 7 => match x.tensor? s e.src with
    | some d => (2 * ceilDiv (d.count * (d.fmtIn x.c.warm).bits + 16 * d.blocks) 8, 1)
    | none => (0, 1)
  | _ => (0, 0)

/-- The largest slot, and the number of slots. -/
def slotMax (x : Parts) (s : State) : Nat × Nat :=
  x.es.foldl (fun acc e => (max acc.1 (x.slotNeed s e).1, max acc.2 (x.slotNeed s e).2)) (0, 0)

/-- The staging slots as intervals. -/
def slots (x : Parts) (s : State) : List Interval :=
  let (size, n) := x.slotMax s
  let stride := if x.h.sstride = 0 then size else x.h.sstride
  if size = 0 then [] else (List.range n).map fun i => { lo := ((x.h.staging + i * stride : Nat) : Int), len := size }

def handles (x : Parts) : List Nat :=
  (x.es.flatMap fun e =>
    match e.etype with
    | 4 => (List.range' 1 5).map e.stream
    | 5 => (List.range 6).map e.sendView ++ (List.range 6).map e.recvView
    | _ => [e.src, e.dst]).filter fun h => h != noHandle

/-- The checks of the staging slots and the status array. -/
def areaFails (x : Parts) (s : State) : List Fail :=
  let (size, n) := x.slotMax s
  let sl := x.slots s
  need (if n = 0 then x.h.staging == 0 else x.h.staging % 4096 == 0 && x.h.staging != 0) .badOperand ++
    need (x.h.sstride == 0 || decide (size ≤ x.h.sstride)) .badOperand ++
    need (x.h.status % 64 == 0) .badOperand ++
    need (sl.all fun i => i.lo < 0 || isEdern i.lo.toNat) .badOperand ++
    need (x.handles.all fun h => match x.tensor? s h with
      | some d => !overlap sl (d.footprint x.c.warm)
      | none => true) .badOperand ++
    s.accessChecks x.c.q.team sl none ++
    s.accessChecks x.c.q.team [{ lo := (x.h.status : Int), len := 64 * x.nb }] none

/-- The header's own checks, the sequence numbers, and where an UPDATE entry may stand: once in a chain, once armed in a step, and
never in GENERATE (R252, R348, R352, R357, R374). DEDUCED, log 108. -/
def headFails (x : Parts) : List Fail :=
  let hasUpdate := x.es.any fun e => e.etype == 4
  need (x.h.version == 1 && !x.h.reserved && decide (1 ≤ x.h.thin) && decide (x.h.thin ≤ 64)) .badOperand ++
    need (decide ((x.h.seq0 + 2 ^ 32 - x.g.seq % 2 ^ 32) % 2 ^ 32 < 2 ^ 31)) .badOperand ++
    need (decide ((x.es.filter fun e => e.etype == 4).length ≤ 1) &&
      (!hasUpdate || (!(x.c.job.updateArmed && Trig.armsNow x.c.job.step x.h.thin) && !x.c.q.generate))) .badOperand

end Parts

end Chain

/-! ### TRIG (R250, R353 to R357) -/

namespace Trig

def word (w : Slot) : Nat := w.operand 0x30 0 64
def gid (w : Slot) : Nat := w.operand 0x28 0 14

def fields : FieldMap := { operands := [(0x20, 0, 64), (0x28, 0, 14), (0x30, 0, 64)] }

/-- The parts of the chain, where its header can be read and its entries counted. -/
def parts (c : Cmd) (s : State) (g : Group) : List Fail × Option Chain.Parts :=
  let a := addrField c.slot
  if a % 64 != 0 || decide (2 ^ 52 ≤ a) || !isEdern a then ([(.badOperand, none)], none)
  else
    match s.teamAccess c.q.team { lo := (a : Int), len := 64 } with
    | some st => ([(st, none)], none)
    | none =>
      let h := Chain.header s a
      if h.n = 0 ∨ 15 < h.n then ([(.badOperand, none)], none)
      else
        match s.teamAccess c.q.team { lo := (a : Int), len := 64 + 64 * h.n } with
        | some st => ([(st, none)], none)
        | none => ([], some { c := c, g := g, h := h, es := Chain.rawEntries s a h.n })

def checks (c : Cmd) (s : State) : List Fail :=
  let w := c.slot
  controlChecks w fields ++ (if word w = 0 then [] else wordChecks s (word w)) ++
    match Sync.joined c s (gid w) with
    | none => [(.badOperand, none)]
    | some g =>
      match parts c s g with
      | (fs, none) => fs
      | (fs, some x) => fs ++ x.headFails ++ (x.es.mapIdx (x.entryFails s)).flatten ++ x.areaFails s

/-- The chain that a TRIG arms. -/
def arm (x : Chain.Parts) (s : State) : Chain :=
  { id := s.chainIds, job := x.c.job.id, group := x.g.id, addr := addrField x.c.slot, word := word x.c.slot
    queue := x.c.q.id, seq0 := x.h.seq0, staging := x.h.staging, statusBase := x.h.status
    sstride := if x.h.sstride = 0 then (x.slotMax s).1 else x.h.sstride
    nb := x.nb, ranges := x.es.map x.range
    entries := x.es.map Chain.Raw.decode
    buckets := (List.range x.nb).map fun i => { seq := (x.h.seq0 + i) % 2 ^ 32 }
    verdict := {}, total := none, skipped := false, armedAt := s.now, status := .ok }

/-- Arm the chain, or in a step that thinning leaves out only raise the completion word (R355). DEDUCED, log 108. -/
def body (c : Cmd) (s : State) : Res :=
  match Sync.joined c s (gid c.slot) with
  | none => .fail .badOperand none
  | some g =>
    match (parts c s g).2 with
    | none => .fail .badOperand none
    | some x =>
      let w := word c.slot
      let a := addrField c.slot
      match s.poisoned.find? fun l => decide (l < a + 64 + 64 * x.h.n) && decide (a < l + 256) with
      | some l => .fault s Mech.poisonRead.code 3 (State.stackOf l) l
      | none =>
        if !armsNow c.job.step x.h.thin then
          if w = 0 then .ok s 0 0 else Sync.onWord s w (.ok (Sync.addWord s w 1) 0 0)
        else
          let ch := arm x s
          let s1 := s.setGroup { g with seq := (x.h.seq0 + x.nb) % 2 ^ 32 }
          let s2 := { s1 with chains := s1.chains ++ [ch], chainIds := s1.chainIds + 1 }
          let s3 := s2.modJob c.job.id fun j =>
            { j with updateArmed := j.updateArmed || x.es.any fun e => e.etype == 4 }
          .ok (s3.setQueue { c.q with armed := c.q.armed ++ [ch.id], cur := BitVec.ofNat 32 c.slot }) 0 0

end Trig

end Sys2Proof.Machine
end

