-- ==== Sys2Proof/Machine/Carry.lean ====
section
/-! DEFINITION. Carry formats and link adders (R365 to R368), the bytes of a range of a tensor as a message (R375, R377 to
R379), and a bucket in hand. -/

namespace Sys2Proof.Machine

/-! ### Carry formats (R365 to R368) -/

namespace Carry

/-- The floating-point format of a float carry. -/
def fmt? (c : Nat) : Option Fmt :=
  match c with
  | 0 => some .fp32
  | 1 => some .fp64
  | _ => none

/-- W of a fixed-window carry. -/
def width (c : Nat) : Nat := if c = 3 then 128 else 64

def ceilLog2 (n : Nat) : Nat := if n ≤ 1 then 0 else Nat.log2 (n - 1) + 1

/-- The exponent of q = 2 ^ (T − W + 2) (R367). -/
def qExp (e : Option Int) (mDecl c : Nat) : Int := e.getD 0 + ceilLog2 mDecl + 1 - width c + 2

/-- A marker: top bits 0b10, NAN in bit 0, POS in bit 1, NEG in bit 2 (R368). -/
def marker (c flags : Nat) : Nat := 2 ^ (width c - 1) + flags

def isMarker (c v : Nat) : Bool := bitsAt v (width c - 2) 2 == 2

def flags (c v : Nat) : Nat := if isMarker c v then v % 8 else 0

/-- Entry of one element: the raw carry value, and whether a finite nonzero element entered as zero. -/
def enter (c : Nat) (q : Int) (rnd : Rounding) (r : Nat) (x : Elem) : Nat × Bool :=
  match fmt? c with
  | some f =>
    let (raw, o) := convertElem false f rnd.mode rnd.sat r x
    (raw, o == .vanished)
  | none =>
    match x.val with
    | .nan => (marker c 1, false)
    | .inf s => (marker c (if s then 4 else 2), false)
    | .fin s m e =>
      let n := roundInt rnd.mode r s m (e - q)
      (unsignedOf (width c) n, n == 0 && (x.flushed || m != 0))

/-- The link adder: the sum, and whether R46 flushed it (R366, R367). -/
def add (c a b : Nat) : Nat × Bool :=
  match fmt? c with
  | some f =>
    match f.spec with
    | some fs =>
      let (y, _, fl) := fs.round false .rne false 0 (Num.add (readElem f a).val (readElem f b).val)
      (fs.encode y, fl)
    | none => (a, false)
  | none =>
    if isMarker c a || isMarker c b then (marker c (flags c a ||| flags c b), false)
    else (unsignedOf (width c) (signedOf (width c) a + signedOf (width c) b), false)

/-- The value of a sum as it leaves the carry. -/
def leave (c : Nat) (q : Int) (v : Nat) : Num :=
  match fmt? c with
  | some f => (readElem f v).val
  | none =>
    if isMarker c v then
      let fl := flags c v
      if bitAt fl 0 || (bitAt fl 1 && bitAt fl 2) then .nan else .inf (!bitAt fl 1)
    else
      let n := signedOf (width c) v
      .fin (decide (n < 0)) n.natAbs q

/-- Elements in a packet of 4,096 bytes. -/
def perPacket (c : Nat) : Nat := 4096 / Chain.carryBytes c

end Carry

namespace ChainEntry

/-- The carry of a reduction, whether it clears, its source and its destination. -/
def reduce? : ChainEntry → Option (Nat × Bool × Nat × Nat)
  | .reduceScatter c z a b => some (c, z, a, b)
  | .allReduce c z a b => some (c, z, a, b)
  | _ => none

/-- The destination that an entry gathers into. -/
def gather? : ChainEntry → Option Nat
  | .allGather _ b => some b
  | .allReduce _ _ _ b => some b
  | _ => none

def isUpdate : ChainEntry → Bool
  | .update _ _ _ => true
  | _ => false

end ChainEntry

/-! ### The bytes of a range (R375) -/

/-- The bytes of some elements of a tensor: their bits in order, filled to a byte, then the headers of the blocks that
start there. -/
def viewLen (v : View) (warm : Bool) : Nat :=
  let d := v.1
  let heads := if d.blockEn then (v.2.filter fun ix => ix.getD d.contig 0 % d.blockSize == 0).length else 0
  ceilDiv (v.2.length * (d.fmtIn warm).bits) 8 + 2 * heads

/-- The elements at which a block starts. -/
def viewHeads (v : View) : List (List Nat) :=
  if v.1.blockEn then v.2.filter fun ix => ix.getD v.1.contig 0 % v.1.blockSize == 0 else []

def viewBytes (s : State) (v : View) (warm : Bool) : List Byte :=
  let d := v.1
  let f := d.fmtIn warm
  let bits := v.2.foldr (fun ix acc => s.rawAt d f ix + acc <<< f.bits) 0
  toLe (ceilDiv (v.2.length * f.bits) 8) bits ++ (viewHeads v).flatMap fun ix => s.bytes (d.headerAddr ix) 2

/-- Write such bytes into the same elements of a tensor, unchanged and uncounted. -/
def Work.putView (warm : Bool) (v : View) (bs : List Byte) (w : Work) : Work :=
  let d := v.1
  let f := d.fmtIn warm
  let body := ceilDiv (v.2.length * f.bits) 8
  let n := leNat (bs.take body)
  let w1 := (v.2.zipIdx).foldl (fun (w : Work) x => w.putBits (d.bitAddr f x.1) f.bits (bitsAt n (x.2 * f.bits) f.bits)) w
  ((viewHeads v).zipIdx).foldl (fun (w : Work) x =>
    w.put (d.headerAddr x.1) ((bs.drop (body + 2 * x.2)).take 2)) w1

/-! ### A bucket in hand -/

/-- A bucket with its chain, group and job. -/
structure Spot where
  ch : Chain
  g : Group
  j : Job
  b : Nat
  x : Bucket

namespace Spot

/-- Length and units of the bucket in its entry, and the index of its first element (R351). -/
def blen (p : Spot) : Nat := (p.ch.ranges.getD p.x.entry (0, 0)).2
def u (p : Spot) : Nat := p.blen / 1024
def base (p : Spot) : Nat := (p.ch.ranges.getD p.x.entry (0, 0)).1 + p.b * p.blen

/-- The bucket as it would stand in another entry of its chain. -/
def at_ (p : Spot) (i : Nat) : Spot := { p with x := { p.x with entry := i } }

def entry? (p : Spot) : Option ChainEntry := p.ch.entries[p.x.entry]?

def warm (p : Spot) : Bool := decide (0 < p.j.lap)

/-- The elements of a tensor in the units [r.1, r.2) of the bucket. -/
def view (p : Spot) (s : State) (h : Nat) (r : Nat × Nat) : View :=
  let d := s.descAt p.j h
  (d, d.elemsIn (p.base + 1024 * r.1) (p.base + 1024 * r.2))

/-- Every element of a tensor. -/
def whole (p : Spot) (s : State) (h : Nat) : View :=
  let d := s.descAt p.j h
  (d, d.elemsIn 0 (1024 * d.units))

/-- The pieces of the bucket that this device owns. -/
def pieces (p : Spot) : List (Nat × Nat) := p.g.pieces p.u

/-- The value of an element that this device holds before a level. -/
def valueAt (p : Spot) (l e : Nat) : Nat :=
  (((List.range l).reverse.findSome? fun t =>
    (p.x.held.find? fun h => h.1 == t + 1 && h.2.1 == e).map fun h => h.2.2)).getD (p.x.entered.getD e 0)

end Spot

namespace State

def spot? (s : State) (cid b : Nat) : Option Spot :=
  match s.chain? cid with
  | none => none
  | some ch =>
    match s.group? ch.group, s.job? ch.job, ch.buckets[b]? with
    | some g, some j, some x => some { ch := ch, g := g, j := j, b := b, x := x }
    | _, _, _ => none

/-- A detected fault of a chain that met a poisoned line (R272). -/
def chainPoison (s : State) (p : Spot) (l : Nat) : State :=
  s.detect false
    { mech := Mech.poisonRead.code, cls := 3, index := stackOf l, job := some p.j.id, addr := l, group := p.g.id
      rank := none }

/-- The place of byte `off` of the staging slot of a bucket (R354). -/
def slotByte (p : Spot) (off : Nat) : Nat := p.ch.staging + p.b % 256 * p.ch.sstride + off

/-- Write into the staging area that the chain reserved (R324); a poisoned line that is written in part ends the chain (R272). -/
def stageBytes (s : State) (p : Spot) (off : Nat) (bs : List Byte) : State :=
  let a := slotByte p off
  if bs.isEmpty then s
  else
    match s.poisonMet [] [(8 * a, 8 * bs.length)] with
    | some l => s.chainPoison p l
    | none => s.store a bs

/-- This device is ready for the messages of a stage, whose wait begins (R384). -/
def noteStart (s : State) (p : Spot) (code : Nat) : State :=
  s.modBucket p.ch.id p.b fun x => { x with started := x.started ++ [(code, s.now)] }

end State

end Sys2Proof.Machine
end

