-- ==== Sys2Proof/Machine/Collect.lean ====
section
/-! DEFINITION. The Relay engine at work on armed chains: reductions (R362, R365 to R368), gathers (R375, R376), broadcast
(R377), halo exchange (R378), all-to-all (R379), updates, the verdict (R372, R373) and the completion of a chain (R359). -/

namespace Sys2Proof.Machine

namespace State

/-! ### Entry done -/

/-- The bucket's entry is complete on this device (R358). -/
def entryDone (s : State) (cid b : Nat) : State :=
  s.modChain cid fun c => { c with buckets := c.buckets.modify b fun x =>
    { x with
      entry := x.entry + 1
      stage := if c.entries.length ≤ x.entry + 1 then .done else .waiting
      agree := {}, entered := [], held := [], got := [], blocks := [], inbox := [], step := 0, started := [] } }

/-! ### Messages of PUT packets (R327) -/

/-- Send a message: PUT packets of 4,096 bytes in ascending order. -/
def sendMessage (s : State) (p : Spot) (port stage : Nat) (contrib : W64) (bs : List Byte) : State :=
  (List.range (ceilDiv bs.length 4096)).foldl (fun s i =>
    s.send port (s.mkPacket port .put p.j.id p.g.id p.x.seq (128 * i) 0 stage contrib ((bs.drop (4096 * i)).take 4096))) s

end State

/-- The 32-byte units of a message. -/
def unitsOfBytes (n : Nat) : Nat := ceilDiv n 32

namespace Bucket

/-- Units of the message under a code that have come. -/
def heard (x : Bucket) (code : Nat) : Nat :=
  ((x.inbox.filter fun m => m.1 == code).map fun m => m.2.2.length / 32).sum

/-- The message under a code, put together. -/
def message (x : Bucket) (code : Nat) : List Byte :=
  let ms := x.inbox.filter fun m => m.1 == code
  (ms.mergeSort fun a b => decide (a.2.1 ≤ b.2.1)).flatMap fun m => m.2.2

end Bucket

/-- The code of a message in a bucket's inbox: stage, port, origin. -/
def putCode (stage port origin : Nat) : Nat := stage + 16 * port + 256 * origin

/-! ### Reduction (R362) -/

namespace Spot

/-- The positions of a level's ring. -/
def ringSize (p : Spot) (k l : Nat) : Nat := p.g.extOf (p.g.dimAt k l)

/-- Elements of a range of units. -/
def span (r : Nat × Nat) : Nat × Nat := (1024 * r.1, 1024 * r.2)

/-- Whether this device's part of a strand's level is summed. -/
def levelDone (p : Spot) (k l : Nat) : Bool :=
  if p.ringSize k l ≤ 1 then true
  else
    let d := p.g.dimAt k l
    let (lo, hi) := span (p.g.partOf p.u k l (p.g.pos d))
    match p.g.portFrom d (p.g.plusOf k) with
    | some port =>
      let mine := p.x.got.filter fun m => m.1 == l + 1 + 16 * port && decide (lo ≤ m.2.1) && decide (m.2.1 < hi)
      (mine.map fun m => m.2.2).sum == hi - lo
    | none => false

def reduceDone (p : Spot) : Bool :=
  (List.range p.g.strands).all fun k => (List.range p.g.levels).all fun l => p.levelDone k l

end Spot

namespace State

/-- Send partials of a range of elements on a port. -/
def sendPartials (s : State) (p : Spot) (carry stage port : Nat) (mask : W64) (e0 n : Nat) (val : Nat → Nat) : State :=
  let per := Carry.perPacket carry
  (List.range (ceilDiv n per)).foldl (fun s i =>
    let a := e0 + i * per
    s.send port (s.mkPacket port .reduce p.j.id p.g.id p.x.seq a carry stage mask
      ((List.range' a (min per (e0 + n - a))).flatMap fun e => toLe (Chain.carryBytes carry) (val e)))) s

/-- Begin a level of a strand: this device is the first position in the order of the part of the position behind it. -/
def startLevel (s : State) (p : Spot) (carry k l : Nat) : State :=
  let d := p.g.dimAt k l
  let n := p.g.extOf d
  let plus := p.g.plusOf k
  if n ≤ 1 then s
  else
    match p.g.portTo d plus with
    | some port =>
      let j := Group.stepFrom n (p.g.pos d) 1 (!plus)
      let (lo, hi) := Spot.span (p.g.partOf p.u k l j)
      (s.noteStart p (l + 1 + 16 * k)).sendPartials p carry (l + 1) port (Group.maskOf n j 1 plus) lo (hi - lo) (p.valueAt l)
    | none => s

/-- Begin the levels of a strand from `l` on, as far as parts without elements let it. -/
def runLevels (p : Spot) (carry k : Nat) : Nat → Nat → State → State
  | 0, _, s => s
  | f + 1, l, s =>
    let s1 := s.startLevel p carry k l
    if p.levelDone k l then runLevels p carry k f (l + 1) s1 else s1

/-- Write +0 over elements of a tensor: no conversion, no counts (R356, R373). -/
def zeroElems (s : State) (j : Job) (v : View) : State :=
  let f := v.1.fmtIn (decide (0 < j.lap))
  (v.2.foldl (fun (w : Work) ix => w.putBits (v.1.bitAddr f ix) f.bits 0) (Work.start s j)).close j.id

/-- The largest exponent of this device's contribution (R367). -/
def localExp (s : State) (p : Spot) (src : Nat) : Option Int :=
  let v := p.view s src (0, p.u)
  let f := v.1.fmtIn p.warm
  Dissem.combMax (v.2.map fun ix =>
    let x := (s.elemAt v.1 f ix).val
    if x.isFinite && !x.isZero then some x.topExp else none)

/-- Enter one index of the bucket into the carry: raw value, vanished, non-finite, whether an element stands there.
DEDUCED, log 53. -/
def enterAt (s : State) (p : Spot) (carry : Nat) (q : Int) (d : Desc) (k : Nat) : Nat × Bool × Bool × Bool :=
  match d.elemOf k with
  | some ix =>
    let e := s.elemAt d (d.fmtIn p.warm) ix
    let rnd := loadRounding d .rne false
    let r := if rnd.mode = .sr then convDraw p.j.seed p.j.step d ix else 0
    let (raw, van) := Carry.enter carry q rnd r e
    (raw, van, !e.val.isFinite, true)
  | none => (0, false, false, false)

/-- The sums of this device's pieces leave the carry into dst, rounded as the reduction's src and dst select (R51), counted as
stores (R84, R365). DEDUCED, log 53. -/
def deliverSums (s : State) (p : Spot) (carry src dst : Nat) : State :=
  let d := s.descAt p.j dst
  let q := Carry.qExp p.x.emax p.g.mDecl carry
  let rnd := storeRounding (some (s.descAt p.j src)) d .rne false
  let f := d.fmtIn p.warm
  let idx : List (Nat × List Nat) := p.pieces.flatMap fun r =>
    (List.range' (1024 * r.1) (1024 * (r.2 - r.1))).filterMap fun e => (d.elemOf (p.base + e)).map fun ix => (e, ix)
  let v : View := (d, idx.map Prod.snd)
  match s.viewPoison p.warm [] [v] with
  | some l => s.chainPoison p l
  | none =>
    let vals := idx.map fun (e, ix) => (ix, Carry.leave carry q (p.valueAt p.g.levels e))
    let w := vals.foldl (fun (w : Work) (x : List Nat × Num) =>
      match Carry.fmt? carry with
      | some cf => w.putElem (Env.of p.j) d rnd { idx := x.1, elem := { val := x.2 }, from_ := cf }
      | none =>
        let r := if rnd.mode = .sr then convDraw p.j.seed p.j.step d x.1 else 0
        let (raw, o) := convertElem false f rnd.mode rnd.sat r { val := x.2 }
        let w1 := w.putBits (d.bitAddr f x.1) f.bits raw
        let wt := if d.watched then w1.watch.touch (Work.key d f) true o x.2 false else w1.watch
        { w1 with watch := wt.sumStore f o x.2 false }) (Work.start s p.j)
    ((w.close p.j.id).viewUnpoison p.warm [v]).modBucket p.ch.id p.b fun x =>
      { x with
        owned := x.owned + vals.length
        ownedNonfinite := x.ownedNonfinite + (vals.filter fun y => !y.2.isFinite).length }

/-! ### Gather (R375) -/

/-- Send this device's range of a strand at a gather level to its successor. -/
def startGatherLevel (s : State) (p : Spot) (dst k l : Nat) : State :=
  let d := p.g.dimAt k l
  if p.g.extOf d ≤ 1 then s
  else
    match p.g.portTo d (p.g.plusOf k) with
    | some port =>
      (s.noteStart p (5 + l + 16 * k)).sendMessage p port (5 + l) (1 <<< p.g.pos d) (viewBytes s (p.view s dst (p.g.held p.u k (l + 1))) p.warm)
    | none => s

end State

namespace Spot

/-- Whether every other position's range has come at a gather level. -/
def gatherLevelDone (p : Spot) (s : State) (dst k l : Nat) : Bool :=
  let d := p.g.dimAt k l
  let n := p.g.extOf d
  if n ≤ 1 then true
  else
    match p.g.portFrom d (p.g.plusOf k) with
    | some port => (List.range n).all fun o => o == p.g.pos d ||
        p.x.heard (putCode (5 + l) port o) == unitsOfBytes (viewLen (p.view s dst (p.g.partOf p.u k l o)) p.warm)
    | none => false

def gatherDone (p : Spot) (s : State) (dst : Nat) : Bool :=
  (List.range p.g.strands).all fun k => (List.range p.g.levels).all fun l => p.gatherLevelDone s dst k l

end Spot

namespace State

/-- Begin the gather levels of a strand, from the highest of `f` levels down. -/
def runGather (p : Spot) (dst k : Nat) : Nat → State → State
  | 0, s => s
  | l + 1, s =>
    let s1 := s.startGatherLevel p dst k l
    if p.gatherLevelDone s1 dst k l then runGather p dst k l s1 else s1

/-- Begin the gather of a bucket whose own pieces stand in dst. -/
def startGather (s : State) (cid b dst : Nat) : State :=
  let s1 := s.modBucket cid b fun x => { x with stage := .gather }
  match s1.spot? cid b with
  | some p =>
    let s2 := (List.range p.g.strands).foldl (fun s k => runGather p dst k p.g.levels s) (s1.viewRecall p.warm [p.view s1 dst (0, p.u)])
    if p.gatherDone s2 dst then s2.entryDone cid b else s2
  | none => s1

/-- The owner's conversion, or move, of its pieces from src into dst (R375). -/
def convertPieces (s : State) (p : Spot) (src dst : Nat) : State :=
  if src = dst then s
  else
    let a := s.descAt p.j src
    let d := s.descAt p.j dst
    let pairs : List (List Nat × List Nat) := p.pieces.flatMap fun r =>
      (List.range' (p.base + 1024 * r.1) (1024 * (r.2 - r.1))).filterMap fun k =>
        match a.elemOf k, d.elemOf k with
        | some x, some y => some (x, y)
        | _, _ => none
    let va : View := (a, pairs.map Prod.fst)
    let vd : View := (d, pairs.map Prod.snd)
    match s.viewPoison p.warm [va] [vd] with
    | some l => s.chainPoison p l
    | none =>
      let env := Env.of p.j
      let w := Work.start (s.viewRecall p.warm [va]) p.j
      let w1 :=
        if bitMove p.warm a d then pairs.foldl (fun w x => Work.moveElem env a d w x.1 x.2) w
        else
          let f := a.fmtIn p.warm
          w.putItems env d (storeRounding (some a) d .rne false)
            (pairs.map fun x => { idx := x.2, elem := s.elemAt a f x.1, from_ := f })
      (w1.close p.j.id).viewUnpoison p.warm [vd]

/-- A reduction whose parts are all summed: the sums leave the carry, and an ALL_REDUCE gathers (R376). -/
def finishReduce (s : State) (cid b : Nat) : State :=
  match s.spot? cid b with
  | some p =>
    match p.entry? with
    | some e =>
      match e.reduce? with
      | some (carry, _, src, dst) =>
        let s1 := s.deliverSums p carry src dst
        if (s1.chain? cid).isNone then s1
        else if e.gather?.isSome then s1.startGather cid b dst
        else s1.entryDone cid b
      | none => s
    | none => s
  | none => s

/-- Enter this device's contribution and begin the levels of every strand (R356, R365, R367). -/
def startReduce (s : State) (cid b : Nat) : State :=
  match s.spot? cid b with
  | some p =>
    match p.entry?.bind ChainEntry.reduce? with
    | some (carry, clear, src, _) =>
      let v := p.view s src (0, p.u)
      match s.viewPoison p.warm [v] (if clear then [v] else []) with
      | some l => s.chainPoison p l
      | none =>
        let q := Carry.qExp p.x.emax p.g.mDecl carry
        let rows := (List.range p.blen).map fun e => s.enterAt p carry q v.1 (p.base + e)
        let s1 := s.viewRecall p.warm [v]
        let s2 := if clear then (s1.zeroElems p.j v).viewUnpoison p.warm [v] else s1
        let s3 := s2.modBucket cid b fun x =>
          { x with
            stage := .reduce
            entered := rows.map fun r => r.1
            contrib := x.contrib + (rows.filter fun r => r.2.2.2).length
            contribNonfinite := x.contribNonfinite + (rows.filter fun r => r.2.2.1).length
            contribVanished := x.contribVanished + (rows.filter fun r => r.2.1).length }
        match s3.spot? cid b with
        | some p1 =>
          let s4 := (List.range p1.g.strands).foldl (fun s k => runLevels p1 carry k p1.g.levels 0 s) s3
          if p1.reduceDone then s4.finishReduce cid b else s4
        | none => s3
    | none => s
  | none => s

/-- A bucket's AGREE pass has ended: E is known and the reduction begins. -/
def agreeEnded (s : State) (cid b : Nat) : State :=
  match s.spot? cid b with
  | some p =>
    if p.x.stage = .agree ∧ p.x.agree.complete then
      (s.modBucket cid b fun x => { x with emax := x.agree.value }).startReduce cid b
    else s
  | none => s

/-- Begin the AGREE pass of a fixed-window reduction. -/
def startAgree (s : State) (p : Spot) (src : Nat) : State :=
  match s.viewPoison p.warm [p.view s src (0, p.u)] [] with
  | some l => s.chainPoison p l
  | none =>
    let (d, msgs) := Dissem.start p.g.extOf Dissem.combMax p.x.agree (s.localExp p src)
    let s1 := (s.modBucket p.ch.id p.b fun x => { x with stage := .agree, agree := d }).noteStart p 0
    (s1.sendPass p.g p.x.seq 0 msgs).agreeEnded p.ch.id p.b

/-! ### Broadcast (R377) -/

end State

namespace Spot

/-- The dimension along which a broadcast from a rank reaches this device: the highest in which they differ. -/
def bcastDim (p : Spot) (root : Nat) : Option Nat :=
  [2, 1, 0].find? fun d => p.g.coordOf root d != p.g.pos d

/-- The dimensions along which this device sends a broadcast on as the first of its ring. DESIGN CHOICE, log 55. -/
def bcastOut (p : Spot) (root : Nat) : List Nat :=
  match p.bcastDim root with
  | some d => (List.range 3).filter fun i => decide (d < i)
  | none => List.range 3

end Spot

namespace State

/-- Send the bytes of a broadcast on along the dimensions that this device serves. DESIGN CHOICE, log 55. -/
def bcastSend (s : State) (p : Spot) (root dst : Nat) : State :=
  let bs := viewBytes s (p.view s dst (0, p.u)) p.warm
  (p.bcastOut root).foldl (fun s d =>
    match p.g.portTo d true with
    | some port => s.sendMessage p port 9 (1 <<< p.g.coordOf root d) bs
    | none => s) s

def startBcast (s : State) (p : Spot) (src dst root : Nat) : State :=
  let s1 := (s.modBucket p.ch.id p.b fun x => { x with stage := .move }).noteStart p 9
  if p.g.rank ≠ root then s1
  else
    let va := p.view s src (0, p.u)
    let vd := p.view s dst (0, p.u)
    match s.viewPoison p.warm [va] (if src = dst then [] else [vd]) with
    | some l => s1.chainPoison p l
    | none =>
      let s2 := s1.viewRecall p.warm [va]
      let s3 := if src = dst then s2
        else ((Work.putView p.warm vd (viewBytes s2 va p.warm) (Work.start s2 p.j)).close p.j.id).viewUnpoison p.warm [vd]
      (s3.bcastSend p root dst).entryDone p.ch.id p.b

/-! ### Halo exchange (R378) -/

/-- Whether every receive view has its message. DEDUCED, log 51. -/
def haloDone (s : State) (p : Spot) (recv : List Nat) : Bool :=
  (List.range 6).all fun port =>
    let h := recv.getD port noHandle
    h == noHandle || p.x.heard (putCode 8 port 0) == unitsOfBytes (viewLen (p.whole s h) p.warm)

/-- DEDUCED, log 51. -/
def startHalo (s : State) (p : Spot) (send recv : List Nat) : State :=
  let s1 := (s.modBucket p.ch.id p.b fun x => { x with stage := .move }).noteStart p 8
  let outs := ((List.range 6).filter fun port => send.getD port noHandle != noHandle).map fun port =>
    (port, p.whole s (send.getD port noHandle))
  match s.viewPoison p.warm (outs.map Prod.snd) [] with
  | some l => s1.chainPoison p l
  | none =>
    let s2 := s1.viewRecall p.warm (outs.map Prod.snd)
    let s3 := outs.foldl (fun s (o : Nat × View) => s.sendMessage p o.1 8 0 (viewBytes s o.2 p.warm)) s2
    if s3.haloDone p recv then s3.entryDone p.ch.id p.b else s3

end State

/-! ### All-to-all (R379) -/

namespace Spot

/-- The elements of block j of a tensor: its outermost index is j. -/
def block (p : Spot) (s : State) (h j : Nat) : View :=
  let d := s.descAt p.j h
  (d, (d.elemsIn 0 (1024 * d.units)).filter fun ix => ix.getD (d.rank - 1) 0 == j)

def blockLen (p : Spot) (s : State) (h : Nat) : Nat := viewLen (p.block s h 0) p.warm

/-- Distance and direction from position a to b of n, the shorter way; a tie goes in direction +. -/
def way (n a b : Nat) : Nat × Bool :=
  let f := (b + n - a) % n
  if f ≤ n / 2 then (f, true) else (n - f, false)

/-- The blocks that the member at position i of this device's ring of dimension l holds as level l begins: sources that
agree with it in the dimensions from l on, destinations that agree with it below l. -/
def a2aHeld (p : Spot) (l i : Nat) : List (Nat × Nat) :=
  let at_ (d : Nat) : Nat := if d = l then i else p.g.pos d
  let all := List.range p.g.m
  (all.filter fun r => (List.range 3).all fun d => decide (d < l) || p.g.coordOf r d == at_ d).flatMap fun a =>
    (all.filter fun r => (List.range 3).all fun d => decide (l ≤ d) || p.g.coordOf r d == at_ d).map fun b => (a, b)

/-- The blocks of the message that carries, at ring step `step`, what position i sent out in a direction: those still to
travel, by distance, then source, then destination. DESIGN CHOICE, log 55. -/
def a2aMessage (p : Spot) (l i step : Nat) (plus : Bool) : List (Nat × Nat) :=
  let n := p.g.extOf l
  let dist (x : Nat × Nat) : Nat × Bool := way n i (p.g.coordOf x.2 l)
  ((p.a2aHeld l i).filter fun x => (dist x).2 == plus && decide (step ≤ (dist x).1)).mergeSort fun x y =>
    decide ((dist x).1 < (dist y).1) || ((dist x).1 == (dist y).1 && (decide (x.1 < y.1) || (x.1 == y.1 && decide (x.2 ≤ y.2))))

/-- The position whose blocks come from a direction at a step. -/
def a2aOrigin (p : Spot) (l step : Nat) (plus : Bool) : Nat := Group.stepFrom (p.g.extOf l) (p.g.pos l) step (!plus)

/-- The code of the message that comes at a step from a direction. -/
def a2aCode (p : Spot) (l step : Nat) (plus : Bool) : Option Nat :=
  (p.g.portFrom l plus).map fun port => putCode (10 + l) port (p.a2aOrigin l step plus)

/-- Units expected at a step from a direction. -/
def a2aUnits (p : Spot) (s : State) (src l step : Nat) (plus : Bool) : Nat :=
  unitsOfBytes ((p.a2aMessage l (p.a2aOrigin l step plus) step plus).length * p.blockLen s src)

/-- Levels and steps are numbered together: 64 · level + step. -/
def a2aSteps (p : Spot) (l : Nat) : Nat := if p.g.extOf l ≤ 1 then 0 else p.g.extOf l / 2

end Spot

namespace State

/-- Send the two messages of a step: what position pos ∓ (step − 1) sent out at the first. -/
def a2aSend (s : State) (p : Spot) (l step : Nat) : State :=
  [true, false].foldl (fun s plus =>
    match p.g.portTo l plus with
    | some port =>
      let o := Group.stepFrom (p.g.extOf l) (p.g.pos l) (step - 1) (!plus)
      let bs := (p.a2aMessage l o step plus).flatMap fun x =>
        ((p.x.blocks.find? fun y => y.1 == x.1 && y.2.1 == x.2).map fun y => y.2.2).getD []
      s.sendMessage p port (10 + l) (1 <<< o) bs
    | none => s) s

/-- Take the blocks of a whole message: those that go on are kept in the half of the staging slot that the parity of the step names,
from its middle those of direction −. DESIGN CHOICE, log 55. -/
def a2aTake (s : State) (p : Spot) (src l step : Nat) (plus : Bool) : State :=
  match p.a2aCode l step plus with
  | some code =>
    let bs := p.x.message code
    let n := p.blockLen s src
    let xs := p.a2aMessage l (p.a2aOrigin l step plus) step plus
    let new := (xs.zipIdx).map fun x => (x.1.1, x.1.2, (bs.drop (n * x.2)).take n)
    let s1 := s.modBucket p.ch.id p.b fun x => { x with blocks := x.blocks.filter (fun y => xs.all fun z => z.1 != y.1 || z.2 != y.2.1) ++ new }
    let half := p.g.m * n
    s1.stageBytes p (step % 2 * half + (if plus then 0 else p.g.m / 2 * n))
      ((new.filter fun y => y.2.1 != p.g.rank).flatMap fun y => y.2.2)
  | none => s

/-- The blocks for this device go into dst. -/
def a2aFinish (s : State) (p : Spot) (dst : Nat) : State :=
  let mine := p.x.blocks.filter fun y => y.2.1 == p.g.rank
  let vs := mine.map fun y => (p.block s dst y.1, y.2.2)
  match s.viewPoison p.warm [] (vs.map Prod.fst) with
  | some l => s.chainPoison p l
  | none =>
    let w := vs.foldl (fun (w : Work) (x : View × List Byte) => Work.putView p.warm x.1 x.2 w) (Work.start s p.j)
    ((w.close p.j.id).viewUnpoison p.warm (vs.map Prod.fst)).entryDone p.ch.id p.b

/-- Go on with an ALL_TO_ALL as far as the messages that came allow. The bucket's step is 64 · level + ring step; a step
is begun when its messages have been sent. DESIGN CHOICE, log 55. -/
def a2aRun (src dst : Nat) : Nat → Nat → Nat → State → State
  | 0, _, _, s => s
  | f + 1, cid, b, s =>
    match s.spot? cid b with
    | none => s
    | some p =>
      let l := p.x.step / 64
      let step := p.x.step % 64
      if 3 ≤ l then s.a2aFinish p dst
      else if p.a2aSteps l ≤ step ∧ step = 0 then
        a2aRun src dst f cid b (s.modBucket cid b fun x => { x with step := 64 * (l + 1) })
      else if step = 0 then
        a2aRun src dst f cid b (((s.modBucket cid b fun x => { x with step := 64 * l + 1 }).noteStart p (10 + l)).a2aSend p l 1)
      else
        let come := [true, false].all fun plus =>
          match p.a2aCode l step plus with
          | some code => p.x.heard code == p.a2aUnits s src l step plus
          | none => true
        if !come then s
        else
          let s1 := [true, false].foldl (fun s plus => s.a2aTake p src l step plus) s
          if p.a2aSteps l ≤ step then a2aRun src dst f cid b (s1.modBucket cid b fun x => { x with step := 64 * (l + 1) })
          else
            let s2 := s1.modBucket cid b fun x => { x with step := 64 * l + step + 1 }
            match s2.spot? cid b with
            | some p1 => a2aRun src dst f cid b (s2.a2aSend p1 l (step + 1))
            | none => s2

/-- Steps enough for three levels of at most 32 ring steps. -/
def a2aFuel : Nat := 256

def startA2a (s : State) (p : Spot) (src dst : Nat) : State :=
  let vs := (List.range p.g.m).map fun j => (j, p.block s src j)
  match s.viewPoison p.warm (vs.map Prod.snd) [] with
  | some l => s.chainPoison p l
  | none =>
    let s1 := (s.viewRecall p.warm (vs.map Prod.snd)).modBucket p.ch.id p.b fun x =>
      { x with stage := .move, blocks := vs.map fun v => (p.g.rank, v.1, viewBytes s v.2 p.warm) }
    a2aRun src dst a2aFuel p.ch.id p.b s1

/-! ### The start of an entry (R358) -/

/-- Whether every piece's units have been updated. -/
def updateDone (p : Spot) : Bool :=
  p.pieces.all fun r =>
    (List.range' ((p.base / 1024) + r.1) (r.2 - r.1)).all fun u =>
      p.x.got.any fun g => g.1 == unitsDone && decide (g.2.1 ≤ u) && decide (u < g.2.2)

/-- Buckets that hold a link-adder context on a port. DEDUCED, log 57. -/
def contextsOn (s : State) (port : Nat) : Nat :=
  (s.chains.map fun c =>
    match s.group? c.group with
    | some g =>
      if (groupPorts g).contains port then
        (c.buckets.filter fun x => x.stage == .agree || x.stage == .reduce).length
      else 0
    | none => 0).sum

/-- Whether a bucket stands before a reduction: it waits for contexts (R358). -/
def wantsContext (c : Chain) (x : Bucket) : Bool :=
  x.stage == .waiting && ((c.entries[x.entry]?).bind ChainEntry.reduce?).isSome

/-- Whether a bucket may start its next entry: it waits, the buckets before it have entered their first, an UPDATE has
its verdict, and a reduction finds a context on every port, in ascending sequence number over the group's chains (R358).
DEDUCED, log 57. -/
def mayStart (s : State) (p : Spot) : Bool :=
  p.x.stage == .waiting && (s.runsJob p.j) &&
    (decide (0 < p.x.entry) || (p.ch.buckets.take p.b).all fun x => decide (0 < x.entry) || x.stage != .waiting) &&
    match p.entry? with
    | some e =>
      (!e.isUpdate || p.ch.total.isSome) &&
        (e.reduce?.isNone ||
          ((p.ch.buckets.take p.b).all (fun x => decide (p.x.entry < x.entry) || x.stage != .waiting) &&
            (s.chains.all fun c => c.group != p.g.id || decide (p.ch.id ≤ c.id) || !(c.buckets.any (wantsContext c))) &&
            (groupPorts p.g).all fun port => decide (s.contextsOn port < 256)))
    | none => false

/-- CHAIN_ENTRY_START. DESIGN CHOICE, log 113. -/
def startEntry (s : State) (cid b : Nat) : State :=
  match s.spot? cid b with
  | none => s
  | some p =>
    if !s.mayStart p then s
    else
      match p.entry? with
      | some (.reduceScatter c _ src _) => if (Carry.fmt? c).isSome then s.startReduce cid b else s.startAgree p src
      | some (.allReduce c _ src _) => if (Carry.fmt? c).isSome then s.startReduce cid b else s.startAgree p src
      | some (.allGather src dst) =>
        let s1 := s.convertPieces p src dst
        if (s1.chain? cid).isNone then s1 else s1.startGather cid b dst
      | some (.update _ _ _) =>
        let s1 := s.modBucket cid b fun x => { x with stage := .update }
        if updateDone p then s1.entryDone cid b else s1
      | some (.halo send recv) => s.startHalo p send recv
      | some (.bcast src dst root) => s.startBcast p src dst root
      | some (.allToAll src dst) => s.startA2a p src dst
      | none => s

/-! ### Updates (R279, R285) -/

/-- The index of a chain's UPDATE. -/
def updateIndex (c : Chain) : Option Nat := c.entries.findIdx? ChainEntry.isUpdate

/-- The UPDATE entry of a chain: its program, and the handles of streams 0 to 5, of which stream 0 is the dst of the
REDUCE_SCATTER before it (R352). -/
def updateOf (c : Chain) : Option (ProgRef × List Nat × Nat) :=
  (List.range c.entries.length).findSome? fun k =>
    match c.entries[k]?, (if k = 0 then none else c.entries[k - 1]?) with
    | some (ChainEntry.update ref hs params), some (ChainEntry.reduceScatter _ _ _ dst) => some (ref, dst :: hs, params)
    | _, _ => none

/-- Whether an invocation is the one that a bucket's UPDATE issues for an owned piece (R350, R352). -/
def issues (p : Spot) (inv : Invocation) : Bool :=
  match updateOf p.ch with
  | some (ref, hs, params) =>
    inv.prog == ref && (inv.streams.map BitVec.toNat) == hs && inv.params == params && inv.job == p.j.id &&
      p.pieces.any fun r => decide (r.1 < r.2) && inv.u0 == p.base / 1024 + r.1 && inv.u1 == p.base / 1024 + r.2
  | none => false

/-- The bits that the update of a bucket reads, and those that it writes. -/
def updateSpans (s : State) (p : Spot) (st : Fin 8) : List Span × List Span :=
  match updateOf p.ch with
  | some (ref, hs, _) =>
    let pr := (Update.find s p.j st ref hs).1
    let of (i : Nat) : List Span :=
      match Update.tensor? s p.j (hs.getD i noHandle) with
      | some d => p.pieces.flatMap fun r => d.spans p.warm (d.elemsIn (p.base + 1024 * r.1) (p.base + 1024 * r.2))
      | none => []
    (((List.range 6).filter pr.reads).flatMap of, ((List.range 6).filter pr.writes).flatMap of)
  | none => ([], [])

/-- Whether an earlier bucket of the chain has still to finish an update whose footprint overlaps this bucket's, where one of the
two writes (R285, R358). -/
def waitsForEarlier (s : State) (p : Spot) (st : Fin 8) : Bool :=
  let (r, w) := s.updateSpans p st
  (List.range p.b).any fun i =>
    match s.spot? p.ch.id i with
    | some q =>
      decide (q.x.entry ≤ (updateIndex q.ch).getD 0) &&
        (let (r', w') := s.updateSpans q st
        (w.any fun x => (r' ++ w').any x.sharesByte) || (r.any fun x => w'.any x.sharesByte))
    | none => false

/-- An invocation of a chain runs only in the bucket's UPDATE entry, as that entry issues it, and after the overlapping ones of
earlier buckets; with the last piece the entry is done (R285, R352, R358). -/
def chainInvoke (s : State) (inv : Invocation) : State :=
  match inv.chain with
  | none => s.invoke inv
  | some (cid, b) =>
    match s.spot? cid b with
    | none => s
    | some p =>
      if p.x.stage ≠ .update || !issues p inv || s.waitsForEarlier p inv.stack then s
      else
        let s1 := s.invoke inv
        match s1.spot? cid b with
        | some p1 => if updateDone p1 then s1.entryDone cid b else s1
        | none => s1

/-! ### The verdict (R372, R373) -/

/-- Under ZERO, the non-finite elements of this device's pieces of a bucket become +0. -/
def zeroBucket (s : State) (cid b : Nat) : State :=
  match s.spot? cid b with
  | none => s
  | some p =>
    match (updateIndex p.ch).bind fun i => if i = 0 then none else p.ch.entries[i - 1]? with
    | some (.reduceScatter _ _ _ dst) =>
      let d := s.descAt p.j dst
      let f := d.fmtIn p.warm
      let bad := (p.pieces.flatMap fun r => (p.view s dst r).2).filter fun ix => !(s.elemAt d f ix).val.isFinite
      if bad.isEmpty then s
      else
        match s.viewPoison p.warm [(d, bad)] [] with
        | some l => s.chainPoison p l
        | none => (s.zeroElems p.j (d, bad)).modBucket cid b fun x => { x with zeroed := true }
    | _ => s

/-- The verdict total is formed: the step policy acts (R373). -/
def verdictEnded (s : State) (cid : Nat) : State :=
  match s.chain? cid with
  | none => s
  | some c =>
    if !c.verdict.complete || c.total.isSome then s
    else
      let n := (c.verdict.value.getD 0).toNat
      let s1 := s.modChain cid fun c => { c with total := some n }
      match s.job? c.job with
      | none => s1
      | some j =>
        if n = 0 then s1
        else if j.zeroPolicy then (List.range c.buckets.length).foldl (fun s b => s.zeroBucket cid b) s1
        else
          (s1.modChain cid fun c =>
            { c with
              skipped := true
              buckets := c.buckets.map fun x => { x with stage := .done, entry := c.entries.length } }).modJob c.job fun j =>
            { j with skipping := true }

/-- VERDICT_PASS: once REDUCE_SCATTER has completed for every bucket on this device. DEDUCED, log 52. -/
def verdictPass (s : State) (cid : Nat) : State :=
  match s.chain? cid with
  | none => s
  | some c =>
    match updateIndex c, s.group? c.group with
    | some i, some g =>
      if c.verdict.started || !(c.buckets.all fun x => decide (i ≤ x.entry)) then s
      else
        let own : Int := ((c.buckets.map fun x => x.ownedNonfinite).sum : Nat)
        let (d, msgs) := Dissem.start g.extOf Dissem.combSum c.verdict (some own)
        let s1 := s.modChain cid fun c =>
          { c with verdict := d, buckets := c.buckets.modify 0 fun x => { x with started := x.started ++ [(4, s.now)] } }
        (s1.sendPass g c.seq0 4 msgs).verdictEnded cid
    | _, _ => s

/-! ### Completion (R359) -/

/-- The status record of a bucket. DEDUCED, log 53. -/
def statusRecord (c : Chain) (g : Group) (j : Job) (x : Bucket) : List Byte :=
  let fixed := c.entries.any fun e => match e.reduce? with
    | some (k, _, _, _) => (Carry.fmt? k).isNone
    | none => false
  let flag (b : Bool) (n : Nat) : Nat := if b then n else 0
  toLe 4 x.seq ++ toLe 2 (if x.status = .ok then c.status else x.status).code ++ toLe 2 g.rank ++
    toLe 2 (match fixed, x.emax with
      | true, some e => unsignedOf 16 e
      | _, _ => 0x8000) ++
    toLe 2 (flag c.total.isSome 1 + flag c.skipped 2 + flag x.zeroed 4) ++ toLe 4 j.step ++
    toLe 8 x.contrib ++ toLe 8 x.contribNonfinite ++ toLe 8 x.contribVanished ++ toLe 8 x.owned ++ toLe 8 x.ownedNonfinite ++
    toLe 8 (c.total.getD 0)

/-- CHAIN_COMPLETE: every entry of every bucket is done and no comparison of its packets is left.
DEDUCED, log 56; DESIGN CHOICE, log 113. -/
def completeChain (s : State) (cid : Nat) : State :=
  match s.chain? cid with
  | none => s
  | some c =>
    match s.group? c.group, s.job? c.job with
    | some g, some j =>
      let judged := s.judges.all fun x => x.pending.all fun p =>
        !(p.packet.job.toNat == c.job && p.packet.group.toNat == c.group && c.buckets.any fun b => b.seq == p.packet.bucket.toNat)
      if !(s.runsJob j) || !(c.buckets.all fun x => x.stage == .done) || !judged then s
      else
        let recs := c.statusBase
        let len := 64 * c.buckets.length
        let bad := s.poisoned.find? fun l =>
          (c.word != 0 && decide (l < c.word + 8) && decide (c.word < l + 256)) ||
            (decide (l < recs + len) && decide (recs < l + 256) && !(decide (recs ≤ l) && decide (l + 256 ≤ recs + len)))
        match bad with
        | some l => s.detect false { mech := Mech.poisonRead.code, cls := 3, index := stackOf l, job := some j.id, addr := l }
        | none =>
          let s1 := s.storeAll (c.buckets.zipIdx.map fun x => (c.statusBase + 64 * x.2, statusRecord c g j x.1))
          let s2 := if c.word = 0 then s1 else Sync.addWord s1 c.word 1
          s2.endChains (fun x => x.id == cid) .ok
    | _, _ => s

end State

end Sys2Proof.Machine
end

