-- ==== Sys2Proof/Machine/Inbound.lean ====
section
/-! DEFINITION. Packets that a chain receives: the hop checks (R330, R331), early packets (R324), and the rows of the chain
engine: REDUCE, PUT, AGREE, ARRIVE, entry starts, verdict, completion, Judge comparisons and stalls. -/

namespace Sys2Proof.Machine

def PType.ofCode (c : Nat) : Option PType :=
  [PType.reduce, .put, .agree, .arrive, .ctrl, .topo, .starter, .beat, .shadow, .digest, .relay, .pairctl][c - 1]?

namespace State

/-! ### Check 1 (R328, R330) -/

/-- The mechanism of a packet that fails check 1 on a port. Coordinates are valid where both ends have one; on the pair port, which
records none, the valid bits alone are compared (R336). DEDUCED, log 59. -/
def hopOne (s : State) (p : Nat) (k : Packet) : Option Mech :=
  let x := s.port p
  let vc := if k.ptype = 0 then none else (PType.ofCode k.ptype.toNat).bind fun t => t.vcOn (p == 6)
  let own := s.topo.valid && x.partnerValid
  if Pkt.crc k ≠ k.pcrc then some .pcrc
  else if vc ≠ some k.vc.toNat then some .hopCheck
  else if p = 6 then (if k.dstValid || k.srcValid then some .hopCheck else none)
  else if k.dstValid == own && k.srcValid == x.partnerValid && (!own || k.dst == s.ownCoord) &&
      (!x.partnerValid || k.src == x.partner) then none
  else some .hopCheck

/-- Whether a packet's type names a group (R325, R329). -/
def inGroup (k : Packet) : Bool := decide (1 ≤ k.ptype.toNat) && decide (k.ptype.toNat ≤ 5)

/-- A packet that fails a hop check is discarded: the port counts it, and the fault concerns the job that has joined the
packet's group (R331). -/
def hopFail (s : State) (p : Nat) (k : Packet) (m : Mech) : State :=
  let job := match s.group? k.group.toNat with
    | some g => if g.job = k.job.toNat ∧ inGroup k then some g.job else none
    | none => none
  (s.modPort p fun x => { x with hopFail := x.hopFail + 1 }).detect false
    { mech := m.code, cls := 4, index := p, job := job, group := k.group.toNat
      serial := if (s.port p).partnerId = 0 then none else some (s.port p).partnerId }

end State

/-! ### What a chain expects (R330 checks 3 to 6) -/

/-- What becomes of a packet that has passed checks 1 and 2. DEDUCED, log 52. -/
inductive Turn where
  /-- It is the armed chain's and can be used now, for this bucket. -/
  | use (chain bucket : Nat)
  /-- It is early: for a chain not armed yet, or for work that this device has not reached. -/
  | later
  | bad
  deriving DecidableEq, Repr

/-- The ring dimension and direction that a port receives for. -/
def ringOfPort (g : Group) (p : Nat) : Option (Nat × Bool) :=
  ((List.range 3).flatMap fun d => [(d, true), (d, false)]).find? fun x => g.portFrom x.1 x.2 == some p

/-- Where a REDUCE packet belongs: strand, level, dimension, direction, the position that owns the part, and this device's
place in the order of that part. -/
structure Hop where
  k : Nat
  l : Nat
  d : Nat
  plus : Bool
  owner : Nat
  place : Nat
  deriving DecidableEq, Repr

/-- Elements that a payload of `len` units holds in a carry. -/
def carryCount (c : Nat) (k : Packet) : Nat := 32 * k.len.toNat / Chain.carryBytes c

/-- Checks 4 to 6 of a REDUCE packet against an entry, but for overlaps. -/
def reduceHop? (x : Spot) (p : Nat) (k : Packet) (carry : Nat) : Option Hop :=
  let l := k.stage.toNat - 1
  match ringOfPort x.g p with
  | none => none
  | some (d, plus) =>
    let st := x.g.strandAt l d plus
    let n := x.g.extOf d
    let lo := k.first.toNat
    let hi := lo + carryCount carry k
    let owner := (List.range n).find? fun j =>
      let r := Spot.span (x.g.partOf x.u st l j)
      decide (r.1 ≤ lo) && decide (hi ≤ r.2)
    match owner with
    | none => none
    | some j =>
      let place := if plus then (x.g.pos d + n - j - 1) % n else (j + n - x.g.pos d - 1) % n
      if k.stage ≠ 0 ∧ l < x.g.levels ∧ x.g.dimAt st l = d ∧ k.carry.toNat = carry ∧ 0 < place ∧ lo < hi ∧
          k.contrib = Group.maskOf n j place plus then
        some { k := st, l := l, d := d, plus := plus, owner := j, place := place }
      else none

/-- Whether an element range is new at a port and stage. -/
def freshRange (x : Bucket) (code lo n : Nat) : Bool :=
  x.got.all fun g => g.1 != code || decide (lo + n ≤ g.2.1) || decide (g.2.1 + g.2.2 ≤ lo)

/-- Where a PUT packet belongs: its code, the units of its message, the view that it fills, and the port that it goes on
to. -/
structure PutHop where
  code : Nat
  units : Nat
  view : Option View
  onward : Option Nat

/-- The position that a mask of one bit names. DEDUCED, log 54. -/
def bitPos (n : Nat) (m : W64) : Option Nat := (List.range n).find? fun o => m == 1 <<< o

/-- Checks 4 and 5 of a PUT packet against an entry, but for overlaps: packets of 4,096 bytes from the message's start, with a
shorter last one that ends it (R327, R378). DEDUCED, log 51, DEDUCED, log 54. -/
def putHop? (s : State) (x : Spot) (p : Nat) (k : Packet) (e : ChainEntry) : Option PutHop :=
  let st := k.stage.toNat
  let ring := ringOfPort x.g p
  let hop : Option PutHop :=
    match e with
    | .allGather _ dst | .allReduce _ _ _ dst =>
      match ring with
      | some (d, plus) =>
        let l := st - 5
        let sk := x.g.strandAt l d plus
        let n := x.g.extOf d
        match bitPos n k.contrib with
        | some o =>
          if 5 ≤ st ∧ l < x.g.levels ∧ x.g.dimAt sk l = d ∧ o ≠ x.g.pos d then
            let v := x.view s dst (x.g.partOf x.u sk l o)
            some
              { code := putCode st p o, units := unitsOfBytes (viewLen v x.warm), view := some v
                onward := if Group.stepFrom n (x.g.pos d) 1 plus = o then none else x.g.portTo d plus }
          else none
        | none => none
      | none => none
    | .bcast _ dst root =>
      match ring, x.bcastDim root with
      | some (d, true), some r =>
        if st = 9 ∧ d = r then
          let v := x.view s dst (0, x.u)
          let n := x.g.extOf d
          some
            { code := putCode 9 p 0, units := unitsOfBytes (viewLen v x.warm), view := some v
              onward := if Group.stepFrom n (x.g.pos d) 1 true = x.g.coordOf root d then none else x.g.portTo d true }
        else none
      | _, _ => none
    | .halo _ recv =>
      let h := recv.getD p noHandle
      if st = 8 ∧ h ≠ noHandle then
        let v := x.whole s h
        some { code := putCode 8 p 0, units := unitsOfBytes (viewLen v x.warm), view := some v, onward := none }
      else none
    | .allToAll src _ =>
      match ring with
      | some (d, plus) =>
        match bitPos (x.g.extOf d) k.contrib with
        | some o =>
          let step := if plus then (x.g.pos d + x.g.extOf d - o) % x.g.extOf d else (o + x.g.extOf d - x.g.pos d) % x.g.extOf d
          if st = 10 + d ∧ 0 < step ∧ step ≤ x.a2aSteps d then
            some { code := putCode st p o, units := x.a2aUnits s src d step plus, view := none, onward := none }
          else none
        | none => none
      | none => none
    | _ => none
  match hop with
  | some h =>
    if k.carry = 0 ∧ k.first.toNat % 128 = 0 ∧ 0 < k.len.toNat ∧
        (k.first.toNat + k.len.toNat = h.units ∨ (k.len = 128 ∧ k.first.toNat + 128 ≤ h.units)) then some h else none
  | none => none

/-- Whether a unit range is new to a message. -/
def freshUnits (x : Bucket) (code : Nat) (k : Packet) : Bool :=
  x.inbox.all fun m => m.1 != code || decide (k.first.toNat + k.len.toNat ≤ m.2.1) ||
    decide (m.2.1 + m.2.2.length / 32 ≤ k.first.toNat)

/-- Level and step of a pass's packet that its fields agree with: a step of the level's ring, one element, and the bit of the
position it originated at (R364). DEDUCED, log 54. -/
def passHop? (g : Group) (p : Nat) (k : Packet) : Option (Nat × Nat) :=
  let l := k.first.toNat / 64
  let st := k.first.toNat % 64
  let n := g.extOf l
  if l < 3 ∧ st + 1 < n ∧ g.portFrom l true = some p ∧ k.contrib = 1 <<< Group.stepFrom n (g.pos l) (st + 1) false then
    some (l, st)
  else none

namespace State

/-- Whether an entry expects a packet. -/
def expects (s : State) (x : Spot) (p : Nat) (k : Packet) (e : ChainEntry) : Bool :=
  match PType.ofCode k.ptype.toNat with
  | some .reduce => match e.reduce? with
    | some (c, _, _, _) => (reduceHop? x p k c).isSome
    | none => false
  | some .put => (putHop? s x p k e).isSome
  | some .agree => match e.reduce? with
    | some (c, _, _, _) => (Carry.fmt? c).isNone && k.stage == 0 && k.carry == 2 && k.len == 1 && (passHop? x.g p k).isSome
    | none => false
  | _ => false

/-- Whether the current entry has not had this packet yet. -/
def isFresh (s : State) (x : Spot) (p : Nat) (k : Packet) (e : ChainEntry) : Bool :=
  match PType.ofCode k.ptype.toNat with
  | some .reduce => match e.reduce? with
    | some (c, _, _, _) => freshRange x.x (k.stage.toNat + 16 * p) k.first.toNat (carryCount c k)
    | none => false
  | some .put => match putHop? s x p k e with
    | some h => freshUnits x.x h.code k
    | none => false
  | _ => !x.x.agree.complete && (x.x.agree.has (k.first.toNat / 64) (k.first.toNat % 64)).isNone

/-- Whether the bucket has come far enough for the packet. -/
def isOpen (x : Spot) (p : Nat) (k : Packet) (e : ChainEntry) : Bool :=
  match PType.ofCode k.ptype.toNat with
  | some .reduce =>
    x.x.stage == .reduce && match e.reduce? with
      | some (c, _, _, _) => match reduceHop? x p k c with
        | some h => (List.range h.l).all fun l => x.levelDone h.k l
        | none => false
      | none => false
  | some .put => x.x.stage == .gather || x.x.stage == .move
  | _ => true

/-- Checks 3 to 6 of a packet of a chain; a verdict packet concerns the whole chain. -/
def turn (s : State) (p : Nat) (k : Packet) : Turn :=
  match s.group? k.group.toNat with
  | none => .bad
  | some g =>
    match s.chains.find? fun c => c.group == g.id && decide ((k.bucket.toNat + 2 ^ 32 - c.seq0) % 2 ^ 32 < c.nb) with
    | none => if (k.bucket.toNat + 2 ^ 32 - g.seq % 2 ^ 32) % 2 ^ 32 < 2 ^ 31 then .later else .bad
    | some c =>
      let b := (k.bucket.toNat + 2 ^ 32 - c.seq0) % 2 ^ 32
      if k.ptype = 3 ∧ k.stage = 4 then
        let ok := c.entries.any ChainEntry.isUpdate && k.carry == 2 && k.len == 1 && b == 0 && (passHop? g p k).isSome &&
          (c.verdict.has (k.first.toNat / 64) (k.first.toNat % 64)).isNone
        if ok then .use c.id 0 else .bad
      else
        match s.spot? c.id b with
        | none => .bad
        | some x =>
          let rest := ((c.entries.zipIdx).drop (x.x.entry + 1)).any fun e => s.expects (x.at_ e.2) p k e.1
          match x.entry? with
          | none => .bad
          | some e =>
            if s.expects x p k e && s.isFresh x p k e then (if isOpen x p k e then .use c.id b else .later)
            else if rest then .later
            else .bad

/-! ### Using a packet -/

/-- A link adder adds a partial and writes the sum into the staging slot: it stays here, or goes on (R324, R362). -/
def useReduce (s : State) (p : Nat) (k : Packet) (cid b : Nat) : State :=
  match s.spot? cid b with
  | none => s
  | some x =>
    match x.entry?.bind ChainEntry.reduce? with
    | none => s
    | some (carry, _, _, _) =>
      match reduceHop? x p k carry with
      | none => s
      | some h =>
        let w := Chain.carryBytes carry
        let lo := k.first.toNat
        let n := carryCount carry k
        let sums := (List.range n).map fun i =>
          Carry.add carry (leNat ((k.payload.drop (w * i)).take w)) (x.valueAt h.l (lo + i))
        let here := h.owner == x.g.pos h.d
        let s1 := s.modBucket cid b fun y =>
          { y with
            got := y.got ++ [(k.stage.toNat + 16 * p, lo, n)]
            held := if here then y.held ++ sums.zipIdx.map fun v => (h.l + 1, lo + v.2, v.1.1) else y.held }
        let s1 := s1.stageBytes x (w * lo) (sums.flatMap fun v => toLe w v.1)
        if (s1.chain? cid).isNone then s1 else
        let flushed := (sums.filter fun v => v.2).length
        let s2 := match Carry.fmt? carry with
          | some f => if flushed = 0 then s1 else ((Work.start s1 x.j).arith f flushed).close x.j.id
          | none => s1
        if here then
          match s2.spot? cid b with
          | some y =>
            let s3 := if y.levelDone h.k h.l then runLevels y carry h.k (y.g.levels - h.l - 1) (h.l + 1) s2 else s2
            if y.reduceDone then s3.finishReduce cid b else s3
          | none => s2
        else
          match x.g.portTo h.d h.plus with
          | some q =>
            let out := s2.mkPacket q .reduce x.j.id x.g.id x.x.seq lo carry k.stage.toNat
              (Group.maskOf (x.g.extOf h.d) h.owner (h.place + 1) h.plus) (sums.flatMap fun v => toLe w v.1)
            (s2.sampleJudge p out (.sum (k.payload.take (w * n)) ((List.range n).flatMap fun i => toLe w (x.valueAt h.l (lo + i))))
              (sums.flatMap fun v => toLe w v.1)).send q out
          | none => s2

/-- A whole message has come: its bytes go where the entry places them. -/
def placeMessage (s : State) (x : Spot) (v : View) (bs : List Byte) : State :=
  match s.viewPoison x.warm [] [v] with
  | some l => s.chainPoison x l
  | none => ((Work.putView x.warm v bs (Work.start s x.j)).close x.j.id).viewUnpoison x.warm [v]

/-- What a complete PUT message lets the bucket do next. -/
def afterMessage (s : State) (cid b : Nat) (p : Nat) (k : Packet) : State :=
  match s.spot? cid b with
  | none => s
  | some x =>
    match x.entry? with
    | some (.allGather _ dst) | some (.allReduce _ _ _ dst) =>
      match ringOfPort x.g p with
      | some (d, plus) =>
        let l := k.stage.toNat - 5
        let sk := x.g.strandAt l d plus
        let s1 := if x.gatherLevelDone s dst sk l then runGather x dst sk l s else s
        if x.gatherDone s1 dst then s1.entryDone cid b else s1
      | none => s
    | some (.bcast _ dst root) => (s.bcastSend x root dst).entryDone cid b
    | some (.halo _ recv) => if s.haloDone x recv then s.entryDone cid b else s
    | some (.allToAll src dst) => a2aRun src dst a2aFuel cid b s
    | _ => s

/-- A PUT packet goes on where its message does, and into the bucket; the last one of a message places it. -/
def usePut (s : State) (p : Nat) (k : Packet) (cid b : Nat) : State :=
  match s.spot? cid b with
  | none => s
  | some x =>
    match x.entry?.bind fun e => putHop? s x p k e with
    | none => s
    | some h =>
      let s1 := match h.onward with
        | some q => s.send q
            (s.mkPacket q .put x.j.id x.g.id x.x.seq k.first.toNat 0 k.stage.toNat k.contrib k.payload)
        | none => s
      let s2 := s1.modBucket cid b fun y => { y with inbox := y.inbox ++ [(h.code, k.first.toNat, k.payload)] }
      match s2.spot? cid b with
      | none => s2
      | some y =>
        if y.x.heard h.code = h.units then
          let s3 := match h.view with
            | some v => s2.placeMessage y v (y.x.message h.code)
            | none => s2
          s3.afterMessage cid b p k
        else s2

/-- A value of an AGREE or VERDICT pass comes in (R364). -/
def useAgree (s : State) (k : Packet) (cid b : Nat) : State :=
  let l := k.first.toNat / 64
  let st := k.first.toNat % 64
  match s.spot? cid b with
  | none => s
  | some x =>
    if k.stage = 4 then
      let (d, msgs) := Dissem.receive x.g.extOf Dissem.combSum x.ch.verdict l st (some (signedOf 64 (leNat (k.payload.take 8))))
      ((s.modChain cid fun c => { c with verdict := d }).sendPass x.g x.ch.seq0 4 msgs).verdictEnded cid
    else
      let (d, msgs) := Dissem.receive x.g.extOf Dissem.combMax x.x.agree l st (Dissem.decode k.payload)
      ((s.modBucket cid b fun y => { y with agree := d }).sendPass x.g x.x.seq 0 msgs).agreeEnded cid b

def usePacket (s : State) (p : Nat) (k : Packet) (cid b : Nat) : State :=
  match PType.ofCode k.ptype.toNat with
  | some .reduce => s.useReduce p k cid b
  | some .put => s.usePut p k cid b
  | _ => s.useAgree k cid b

/-! ### Early packets (R324) -/

def earlyBytes : Nat := 0x40_0000

/-- Whether a chain for the packet is armed: it then waits in the chain's staging area, not in the buffer. -/
def armedFor (s : State) (k : Packet) : Bool :=
  s.chains.any fun c => c.group == k.group.toNat && decide ((k.bucket.toNat + 2 ^ 32 - c.seq0) % 2 ^ 32 < c.nb)

/-- Bytes in the early-arrival buffer of a port's engine. DEDUCED, log 58. -/
def earlyHeld (s : State) (p : Nat) : Nat :=
  ((s.early.filter fun e => e.1 == p && e.2.2 && !s.armedFor e.2.1).map fun e => Pkt.size e.2.1).sum

/-- Whether the staging slot of a packet's bucket is its own: the buckets that had the slot before it are done, and no packet
for the same range waits there (R354). DEDUCED, log 58. -/
def slotFor (s : State) (p : Nat) (k : Packet) : Bool :=
  s.chains.any fun c =>
    let b := (k.bucket.toNat + 2 ^ 32 - c.seq0) % 2 ^ 32
    c.group == k.group.toNat && decide (b < c.nb) &&
      (List.range (b / 256)).all (fun i => (c.buckets.getD (256 * i + b % 256) { seq := 0 }).stage == .done) &&
      s.early.all fun e => !e.2.2 || e.1 != p || e.2.1 != k

/-- Whether there is a place for an early packet outside its VC buffer: the staging slot of an armed chain, or the early-arrival
buffer of the port's engine. DEDUCED, log 58. -/
def earlyRoom (s : State) (p : Nat) (k : Packet) : Bool :=
  if s.armedFor k then s.slotFor p k else decide (s.earlyHeld p + Pkt.size k ≤ earlyBytes)

/-- Keep an early packet; outside its VC buffer its credits are due. DEDUCED, log 58. -/
def keepEarly (s : State) (p : Nat) (k : Packet) : State :=
  if s.earlyRoom p k then { s.freeCredits p k with early := s.early ++ [(p, k, true)] }
  else { s with early := s.early ++ [(p, k, false)] }

/-- A packet that stayed in its VC buffer leaves it. -/
def leaveBuffer (s : State) (e : Nat × Packet × Bool) : State := if e.2.2 then s else s.freeCredits e.1 e.2.1

/-- Try the early packets again, oldest first, until none can be used. DEDUCED, log 58. -/
def retryEarly : Nat → State → State
  | 0, s => s
  | n + 1, s =>
    match s.early.find? fun e => s.turn e.1 e.2.1 != .later with
    | none => s
    | some e =>
      let s1 := { s with early := s.early.erase e }.leaveBuffer e
      match s.turn e.1 e.2.1 with
      | .use c b => retryEarly n (s1.usePacket e.1 e.2.1 c b)
      | _ => retryEarly n (s1.hopFail e.1 e.2.1 .hopCheck)

/-- Packets in VC buffers move to where there is room. DEDUCED, log 58. -/
def refillEarly (s : State) : State :=
  s.early.foldl (fun s e =>
    if !e.2.2 && s.earlyRoom e.1 e.2.1 then
      { s.freeCredits e.1 e.2.1 with early := s.early.map fun x => if x = e then (e.1, e.2.1, true) else x }
    else s) s

/-- Early packets of jobs that have not joined their group are gone: a halt or a leave discards them. DEDUCED, log 58. -/
def dropEarly (s : State) : State :=
  let gone := s.early.filter fun e => (s.group? e.2.1.group.toNat).isNone
  gone.foldl (fun s e => ({ s with early := s.early.erase e }).leaveBuffer e) s

/-- What the engine does after anything that may have let early packets go on. -/
def settle (s : State) : State := (retryEarly s.early.length s.dropEarly).refillEarly

/-! ### A packet of a chain arrives -/

/-- Whether the job of a packet runs: between its halt and its restart, packets of its chains are dropped (R406).
DEDUCED, log 58. -/
def jobRuns (s : State) (j : Nat) : Bool :=
  match s.job? j with
  | some x => x.phase == .running
  | none => true

/-- Checks 1 and 2, then the chain's turn (R330). -/
def chainPacket (s : State) (p : Nat) (k : Packet) : State :=
  match s.hopOne p k with
  | some m => (s.freeCredits p k).hopFail p k m
  | none =>
    match s.group? k.group.toNat with
    | none => (s.freeCredits p k).hopFail p k .hopCheck
    | some g =>
      if g.job ≠ k.job.toNat then (s.freeCredits p k).hopFail p k .hopCheck
      else if !s.jobRuns g.job then s.freeCredits p k
      else
        match s.turn p k with
        | .bad => (s.freeCredits p k).hopFail p k .hopCheck
        | .later => s.keepEarly p k
        | .use c b => ((s.usePacket p k c b).freeCredits p k).settle

/-- Whether a port's packets may have the type (R326). -/
def allowedType (p : Nat) (k : Packet) : Bool :=
  k.ptype != 0 && ((PType.ofCode k.ptype.toNat).bind fun t => t.vcOn (p == 6)).isSome

/-- A received packet, on a port that is UP: of the row's type, or of a type that is reserved or not allowed on the port, which
fails the hop check (R326). A type that another row takes is not this row's. -/
def onPacket (t : List PType) (p : Nat) (k : Packet) (go : State → State) (s : State) : Host.Outcome State Fault Refusal :=
  if !k.wf then .fault .illFormed
  else if (s.port p).state ≠ .up then .next s
  else if !allowedType p k then .next ((s.freeCredits p k).hopFail p k ((s.hopOne p k).getD .hopCheck))
  else .next (if t.any (fun x => x.code == k.ptype.toNat) then go s else s)

/-! ### ARRIVE (R248, R380) -/

/-- An arrival: in a ring or torus a value of the barrier's pass, in a NEIGHBOURS group the partner's. -/
def arrived (s : State) (p : Nat) (k : Packet) : State :=
  let s0 := s.freeCredits p k
  match s.hopOne p k with
  | some m => s0.hopFail p k m
  | none =>
    match s.group? k.group.toNat with
    | none => s0.hopFail p k .hopCheck
    | some g =>
      if g.job ≠ k.job.toNat then s0.hopFail p k .hopCheck
      else if !s.jobRuns g.job then s0
      else if k.bucket.toNat ≠ g.round % 2 ^ 32 ∨ k.len ≠ 0 ∨ k.stage ≠ 0xD then s0.hopFail p k .hopCheck
      else
        match g.geometry with
        | .neighbours =>
          if g.ports.contains p && !g.heard.contains (p, g.round) then
            (s0.setGroup { g with heard := g.heard ++ [(p, g.round)] }).closeRound g.id
          else s0.hopFail p k .hopCheck
        | _ =>
          match passHop? g p k with
          | some (l, st) =>
            if (g.barrier.has l st).isSome then s0.hopFail p k .hopCheck
            else
              let (d, msgs) := Dissem.receive g.extOf Dissem.combMax g.barrier l st (some 1)
              let g1 := { g with barrier := d }
              ((s0.setGroup g1).sendArrive g1 msgs).closeRound g.id
          | none => s0.hopFail p k .hopCheck

/-! ### Judge comparisons (R381 to R383) -/

/-- The adder's sum of a sampled packet, recomputed. -/
def judgeSum (c : Nat) (incoming entered : List Byte) : List Byte :=
  let w := Chain.carryBytes c
  (List.range (incoming.length / w)).flatMap fun i =>
    toLe w (Carry.add c (leNat ((incoming.drop (w * i)).take w)) (leNat ((entered.drop (w * i)).take w))).1

/-- What the Judge forms from its copies. -/
def judgeForms (s : State) (c : JudgeCopy) : List Byte :=
  match c.work with
  | .sum incoming entered => judgeSum c.packet.carry.toNat incoming entered
  | .digest => match s.job? c.packet.job.toNat with
    | some j => toLe 8 (s.stepDigest j).toNat
    | none => c.output
  | .crc data => toLe 4 (crc32c data).toNat

/-- A comparison ends; a mismatch is a detected fault of the job. DEDUCED, log 56. -/
def judged (s : State) (j : Nat) (c : JudgeCopy) (same : Bool) : State :=
  let k := c.packet
  let s1 := { s with judges := s.judges.modify j fun x =>
    { x with
      pending := x.pending.erase c, sampled := x.sampled + 1
      mismatch := if same then x.mismatch else x.mismatch + 1
      last := if same then x.last
        else BitVec.ofNat 64 (c.port <<< 60 ||| k.job.toNat <<< 50 ||| k.group.toNat <<< 36 ||| k.bucket.toNat) } }
  if same then s1
  else s1.detect false
    { mech := Mech.judge.code, cls := 5, index := j, job := (s.job? k.job.toNat).map Job.id, group := k.group.toNat }

/-- JUDGE_COMPARE: a Judge ends its oldest comparison. `seen` is the output that it sees where a fault has altered what the sampled
logic formed. DEDUCED, log 56. -/
def judgeCompare (s : State) (j : Nat) (seen : Option (List Byte)) : State :=
  match (s.judges.getD j {}).pending with
  | [] => s
  | c :: _ => s.judged j c (s.judgeForms c == seen.getD c.output)

/-! ### Stalls (R384, R385) -/

/-- The pass of a group still lacks a value that comes on a port. -/
def passLacks (g : Group) (d : Dissem) (p : Nat) : Bool :=
  !d.complete && (List.range 3).any fun l =>
    g.portFrom l true == some p && (List.range (g.extOf l - 1)).any fun st => (d.has l st).isNone

/-- The stages, by code, of which a bucket still expects a message on a port, where it is ready for them (R384). DEDUCED, log 57. -/
def expectedOn (s : State) (x : Spot) (p : Nat) : List Nat :=
  let verdict : List Nat := if x.b = 0 ∧ x.ch.total.isNone ∧ passLacks x.g x.ch.verdict p then [4] else []
  let levels (base : Nat) (done : Nat → Nat → Bool) : List Nat :=
    (List.range x.g.strands).flatMap fun k => ((List.range x.g.levels).filter fun l =>
      x.g.portFrom (x.g.dimAt k l) (x.g.plusOf k) == some p && !done k l).map fun l => base + l + 16 * k
  verdict ++ match x.x.stage, x.entry? with
    | .agree, _ => if passLacks x.g x.x.agree p then [0] else []
    | .reduce, _ => levels 1 x.levelDone
    | .gather, some e => levels 5 (x.gatherLevelDone s (e.gather?.getD noHandle))
    | .move, some (.halo _ recv) =>
      let h := recv.getD p noHandle
      if h ≠ noHandle ∧ x.x.heard (putCode 8 p 0) ≠ unitsOfBytes (viewLen (x.whole s h) x.warm) then [8] else []
    | .move, some (.bcast _ _ root) => if (x.bcastDim root).any fun d => x.g.portFrom d true == some p then [9] else []
    | .move, some (.allToAll src _) =>
      let l := x.x.step / 64
      if (List.range' (x.x.step % 64) (x.a2aSteps l + 1 - x.x.step % 64)).any fun st => [true, false].any fun plus =>
          x.g.portFrom l plus == some p && match x.a2aCode l st plus with
            | some code => x.x.heard code != x.a2aUnits s src l st plus
            | none => false
      then [10 + l] else []
    | _, _ => []

/-- Since when a bucket has waited longest for a message that it expects on a port: from the arming or, later, the local end of what
the message's stage depends on. -/
def waitsSince (s : State) (x : Spot) (p : Nat) : Option Nat :=
  ((s.expectedOn x p).filterMap fun c => (x.x.started.find? fun e => e.1 == c).map fun e => max e.2 x.ch.armedAt).min?

/-- A wait that exceeds its group's budget: the job's chains stop, CTRL abort goes out, and the stall is reported with the member
behind the port as the blamed one. -/
def stallFound (s : State) (g : Group) (port since : Nat) : State :=
  if s.now - since ≤ g.budget then s
  else
    let rank := g.rankOn port
    let serial := match rank with
      | some r => g.serials.getD r 0
      | none => (s.port port).partnerId
    let s1 := s.endChains (fun c => c.job == g.job) .fault
    let s2 := s1.notify (s1.jobPorts g.job) g.job .abort s.serial (s.stepOf (some g.job)) (rank.getD 0xFFFF) (toLe 8 serial.toNat ++ toLe 2 g.id)
    s2.detect false
      { mech := Mech.stall.code, cls := 4, index := port, job := some g.job, detail := (s.now - since) / 1000, rank := rank
        group := g.id, serial := some serial }

/-- The port on which a barrier's next missing arrival is due (R380). -/
def barrierPort (g : Group) : Option Nat :=
  match g.geometry with
  | .neighbours => g.ports.find? fun p => !g.heard.contains (p, g.round)
  | _ => (List.range 6).find? fun p => (g.portFrom g.barrier.level true == some p) && passLacks g g.barrier p

/-- STALL: where the wait that it names goes on and exceeds the budget. DEDUCED, log 57. -/
def stalled (s : State) (w : StallWait) : State :=
  match w with
  | .message c b p =>
    match s.spot? c b with
    | none => s
    | some x => match s.waitsSince x p.val with
      | some t => s.stallFound x.g p.val t
      | none => s
  | .credit p vc =>
    let x := s.port p.val
    match x.starved.getD vc.val none, x.sendQ.find? fun k => k.vc.toNat == vc.val with
    | some t, some k => match s.group? k.group.toNat with
      | some g => if g.job = k.job.toNat ∧ State.inGroup k then s.stallFound g p.val t else s
      | none => s
    | _, _ => s
  | .barrier job group =>
    match s.group? group with
    | none => s
    | some g => match g.sentAt, barrierPort g with
      | some t, some p => if g.job = job then s.stallFound g p t else s
      | _, _ => s

end State

/-! ### The rows -/

/-- TRIG (R250): early packets of the chain that it arms go on at once (R324). -/
def execTrig (q : Nat) (s : State) : Host.Outcome State Fault Refusal :=
  .next (s.runMacro (State.isOp .trig) Trig.checks Trig.body q).settle

def execReducePacket (p : Fin 7) (k : Packet) (s : State) : Host.Outcome State Fault Refusal :=
  State.onPacket [.reduce] p.val k (fun s => s.chainPacket p.val k) s

def execAgreePacket (p : Fin 7) (k : Packet) (s : State) : Host.Outcome State Fault Refusal :=
  State.onPacket [.agree] p.val k (fun s => s.chainPacket p.val k) s

def execArrivePacket (p : Fin 7) (k : Packet) (s : State) : Host.Outcome State Fault Refusal :=
  State.onPacket [.arrive] p.val k (fun s => s.arrived p.val k) s

def execChainEntryStart (chain bucket : Nat) (s : State) : Host.Outcome State Fault Refusal :=
  .next (s.startEntry chain bucket).settle

def execUpdateInvocation (inv : Invocation) (s : State) : Host.Outcome State Fault Refusal :=
  .next (s.chainInvoke inv).settle

def execVerdictPass (chain : Nat) (s : State) : Host.Outcome State Fault Refusal := .next (s.verdictPass chain).settle

def execChainComplete (chain : Nat) (s : State) : Host.Outcome State Fault Refusal := .next (s.completeChain chain)

def execJudgeCompare (j : Fin 3) (seen : Option (List Byte)) (s : State) : Host.Outcome State Fault Refusal :=
  .next (s.judgeCompare j.val seen)

def execStall (w : StallWait) (s : State) : Host.Outcome State Fault Refusal := .next (s.stalled w)

end Sys2Proof.Machine
end

