-- ==== Sys2Proof/Machine/Reset.lean ====
section
/-! DEFINITION. Reset and power (R490, R537, R542 to R545), the board inputs (R553 to R557), SMBus (R558 to R560), the test
access port (R562), and the Starter's watchdog (R464). -/

namespace Sys2Proof.Machine

namespace State

/-! ### Reset (R490, R542 to R544) -/

/-- The state in which a reset holds the device (event 3 of R544): what R490 lists, the boot store's bytes, the board's levels
and the model's own records stay, the limit of R342 runs on (DEDUCED, log 136), and an unfit device stays unfit until service
clears it (R22, DEDUCED, log 45); everything else is as after power-up. -/
def held (s : State) (cause : Nat) : State :=
  { State.reset with
    mem := s.mem.slice bootBase 0x8000_0000
    pending := s.pending
    free := s.free
    console := s.console
    out := s.out
    reply := s.reply
    replyStatus := s.replyStatus
    serial := s.serial
    topo := { origin := s.serial }
    pair := { resetAt := if cause = 2 then some 0 else s.pair.resetAt.map fun _ => 0 }
    unitMap := s.unitMap
    mapCopies := s.mapCopies
    retiredCores := s.retiredCores
    unfit := s.unfit
    edern := s.edern.map fun e => { markedDie := e.markedDie }
    faultLog := s.faultLog
    faultsEver := s.faultsEver
    starter :=
      { lastReset := cause, stopped := s.starter.stopped, owners := s.starter.owners, claimFail := s.starter.claimFail, lockUntil := s.starter.lockUntil
        trialFail := s.starter.trialFail, fwSlot := s.starter.fwSlot, osSlot := s.starter.osSlot
        fwTrial := s.starter.fwTrial, osTrial := s.starter.osTrial, fwBlown := s.starter.fwBlown
        osBlown := s.starter.osBlown }
    inputs :=
      { resetN := s.inputs.resetN
        straps := s.inputs.straps, tap := s.inputs.tap, boundary := s.inputs.boundary }
    power := { vin := s.power.vin, good := s.power.good, rails := s.power.vin, held := true } }

/-- A reset request; one that arrives during a reset is absorbed by it. -/
def requestReset (s : State) (cause : Nat) : State := if s.power.held then s else s.held cause

/-- Whether a test instruction holds the device in reset (R562). DEDUCED, log 64. -/
def extestHolds (s : State) : Bool := s.inputs.tap == 0x00 || s.inputs.tap == 0x03 || s.inputs.tap == 0x04

/-- A copy of the unit map that fails its CRC is an uncorrectable read of the boot store: NMI cause BOOTSTORE and a FAULT with
outcome 4 (R462); R398 gives no mechanism for it, which is free. DEDUCED, log 137. -/
def checkCopies (s : State) : State :=
  if s.mapCopies.all fun c => crc32c (mapBytes c.map) == c.crc then s
  else
    let (v, s1) := ({ s with starter := { s.starter with nmi := s.starter.nmi ||| 16 } } : State).fresh
    s1.recordFault { mech := v.toNat % 256 }

/-- The hub leaves reset (event 3 of R545): the timer starts at 0, the unit map is loaded (R24, R28) and the straps are latched;
a slot marked for trial is booted (R515), and a Starter that had stopped is recorded (R398). DEDUCED, log 87. -/
def releaseReset (s : State) (st : Straps) : State :=
  if s.power.held && s.power.good && s.inputs.resetN && !s.extestHolds then
    let s1 : State := { s with
      now := 0
      unitMap := s.loadMap
      power := { s.power with held := false }
      inputs := { s.inputs with straps := st, chatter := [(0, 0), (0, 0), (0, 0)] }
      eth := s.eth.map fun e => { e with speed := st.ethSpeed }
      starter := { s.starter with trialBoot := s.starter.fwTrial || s.starter.osTrial, stopped := false } }
    let s1 := s1.checkCopies
    if s.starter.stopped then s1.detect false { mech := Mech.lockstepSt.code } else s1
  else s

/-! ### The 48 V input (R537, R545) -/

/-- Event 1: the regulators start. -/
def vinRises (s : State) : State := if s.power.vin then s else { s with power := { s.power with vin := true, rails := true } }

/-- Event 2: every rail is in regulation; not after a trip of the hub turned the rails off (R535). -/
def powerGood (s : State) : State := if s.power.vin && s.power.rails then { s with power := { s.power with good := true } } else s

/-- Every rail turns off; after it only a power-up starts the device. DESIGN CHOICE, log 65. -/
def powerOff (s : State) : State :=
  let s1 := s.held 0
  { s1 with power := { s1.power with vin := false, good := false, rails := false } }

/-- The input falls through 38.0 V and stays below it for `below` ns: PWR_GOOD deasserts, and after more than 50 µs every
rail is off. DESIGN CHOICE, log 65. -/
def vinFalls (s : State) (below : Nat) : State :=
  if !s.power.vin then s
  else if 50000 < below then s.powerOff
  else { s with power := { s.power with good := false } }

/-! ### Board inputs (R553 to R557) -/

/-- RESET_N. -/
def resetInput (s : State) (asserted : Bool) : State :=
  if s.inputs.resetN == !asserted then s
  else
    let s1 : State := ({ s with inputs := { s.inputs with resetN := !asserted } } : State).noteEdge 0
    if asserted then s1.requestReset 1 else s1

/-- PAIR_PRESENT: a pair event beyond event 6 of power-up (R556). The input is not sampled while the hub is held (R545). -/
def pairInput (s : State) (asserted : Bool) : State :=
  if s.power.held || s.inputs.pairPresent == asserted then s
  else
    let s1 : State := ({ s with inputs := { s.inputs with pairPresent := asserted } } : State).noteEdge 1
    if s1.power.tested then s1.pairEvent 2 (!asserted) else s1

/-- Whether ALERT events are masked now: until the line has stayed deasserted for 100,000 cycles (R557). -/
def alertMasked (s : State) : Bool :=
  s.inputs.masked && match s.inputs.highSince with
    | some t => decide (s.now - t < 100000)
    | none => true

/-- A change of ALERT_N to asserted, as R557 takes it. -/
def alertSeen (s : State) : State :=
  if s.inputs.drive || s.alertMasked then { s with inputs := { s.inputs with highSince := none } }
  else ({ s with inputs := { s.inputs with masked := true, highSince := none } } : State).postDevice .alert []

/-- ALERT_N, as the other drivers of the line leave it: while the device's own drive is 1 the line does not change.
DEDUCED, log 105. -/
def alertInput (s : State) (asserted : Bool) : State :=
  if s.power.held || s.inputs.alertN == !asserted then s
  else
    let s1 : State := { s with inputs := { s.inputs with alertN := !asserted } }
    if s1.inputs.drive then s1
    else
      let s2 := s1.noteEdge 2
      if asserted then s2.alertSeen else { s2 with inputs := { s2.inputs with highSince := some s2.now } }

/-- 1 µs after the device released the line, one that is still asserted counts as a change to asserted. DEDUCED, log 105. -/
def alertCheck (s : State) : State :=
  match s.inputs.releasedAt with
  | some t =>
    if s.now - t < 100 then s
    else
      let s1 : State := { s with inputs := { s.inputs with releasedAt := none } }
      if !s1.inputs.alertN && !s1.inputs.drive then s1.alertSeen else s1
  | none => s

/-! ### SMBus (R558 to R560) -/

/-- An answer of the SMBus target, which answers from event 2 of power-up. -/
def smb (s : State) (bs : List Byte) : State :=
  if s.power.good then s.answer .ok bs else s.answer .failed []

/-- A write or a read of ALERT_STATUS. -/
def smbAlertStatus (s : State) (w : Option Byte) : State :=
  match w with
  | some v =>
    if s.power.good then
      ((({ s with inputs := { s.inputs with alertStatus := s.inputs.alertStatus &&& ~~~v } } : State).followAlert)).smb []
    else s.smb []
  | none => s.smb [s.inputs.alertStatus]

/-- A write or a read of ALERT_MASK. -/
def smbAlertMask (s : State) (w : Option Byte) : State :=
  match w with
  | some v =>
    if s.power.good then (({ s with inputs := { s.inputs with alertMask := v } } : State).followAlert).smb [] else s.smb []
  | none => s.smb [s.inputs.alertMask]

/-- A measured word: power or input voltage (DESIGN CHOICE, log 6). -/
def smbMeasured (s : State) : State :=
  let (v, s1) := s.fresh
  s1.smb (toLe 2 v.toNat)

def tempBytes (s : State) : List Byte :=
  [s.temps.cd0, s.temps.cd1, s.temps.hub, s.temps.dram, s.temps.optics].flatMap fun t => toLe 1 (unsignedOf 8 t)

/-! ### The test access port (R562) -/

/-- The instruction codes of R562; every other code selects BYPASS. -/
def tapListed (c : Byte) : Bool := [0x00, 0x01, 0x02, 0x03, 0x04, 0x10].contains c

/-- Load an instruction; the three that test the board hold the device in reset. DEDUCED, log 64. -/
def loadTap (s : State) (c : Byte) : State :=
  let s1 : State := { s with inputs := { s.inputs with tap := c } }
  if s1.extestHolds then s1.requestReset 1 else s1

/-- The levels of the CMOS, OD and strap lands that the model holds, in the order of R552. DEDUCED, log 64. -/
def boundaryLevels (s : State) : List Bool :=
  [s.inputs.resetN, s.power.good, s.inputs.pairPresent, s.inputs.alertN && !s.inputs.drive, s.power.thermTripN
   , s.inputs.straps.pairSide, s.inputs.straps.ethSpeed] ++ (List.range 8).map s.inputs.straps.siteId.getLsbD

/-- SAMPLE/PRELOAD: the levels are sampled and read out, and the register is loaded where a load is given. -/
def samplePreload (s : State) (load : Option (List Bool)) : State :=
  let lv := s.boundaryLevels
  ({ s with inputs := { s.inputs with tap := 0x01, boundary := load.getD lv } } : State).answer .ok
    (lv.map fun b => if b then 1 else 0)

/-! ### The Starter watchdog (R463, R464) -/

def kick (s : State) (limit : W32) : State :=
  { s with starter := { s.starter with wdogLimit := limit, kickedAt := s.now } }

/-- The first expiry raises WDOG and writes to the console; the second resets the device. -/
def watchdog (s : State) : State :=
  let n := s.now - s.starter.kickedAt
  let l := s.starter.wdogLimit.toNat
  if 2 * l < n then s.requestReset 3
  else if l < n ∧ !s.starter.nmi.getLsbD 3 then
    { s with starter := { s.starter with nmi := s.starter.nmi ||| 8 }, console := s.console ++ [toLe 1 3] }
  else s

end State

/-! ### The rows -/

def execVinRise (s : State) : Host.Outcome State Fault Refusal := .next s.vinRises
def execPwrGood (s : State) : Host.Outcome State Fault Refusal := .next s.powerGood
def execVinFall (below : Nat) (s : State) : Host.Outcome State Fault Refusal := .next (s.vinFalls below)
def execResetN (asserted : Bool) (s : State) : Host.Outcome State Fault Refusal := .next (s.resetInput asserted)
def execResetRelease (st : Straps) (s : State) : Host.Outcome State Fault Refusal := .next (s.releaseReset st)
def execPairPresent (asserted : Bool) (s : State) : Host.Outcome State Fault Refusal := .next (s.pairInput asserted)
def execAlertN (asserted : Bool) (s : State) : Host.Outcome State Fault Refusal := .next (s.alertInput asserted)
def execAlertReleaseCheck (s : State) : Host.Outcome State Fault Refusal := .next s.alertCheck

/-- A write of `timer.alert_drive` by the Starter or the debug port (R528). -/
def execAlertDrive (on : Bool) (s : State) : Host.Outcome State Fault Refusal := .next (s.setDrive on)

def execStarterWatchdogKick (limit : W32) (s : State) : Host.Outcome State Fault Refusal := .next (s.kick limit)
def execStarterWatchdog (s : State) : Host.Outcome State Fault Refusal := .next s.watchdog

def execAlertStatus (w : Option Byte) (s : State) : Host.Outcome State Fault Refusal := .next (s.smbAlertStatus w)
def execAlertMask (w : Option Byte) (s : State) : Host.Outcome State Fault Refusal := .next (s.smbAlertMask w)
def execSmbState (s : State) : Host.Outcome State Fault Refusal := .next (s.smb (toLe 1 s.dev.code))
def execSmbTemp (s : State) : Host.Outcome State Fault Refusal := .next (s.smb s.tempBytes)
def execSmbPower (s : State) : Host.Outcome State Fault Refusal := .next s.smbMeasured
def execSmbVin (s : State) : Host.Outcome State Fault Refusal := .next s.smbMeasured
def execSmbSerial (s : State) : Host.Outcome State Fault Refusal := .next (s.smb (toLe 8 s.serial.toNat))
def execSmbSite (s : State) : Host.Outcome State Fault Refusal := .next (s.smb [s.inputs.straps.siteId])

/-- ALERT_RESPONSE_ADDRESS: while it drives ALERT_N the target answers with its address, in the seven upper bits.
DEDUCED, log 63. -/
def execAlertResponseAddress (s : State) : Host.Outcome State Fault Refusal :=
  .next (if s.inputs.drive then s.smb [0x98] else s.answer .failed [])

/-- FRU_READ: the 4 KiB of FRU data, whose bytes stand in fuses (DESIGN CHOICE, log 3). -/
def execFruRead (offset : BitVec 12) (s : State) : Host.Outcome State Fault Refusal :=
  .next (s.smb [Config.fuseByte (0x1000 + offset.toNat)])

def execTapExtest (s : State) : Host.Outcome State Fault Refusal := .next (s.loadTap 0x00)
def execExtestPulse (s : State) : Host.Outcome State Fault Refusal := .next (s.loadTap 0x03)
def execExtestTrain (s : State) : Host.Outcome State Fault Refusal := .next (s.loadTap 0x04)
def execTapDebug (s : State) : Host.Outcome State Fault Refusal := .next (s.loadTap 0x10)
def execTapIdcode (s : State) : Host.Outcome State Fault Refusal := .next ((s.loadTap 0x02).answer .ok (toLe 4 0x1D800A6F))

/-- BYPASS: its own code and every code that R562 does not list. -/
def execTapBypass (c : Byte) (s : State) : Host.Outcome State Fault Refusal :=
  .next (if State.tapListed c then s else s.loadTap 0xFF)

def execSamplePreload (load : Option (List Bool)) (s : State) : Host.Outcome State Fault Refusal :=
  .next (s.samplePreload load)

/-- TRST_N asserted: Test-Logic-Reset, in which IDCODE is the instruction. DEDUCED, log 64. -/
def execTrstN (s : State) : Host.Outcome State Fault Refusal := .next (s.loadTap 0x02)

end Sys2Proof.Machine
end

