-- ==== Sys2Proof/Machine/Suilo.lean ====
section
/-! DEFINITION. Suilo sessions: packets and their reliable order (R500 to R502), what a delivered message does (R503), pushed
events (R504), paths (R510, R511), and the end of a session (R505, R508). -/

namespace Sys2Proof.Machine

/-! ### Packets (R500, R501) -/

inductive SType where
  | hello | helloReply | auth | authOk | refuse | mbx | mbxResult | doorbell | event | ack | keepalive | path | close
  deriving DecidableEq, Repr

def SType.code : SType → Nat
  | .hello => 1 | .helloReply => 2 | .auth => 3 | .authOk => 4 | .refuse => 5 | .mbx => 0x10 | .mbxResult => 0x11
  | .doorbell => 0x12 | .event => 0x13 | .ack => 0x14 | .keepalive => 0x15 | .path => 0x16 | .close => 0x17

/-- The 40 header bytes of a packet. -/
def suiloHeader (type : Nat) (more ceEcho relayed : Bool) (session : W32) (serial : W64) (seq : Nat) (ack : Option Nat) (len : Nat) :
    List Byte :=
  let flag (b : Bool) (n : Nat) : Nat := if b then n else 0
  toLe 1 1 ++ toLe 1 type ++ toLe 2 (flag ack.isSome 1 + flag ceEcho 2 + flag more 4 + flag relayed 8) ++ toLe 4 session.toNat ++
    toLe 8 serial.toNat ++ toLe 8 seq ++ toLe 8 (ack.getD 0) ++ toLe 2 len ++ toLe 6 0

namespace State

/-! ### Frames out (R494, R511) -/

/-- Whether the twin can relay for this device (R511). -/
def twinRelays (s : State) : Bool := s.pair.joined && s.pair.mode != .unpaired && (s.port 6).state == .up

/-- A datagram goes to the twin in RELAY packets; the headers of the frame around it are free. DEDUCED, log 61. -/
def relayToTwin (s : State) (datagram : List Byte) : State :=
  let (a, s1) := s.fresh
  let frame := toLe 8 a.toNat ++ datagram
  (List.range (ceilDiv frame.length 4096)).foldl (fun s i =>
    s.send 6 (s.mkPacket 6 .relay 0 0 0 (128 * i) 0 0 0 ((frame.drop (4096 * i)).take 4096))) s1

/-- A datagram leaves on an Ethernet port, or in a frame that the twin transmits (R511). DEDUCED, log 61. -/
def sendDatagram (s : State) (port : Nat) (dst : BitVec 160) (x : Session) (u : Unacked) (relayed : Bool) : State :=
  let s1 : State := { s with out := s.out ++ [.suilo port dst u.type x.id u.seq u.ack relayed u.payload] }
  if relayed then
    s1.relayToTwin (suiloHeader u.type u.more u.ce true x.id s.serial u.seq (some u.ack) u.payload.length ++ u.payload)
  else { s1 with eth := s1.eth.modify port fun e => { e with txFrames := e.txFrames + 1 } }

/-- The bytes of a packet's payload on the wire: a protected one is sealed with the key of its direction.
DESIGN CHOICE, log 10; DEDUCED, log 61. -/
def wire (s : State) (x : Session) (type seq ack : Nat) (more : Bool) (payload : List Byte) : List Byte :=
  if type = 4 ∨ 0x10 ≤ type then
    Config.sealPacket x.keyOut (suiloHeader type more x.ceEcho x.relayed x.id s.serial seq (some ack) payload.length) payload
  else payload

/-- Send a plain packet, with seq 0. DEDUCED, log 60. -/
def sendPlain (s : State) (x : Session) (type : SType) (payload : List Byte) : State :=
  s.sendDatagram x.port x.addr x { seq := 0, type := type.code, more := false, payload := payload, sentAt := s.now, interval := 0 } x.relayed

/-- The protected packet that a session sends next: what it acknowledges goes with it, in bytes that no resend changes. -/
def nextPacket (s : State) (x : Session) (type : Nat) (more : Bool) (payload : List Byte) : Unacked :=
  { seq := x.txSeq, type := type, more := more, payload := s.wire x type x.txSeq x.rxSeq more payload, ack := x.rxSeq, ce := x.ceEcho
    sentAt := s.now, interval := 200000 }

/-- Send a protected packet now: it takes the next sequence number and waits for its acknowledgement; what was due to be
acknowledged goes with it. -/
def emit (s : State) (id : W32) (type : Nat) (more : Bool) (payload : List Byte) : State :=
  match s.session? id with
  | none => s
  | some x =>
    let u := s.nextPacket x type more payload
    (s.sendDatagram x.port x.addr x u x.relayed).modSession id fun y =>
      { y with
        txSeq := y.txSeq + 1, lastTx := s.now, ackCount := 0, ackSince := none, ceEcho := false, unacked := y.unacked ++ [u] }

/-- Send a protected packet, or let it wait behind a full window. -/
def sendOne (s : State) (id : W32) (type : Nat) (more : Bool) (payload : List Byte) : State :=
  match s.session? id with
  | none => s
  | some x =>
    if x.queued.isEmpty && decide (x.unacked.length < x.window) then s.emit id type more payload
    else s.modSession id fun y => { y with queued := y.queued ++ [(type, more, payload)] }

/-- Send a message, cut into packets of 1,392 bytes (R502). DEDUCED, log 59. -/
def sendSuilo (s : State) (id : W32) (type : SType) (payload : List Byte) : State :=
  let n := max 1 (ceilDiv payload.length 1392)
  (List.range n).foldl (fun s i =>
    s.sendOne id type.code (decide (i + 1 < n)) ((payload.drop (1392 * i)).take 1392)) s

/-- Send what waits while the window has room. -/
def drainQueued (id : W32) : Nat → State → State
  | 0, s => s
  | n + 1, s =>
    match s.session? id with
    | none => s
    | some x =>
      match x.queued with
      | [] => s
      | q :: rest =>
        if x.unacked.length < x.window then
          drainQueued id n ((s.modSession id fun y => { y with queued := rest }).emit id q.1 q.2.1 q.2.2)
        else s

/-- Resend unacknowledged packets with their bytes unchanged, on the session's path. -/
def resend (s : State) (id : W32) (keep : Unacked → Bool) : State :=
  match s.session? id with
  | none => s
  | some x =>
    (x.unacked.filter keep).foldl (fun s u => s.sendDatagram x.port x.addr x u x.relayed) s

/-! ### The end of a session (R505, R508, R509) -/

/-- A session ends: its regions, queue pairs, subscriptions and device event queue end with it. -/
def dropSession (s : State) (id : W32) : State :=
  match s.session? id with
  | none => s
  | some x =>
    { s with
      sessions := s.sessions.filter fun y => y.id != id
      qps := s.qps.filter fun q => q.session != id
      rings := s.rings.filter fun r => r.id != 0xFF00 + x.mailbox }

/-- A handshake ends with REFUSE and a status. -/
def refuse (s : State) (x : Session) (st : Status) : State := (s.sendPlain x .refuse (toLe 2 st.code)).dropSession x.id

/-- CLOSING: CLOSE has been sent or received; with nothing unacknowledged the session is CLOSED. DEDUCED, log 91. -/
def startClosing (s : State) (id : W32) (send : Bool) : State :=
  let s1 := if send then s.sendSuilo id .close [] else s
  let s2 := s1.modSession id fun y => { y with state := .closing, closeAt := s.now }
  match s2.session? id with
  | some x => if x.unacked.isEmpty && x.queued.isEmpty then s2.dropSession id else s2
  | none => s2

/-! ### Events pushed (R504) -/

/-- The EVENT packet's payload for up to 10 records of a ring from an index. -/
def eventPayload (s : State) (r : RingQ) (dropped i n : Nat) : List Byte :=
  toLe 8 dropped ++ toLe 2 r.id ++ toLe 6 0 ++
    (List.range n).flatMap fun k => s.bytes (r.base + 0x40 + ((i + k) % r.slots) * 128) 128

/-- Push the records of one subscribed ring: at most 4,096 wait, older ones are dropped and counted. DEDUCED, log 62. -/
def pushRing (s : State) (id : W32) (rid : Nat) : State :=
  match s.session? id, s.ring? rid with
  | some x, some r =>
    match x.subs.find? fun y => y.1 == rid with
    | none => s
    | some (_, next) =>
      let w := s.read64 r.base
      let wait := (w - next).toNat
      let extra := wait - 4096
      let from_ := next + BitVec.ofNat 64 extra
      let dropped := x.dropped + extra
      if wait = 0 ∨ x.window ≤ x.unacked.length ∨ !x.queued.isEmpty then
        s.modSession id fun y =>
          { y with dropped := dropped, subs := y.subs.map fun z => if z.1 = rid then (rid, from_) else z }
      else
        let n := min (wait - extra) 10
        let s1 := s.modSession id fun y =>
          { y with dropped := 0, subs := y.subs.map fun z => if z.1 = rid then (rid, from_ + BitVec.ofNat 64 n) else z }
        s1.sendSuilo id .event (s1.eventPayload r dropped from_.toNat n)
  | _, _ => s

/-- Push one packet for every ring of every open session that has records waiting. DEDUCED, log 62. -/
def pushEvents (s : State) : State :=
  (s.sessions.filter fun x => x.state == .opened || x.state == .claim).foldl (fun s x =>
    x.subs.foldl (fun s y => s.pushRing x.id y.1) s) s

/-! ### Paths (R510) -/

/-- The session takes another path: its record, and every unacknowledged packet again. -/
def movePath (s : State) (id : W32) (port : Nat) (addr : BitVec 160) (relayed : Bool) : State :=
  match s.session? id with
  | none => s
  | some x =>
    if x.port = port ∧ x.addr = addr ∧ x.relayed = relayed then s.modSession id fun y => { y with probing := false }
    else
      let s1 := s.modSession id fun y => { y with port := port, addr := addr, relayed := relayed, probing := false }
      (s1.recordFault { mech := Mech.ethFailover.code, outcome := .masked, cls := 8, index := port }).resend id fun _ => true

/-- The candidates in the order of R510: port, address, through the twin. -/
def candidates (s : State) (x : Session) : List (Nat × BitVec 160 × Bool) :=
  let net (e : Nat) : Nat := e / 4
  let addrOf (n : Nat) : BitVec 160 := if n = 0 then x.addrA else x.addrB
  let ups := (List.range 8).filter fun e => (s.ethPort e).up && (e != x.port || x.relayed)
  (ups.filter fun e => net e == net x.port).map (fun e => (e, x.addr, false)) ++
    ((ups.filter fun e => net e != net x.port).map fun e => (e, addrOf (net e), false)) ++
    (if s.twinRelays then [(x.port, x.addr, true)] else [])

/-- Send PATH probes on every candidate; they carry the next probe number, and one sequence number. DEDUCED, log 59. -/
def probePaths (s : State) (id : W32) : State :=
  match s.session? id with
  | none => s
  | some x =>
    let n := x.probe + 1
    let u := s.nextPacket x SType.path.code false (toLe 8 n)
    let s1 := (s.candidates x).foldl (fun s (c : Nat × BitVec 160 × Bool) => s.sendDatagram c.1 c.2.1 x u c.2.2) s
    s1.modSession id fun y =>
      { y with probing := true, probe := n, probedAt := s.now, txSeq := y.txSeq + 1, unacked := y.unacked ++ [u] }

/-! ### Messages in (R502, R503) -/

/-- DOORBELL entries, in order: only bound or unbound command queues that exist. -/
def doorbellEntries (s : State) (bs : List Byte) : State :=
  (List.range (min (bs.length / 16) 64)).foldl (fun s i =>
    let e := bs.drop (16 * i)
    s.ringQueue (leNat (e.take 2)) (BitVec.ofNat 64 (leNat ((e.drop 8).take 8)))) s

/-- What a delivered message does. -/
def deliver (s : State) (id : W32) (type : Nat) (k : SuiloPacket) (bs : List Byte) : State :=
  match s.session? id with
  | none => s
  | some x =>
    if type = SType.mbx.code then
      if (s.mbox x.mailbox).busy then s.ringMailbox x.mailbox
      else (s.mboxAreaWrite x.mailbox 0 (bs.take 4096)).ringMailbox x.mailbox
    else if type = SType.doorbell.code then s.doorbellEntries bs
    else if type = SType.path.code then
      let u := s.nextPacket x SType.path.code false (bs.take 8)
      (s.sendDatagram k.port.val k.from_ x u k.relayed).modSession id fun y =>
        { y with txSeq := y.txSeq + 1, unacked := y.unacked ++ [u] }
    else if type = SType.close.code then s.startClosing id false
    else s

/-- Deliver the packet that is next in order, and those ahead that follow it. -/
def deliverNext (id : W32) (k : SuiloPacket) : Nat → State → State
  | 0, s => s
  | n + 1, s =>
    match s.session? id with
    | none => s
    | some x =>
      match x.ahead.find? fun a => a.1 == x.rxSeq with
      | none => s
      | some a =>
        let whole := x.partialMsg ++ a.2.2.2
        let s1 := s.modSession id fun y =>
          { y with
            rxSeq := y.rxSeq + 1, ahead := y.ahead.filter fun b => b.1 != a.1
            partialMsg := if a.2.2.1 then whole else [] }
        deliverNext id k n (if a.2.2.1 then s1 else s1.deliver id a.2.1 k whole)

/-- The acknowledgement in a packet: acknowledged packets are done, and the window narrows or widens. -/
def takeAck (s : State) (id : W32) (k : SuiloPacket) : State :=
  if !k.ackValid then s
  else
    let s1 := s.modSession id fun y =>
      let left := y.unacked.filter fun u => decide (k.ack.toNat ≤ u.seq)
      let n := y.unacked.length - left.length
      if k.ceEcho then { y with unacked := left, window := max 4 (y.window / 2), clean := 0 }
      else if y.window ≤ y.clean + n then
        { y with unacked := left, window := min 64 (y.window + 1), clean := y.clean + n - y.window }
      else { y with unacked := left, clean := y.clean + n }
    match s1.session? id with
    | some x =>
      let s2 := drainQueued id x.queued.length s1
      match s2.session? id with
      | some y => if y.state = .closing ∧ y.unacked.isEmpty ∧ y.queued.isEmpty then s2.dropSession id else s2
      | none => s2
    | none => s1

/-- The rows' count of a frame that a port accepts. -/
def countFrame (s : State) (e : Nat) : State :=
  { s with eth := s.eth.modify e fun x => { x with rxFrames := x.rxFrames + 1 } }

/-- A protected packet of a session: the session's clock, its path, its acknowledgement, and its place in the order. A reply to the
latest probe moves the path as it comes, and does nothing more when its turn comes (R510). DEDUCED, log 59. -/
def suiloIn (s : State) (type : SType) (k : SuiloPacket) : State :=
  let s0 := s.countFrame k.port.val
  match s0.session? k.session with
  | none => s0
  | some x =>
    if x.state = .handshake then s0
    else
      let seq := k.seq.toNat
      let s1 := s0.modSession k.session fun y => { y with lastRx := s.now, highest := max y.highest seq }
      let reply := type == .path && x.probing && leNat (k.payload.take 8) == x.probe
      let s2 := if x.highest < seq ∨ reply then s1.movePath k.session k.port.val k.from_ k.relayed else s1
      let s3 := s2.takeAck k.session k
      let s4 := s3.modSession k.session fun y =>
        { y with
          pathRx := if y.port = k.port.val ∧ y.addr = k.from_ ∧ y.relayed = k.relayed then s.now else y.pathRx
          ackCount := y.ackCount + 1, ackSince := some (y.ackSince.getD s.now), ceEcho := y.ceEcho || k.ce
          ahead := if decide (y.rxSeq ≤ seq) && decide (seq < y.rxSeq + 64) && y.ahead.all fun a => a.1 != seq then
              y.ahead ++ [(seq, if reply then SType.ack.code else type.code, k.more, k.payload)]
            else y.ahead }
      let s5 := deliverNext k.session k 64 s4
      match s5.session? k.session with
      | some y => if 8 ≤ y.ackCount ∧ y.state ≠ .closing then s5.sendSuilo k.session .ack [] else s5
      | none => s5

/-- A Suilo packet with the twin's serial goes to the twin in RELAY packets (R511); one with this device's is handled. -/
def suiloRow (s : State) (type : SType) (k : SuiloPacket) (go : State) : State :=
  if k.serial = s.serial then go
  else if s.twinRelays && k.serial == s.pair.twinSerial then
    (s.countFrame k.port.val).relayToTwin
      (suiloHeader type.code k.more k.ceEcho k.relayed k.session k.serial k.seq.toNat (if k.ackValid then some k.ack.toNat else none)
        k.payload.length ++ k.payload)
  else { s with eth := s.eth.modify k.port.val fun e => { e with suiloBad := e.suiloBad + 1 } }

end State

/-! ### The rows -/

def execSuiloMbx (k : SuiloPacket) (s : State) : Host.Outcome State Fault Refusal := .next (s.suiloRow .mbx k (s.suiloIn .mbx k))
def execSuiloDoorbell (k : SuiloPacket) (s : State) : Host.Outcome State Fault Refusal := .next (s.suiloRow .doorbell k (s.suiloIn .doorbell k))
def execSuiloAck (k : SuiloPacket) (s : State) : Host.Outcome State Fault Refusal := .next (s.suiloRow .ack k (s.suiloIn .ack k))
def execSuiloKeepalive (k : SuiloPacket) (s : State) : Host.Outcome State Fault Refusal :=
  .next (s.suiloRow .keepalive k (s.suiloIn .keepalive k))
def execSuiloPath (k : SuiloPacket) (s : State) : Host.Outcome State Fault Refusal := .next (s.suiloRow .path k (s.suiloIn .path k))
def execSuiloClose (k : SuiloPacket) (s : State) : Host.Outcome State Fault Refusal := .next (s.suiloRow .close k (s.suiloIn .close k))

namespace State

/-- A resend is due once the packet's interval has passed; the interval doubles up to 3,200,000 cycles. DESIGN CHOICE, log 113. -/
def retransmit (s : State) (id : W32) (seq : Nat) : State :=
  match s.session? id with
  | none => s
  | some x =>
    match x.unacked.find? fun u => u.seq == seq with
    | none => s
    | some u =>
      if s.now - u.sentAt ≤ u.interval then s
      else
        (s.resend id fun v => v.seq == seq).modSession id fun y =>
          { y with unacked := y.unacked.map fun v =>
              if v.seq = seq then { v with sentAt := s.now, interval := min 3200000 (2 * v.interval) } else v }

/-- An acknowledgement goes out once 100,000 cycles have passed since a packet came. -/
def ackTimer (s : State) (id : W32) : State :=
  match s.session? id with
  | some x =>
    match x.ackSince with
    | some t => if 100000 ≤ s.now - t then s.sendSuilo id .ack [] else s
    | none => s
  | none => s

/-- KEEPALIVE after 1,000,000 cycles with nothing to send. -/
def keepalive (s : State) (id : W32) : State :=
  match s.session? id with
  | some x =>
    if x.state ≠ .handshake ∧ 1000000 ≤ s.now - x.lastTx ∧ x.queued.isEmpty then s.sendSuilo id .keepalive [] else s
  | none => s

/-- 30 s without an authenticated packet close a session. -/
def idleTimeout (s : State) (id : W32) : State :=
  match s.session? id with
  | some x => if x.state ≠ .handshake ∧ 3000000000 < s.now - x.lastRx then s.dropSession id else s
  | none => s

/-- A handshake of more than 1 s ends with REFUSE (R505), whose status no rule names and is free. DESIGN CHOICE, log 139. -/
def handshakeTimeout (s : State) (id : W32) : State :=
  match s.session? id with
  | some x =>
    if x.state = .handshake ∧ 100000000 < s.now - x.startedAt then
      let (v, s1) := s.fresh
      (s1.sendPlain x .refuse (toLe 2 v.toNat)).dropSession x.id
    else s
  | none => s

def closingTimeout (s : State) (id : W32) : State :=
  match s.session? id with
  | some x => if x.state = .closing ∧ 10000000 < s.now - x.closeAt then s.dropSession id else s
  | none => s

/-- A path silent for more than 30 ms, or whose port is down, is left. -/
def pathLoss (s : State) (id : W32) : State :=
  match s.session? id with
  | some x =>
    if (x.state = .opened ∨ x.state = .claim) ∧ !x.probing ∧
        (3000000 < s.now - x.pathRx ∨ (!x.relayed ∧ !(s.ethPort x.port).up)) then s.probePaths id
    else s
  | none => s

def probeRetry (s : State) (id : W32) : State :=
  match s.session? id with
  | some x => if x.probing ∧ 10000000 ≤ s.now - x.probedAt then s.probePaths id else s
  | none => s

end State

def execSuiloRetransmit (session : W32) (seq : Nat) (s : State) : Host.Outcome State Fault Refusal :=
  .next (s.retransmit session seq)
def execSuiloAckTimer (session : W32) (s : State) : Host.Outcome State Fault Refusal := .next (s.ackTimer session)
def execKeepaliveTimer (session : W32) (s : State) : Host.Outcome State Fault Refusal := .next (s.keepalive session)
def execSessionIdleTimeout (session : W32) (s : State) : Host.Outcome State Fault Refusal := .next (s.idleTimeout session)
def execHandshakeTimeout (session : W32) (s : State) : Host.Outcome State Fault Refusal := .next (s.handshakeTimeout session)
def execClosingTimeout (session : W32) (s : State) : Host.Outcome State Fault Refusal := .next (s.closingTimeout session)
def execPathLoss (session : W32) (s : State) : Host.Outcome State Fault Refusal := .next (s.pathLoss session)
def execPathProbeRetry (session : W32) (s : State) : Host.Outcome State Fault Refusal := .next (s.probeRetry session)

end Sys2Proof.Machine
end

