-- ==== Sys2Proof/Machine/Areas.lean ====
section
/-! DEFINITION. Areas of Edern memory that commands name: rings and their headers (R88, R205, R483), the areas of jobs (R474),
and free values for keys, nonces and identities. -/

namespace Sys2Proof.Machine

/-- Put an element where its key keeps the list ascending. -/
def insertBy {α : Type} (key : α → Nat) (x : α) : List α → List α
  | [] => [x]
  | y :: ys => if key x < key y then x :: y :: ys else y :: insertBy key x ys

/-- Bytes of a ring with its header. -/
def ringLen (k : RingKind) (slots : Nat) : Nat := 0x40 + slots * k.recBytes

/-- A ring's slot count: a power of two in a range of exponents. -/
def powerIn (n lo hi : Nat) : Bool := (List.range' lo (hi - lo + 1)).any fun k => n == 2 ^ k

/-- Whether [a, a + n) lies in the populated memory of one stack. DEDUCED, log 75. -/
def inEdern (a n : Nat) : Bool := isEdern a && oneRegion a (max n 1)

namespace State

/-- A ring's 64-byte header as it is set up: indexes and lost 0, then the slot count. DEDUCED, log 71. -/
def initRing (s : State) (base slots : Nat) : State :=
  s.ownStore base (List.replicate 0x18 0 ++ toLe 4 slots ++ List.replicate 0x24 0)

/-- The areas that job.create names for a job (R474). -/
def jobAreas (s : State) (j : Job) : List Range :=
  [⟨j.descBase, j.descEntries * 0x40⟩, ⟨j.stashBase, j.stashBytes⟩] ++
    (if j.watchBase = 0 then [] else [⟨j.watchBase, 0x40 + j.watchSlots * 0x80⟩]) ++
    (s.rings.filter fun r => r.id == j.eq).map fun r => ⟨r.base, ringLen r.kind r.slots⟩

/-- Whether a range meets an area of any job. DEDUCED, log 75. -/
def meetsAreas (s : State) (a n : Nat) : Bool := s.jobs.any fun j => (s.jobAreas j).any fun r => r.meets a n

/-- `n` free words as bytes. DESIGN CHOICE, log 11. -/
def freshBytes : Nat → State → List Byte × State
  | 0, s => ([], s)
  | n + 1, s =>
    let (v, s1) := s.fresh
    let (bs, s2) := freshBytes n s1
    (toLe 8 v.toNat ++ bs, s2)

/-- A free 32-bit identity that is not 0 and not in use; where the free value is either, the lowest that is neither.
DESIGN CHOICE, log 11. -/
def freshId (s : State) (used : List W32) : W32 × State :=
  let (v, s1) := s.fresh
  let w : W32 := v.setWidth 32
  let ok (x : W32) : Bool := x != 0 && !used.contains x
  (if ok w then w else (((List.range (used.length + 2)).map fun n => BitVec.ofNat 32 n).find? ok).getD 0, s1)

end State

end Sys2Proof.Machine
end

