-- ==== Sys2Proof/Machine/Net.lean ====
section
/-! DEFINITION. The Ethernet ports: link and addresses (R491 to R494), flow control (R493), drops (R494, R500), congestion
(R495), and the RoCEv2 responder (R497 to R499). -/

namespace Sys2Proof.Machine

/-- `n` big-endian bytes of a value. -/
def toBe (n v : Nat) : List Byte := (toLe n v).reverse

namespace State

def modEth (s : State) (e : Nat) (f : EthPort → EthPort) : State := { s with eth := s.eth.modify e f }

/-- A frame leaves a port; its destination is the address given, where 0 stands for the sender of the frame that it answers.
DESIGN CHOICE, log 13, DESIGN CHOICE, log 73. -/
def sendEth (s : State) (e : Nat) (dst : BitVec 160) (bs : List Byte) : State :=
  ({ s with out := s.out ++ [.eth e dst bs] } : State).modEth e fun x => { x with txFrames := x.txFrames + 1 }

/-! ### The link (R491, R492, R499, R510) -/

/-- Auto-negotiation completes: the port is up at its selected speed. Without the crystal no Ethernet link comes up (R524). -/
def ethUp (s : State) (e : Nat) : State :=
  let x := s.ethPort e
  if x.enable && s.pacer.crystal && !x.up then s.modEth e fun y => { y with up := true, speedNow := y.speed } else s

/-- A port goes down: its queue pairs enter the error state, and its sessions leave their path at once. -/
def ethDown (s : State) (e : Nat) : State :=
  if !(s.ethPort e).up then s
  else
    let s1 := (s.modEth e fun y => { y with up := false, fill := 0, xoff := false, paused := List.replicate 8 0 })
    let s2 : State := { s1 with qps := s1.qps.map fun q => if q.port = e then { q with error := true } else q }
    (s2.sessions.filter fun x =>
      (x.state == .opened || x.state == .claim) && x.port == e && !x.relayed && !x.probing).foldl (fun s x => s.probePaths x.id) s2

/-- The register fields of `eth.ethN.ctl` as a write leaves them: reserved codes are ignored (R13); a port that is turned off
goes down, and a changed speed retrains it. DEDUCED, log 90. -/
def ethControl (s : State) (e : Nat) (v : Nat) : State :=
  let x := s.ethPort e
  let fc := bitsAt v 12 2
  let s1 := s.modEth e fun y =>
    { y with
      vlanEn := bitAt v 32, vlanId := BitVec.ofNat 12 (bitsAt v 20 12), pcpRoce := BitVec.ofNat 3 (bitsAt v 17 3)
      pcpSuilo := BitVec.ofNat 3 (bitsAt v 14 3), fc := if fc = 3 then y.fc else BitVec.ofNat 2 fc
      pfcMask := BitVec.ofNat 8 (bitsAt v 4 8), speed := bitAt v 1, enable := bitAt v 0 }
  if !bitAt v 0 || x.speed != bitAt v 1 then s1.ethDown e else s1

/-! ### The protocols of a port (R494) -/

/-- A frame that the port accepts. -/
def ethFrame (s : State) (e : Nat) (go : State → State) : State :=
  if (s.ethPort e).up then go (s.countFrame e) else s

/-- The MAC address of a port, and its EUI-64 link-local address. DESIGN CHOICE, log 114. -/
def macOf (e : Nat) : Nat := (macBase + e) % 2 ^ 48

def linkLocal (e : Nat) : BitVec 128 :=
  let m := macOf e
  BitVec.ofNat 128 (0xFE80 <<< 112 ||| ((m >>> 24) ^^^ 0x02_0000) <<< 40 ||| 0xFFFE <<< 24 ||| m % 2 ^ 24)

def ownsV6 (s : State) (e : Nat) (a : BitVec 128) : Bool :=
  a == linkLocal e || (a == (s.ethPort e).ipv6 && a != 0)

def ownsV4 (s : State) (e : Nat) (a : W32) : Bool := a == (s.ethPort e).ipv4 && a != 0

def arpReply (s : State) (e : Nat) (target : W32) : State :=
  s.ethFrame e fun s =>
    if s.ownsV4 e target then s.sendEth e 0 (toBe 6 (macOf e) ++ toBe 4 target.toNat) else s

def neighbourReply (s : State) (e : Nat) (target : BitVec 128) : State :=
  s.ethFrame e fun s =>
    if s.ownsV6 e target then s.sendEth e 0 (toBe 16 target.toNat ++ toBe 6 (macOf e)) else s

/-- An echo request to the port's own address is answered with its data. -/
def echoReply (s : State) (e : Nat) (v6 : Bool) (target : BitVec 128) (data : List Byte) : State :=
  s.ethFrame e fun s =>
    if (if v6 then s.ownsV6 e target else s.ownsV4 e (target.setWidth 32)) then s.sendEth e 0 data else s

/-- A lease or a SLAAC address; a static IPv4 address stands in place of DHCPv4. DEDUCED, log 89. -/
def lease (s : State) (e : Nat) (v4 : Option W32) (v6 : Option (BitVec 128)) : State :=
  s.ethFrame e fun s => s.modEth e fun x =>
    { x with ipv4 := if x.fixed.isSome then x.ipv4 else v4.getD x.ipv4, ipv6 := v6.getD x.ipv6 }

/-! ### Flow control and drops (R493, R494, R500) -/

/-- A pause frame's quanta of 512 bit times in timer cycles, rounded up. DESIGN CHOICE, log 73. -/
def pauseCycles (x : EthPort) (quanta : Nat) : Nat := ceilDiv (512 * quanta) (if x.speedNow then 1000 else 2000)

/-- A received pause frame: under 802.3 pause every priority waits, under PFC those of the frame that are in the mask.
DESIGN CHOICE, log 73. -/
def pause (s : State) (e : Nat) (prio : Byte) (quanta : Nat) : State :=
  s.ethFrame e fun s =>
    let x := s.ethPort e
    let hit (i : Nat) : Bool := if x.fc = 1 then true else x.fc == 2 && prio.getLsbD i && x.pfcMask.getLsbD i
    s.modEth e fun y =>
      { y with paused := (List.range 8).map fun i => if hit i then s.now + pauseCycles y quanta else y.paused.getD i 0 }

/-- A pause frame that the port sends. -/
def pauseFrame (s : State) (e : Nat) (on : Bool) : State :=
  let x := s.ethPort e
  s.sendEth e 0 (toBe 2 (if x.fc = 2 then 0x0101 else 0x0001) ++ (if x.fc = 2 then [0, x.pfcMask] else []) ++
    toBe 2 (if on then 0xFFFF else 0))

/-- The buffer has drained to 512 KiB. -/
def drained (s : State) (e : Nat) : State :=
  let x := s.ethPort e
  if x.up && x.xoff then (s.modEth e fun y => { y with xoff := false, fill := 0x8_0000 }).pauseFrame e false
  else s.modEth e fun y => { y with fill := min y.fill 0x8_0000 }

def countDrop (s : State) (e : Nat) : State := s.modEth e fun x => { x with rxDrop := x.rxDrop + 1 }

/-- A frame meets a receive buffer that holds `bytes`: with flow control off a full one drops it; with flow control on, more
than 768 KiB sends XOFF. -/
def bufferAt (s : State) (e bytes : Nat) : State :=
  let x := s.ethPort e
  let s1 := s.modEth e fun y => { y with fill := min bytes 0x10_0000 }
  if x.fc = 0 then (if 0x10_0000 ≤ bytes then s1.countDrop e else s1)
  else if 0xC_0000 < bytes ∧ !x.xoff then (s1.modEth e fun y => { y with xoff := true }).pauseFrame e true
  else s1

def dropFrame (s : State) (e : Nat) (why : DropCause) : State :=
  if !(s.ethPort e).up then s
  else
    match why with
    | .protocol => s.countDrop e
    | .transport => s.countDrop e
    | .bufferFull n => s.bufferAt e n

/-- A session that does not exist, for a datagram that is answered without one. -/
def strayTo (s : State) (e : Nat) (dst : BitVec 160) (id : W32) (type : SType) (relayed : Bool) (payload : List Byte) : State :=
  let x : Session :=
    { id := id, mailbox := 0, state := .handshake, claim := false, keyId := 0, addrA := 0, addrB := 0, port := e, addr := dst
      relayed := relayed, eqBase := 0, eqSlots := 0, hello := [], hreply := [], startedAt := 0, lastRx := 0, lastTx := 0 }
  s.sendPlain x type payload

/-- A REFUSE for an unknown session, at most one in any 10,000,000 cycles for each source address (R500). -/
def refuseStray (s : State) (e : Nat) (src : BitVec 160) : State :=
  let recent := s.starter.refused.any fun r => r.1 == src && decide (s.now - r.2 ≤ 10000000)
  if recent then s
  else
    let kept := s.starter.refused.filter fun r => r.1 != src
    ({ s with starter := { s.starter with refused := kept ++ [(src, s.now)] } } : State).strayTo e src 0 .refuse false
      (toLe 2 Status.noSuch.code)

def suiloFlawed (s : State) (e : Nat) (why : SuiloFlaw) (src : BitVec 160) : State :=
  s.ethFrame e fun s =>
    match why with
    | .unknownSession => s.refuseStray e src
    | .header | .tag | .serial => s.modEth e fun x => { x with suiloBad := x.suiloBad + 1 }

/-! ### Congestion (R495) -/

def qp? (s : State) (n : Nat) : Option Qp := s.qps.find? fun q => q.qpn == n

def modQp (s : State) (n : Nat) (f : Qp → Qp) : State :=
  { s with qps := s.qps.map fun q => if q.qpn = n then f q else q }

/-- What a RoCEv2 packet says to the requester's queue pair. DEDUCED, log 72. -/
inductive RoceReply where
  | ack | cnp | nakInvalid | nakAccess | nakOperation | rnr
  deriving DecidableEq, Repr

def RoceReply.code : RoceReply → Nat
  | .ack => 0 | .cnp => 1 | .nakInvalid => 2 | .nakAccess => 3 | .nakOperation => 4 | .rnr => 5

/-- A reply to a queue pair: what it says, the requester's queue pair, the PSN, and further bytes. DEDUCED, log 72. -/
def roce (s : State) (q : Qp) (r : RoceReply) (more : List Byte) : State :=
  s.sendEth q.port ((0 : BitVec 32) ++ q.gid) (toLe 1 r.code ++ toBe 3 q.hostQpn ++ toBe 3 q.hostPsn ++ more)

/-- A packet marked CE: one CNP per queue pair in any 5,000 cycles. -/
def congested (s : State) (q : Qp) (ce : Bool) : State :=
  let due := match q.cnpSent with
    | some t => decide (5000 < s.now - t)
    | none => true
  if ce && due then
    ((s.modQp q.qpn fun x => { x with cnpSent := some s.now }).roce q .cnp []).modEth q.port fun x =>
      { x with cnpTx := x.cnpTx + 1 }
  else s

/-- A CNP halves the READ response rate. -/
def cnpIn (s : State) (n : Nat) : State :=
  s.modQp n fun q => if q.error then q else { q with rateExp := q.rateExp + 1, cnpHeard := some s.now }

/-- The rate rises by 1/16 of the port rate for 50 µs without a CNP, up to the port rate. -/
def rateUp (s : State) (n : Nat) : State :=
  s.modQp n fun q =>
    match q.cnpHeard with
    | some t =>
      if s.now - t < 5000 then q
      else if 16 * 2 ^ q.rateExp ≤ q.rateNum + 2 ^ q.rateExp then { q with rateNum := 16, rateExp := 0, cnpHeard := none }
      else { q with rateNum := q.rateNum + 2 ^ q.rateExp, cnpHeard := some (t + 5000) }
    | none => q

/-! ### The responder (R497 to R499) -/

/-- A queue pair enters the error state with a reply. -/
def qpError (s : State) (q : Qp) (r : RoceReply) : State := (s.roce q r []).modQp q.qpn fun x => { x with error := true }

/-- A request on a queue pair that works: its port's frame is counted, its mark noted. -/
def onQp (s : State) (n : Nat) (ce : Bool) (go : Qp → State → State) : State :=
  match s.qp? n with
  | none => s
  | some q =>
    if q.error || !(s.ethPort q.port).up then s
    else go q ((s.countFrame q.port).congested q ce)

/-- The PSNs that a message of a length takes. DEDUCED, log 72. -/
def psnNext (q : Qp) (len : Nat) : Nat := (q.hostPsn + max 1 (ceilDiv len q.mtu)) % 2 ^ 24

/-- Acknowledge a message. -/
def roceDone (s : State) (q : Qp) (len : Nat) (r : RoceReply) (more : List Byte) : State :=
  (s.roce q r more).modQp q.qpn fun x => { x with hostPsn := psnNext x len }

/-- The receive ring of a queue pair. DEDUCED, log 72. -/
def qpFull (s : State) (q : Qp) : Bool := decide (q.ringSlots ≤ (s.read64 q.ringBase - s.read64 (q.ringBase + 8)).toNat)

/-- The poisoned line that a receive record and the ring's header meet in part (R272). -/
def qpLine (s : State) (q : Qp) (len : Nat) : Option Nat :=
  let a := q.ringBase + 0x40 + ((s.read64 q.ringBase).toNat % q.ringSlots) * 0x1040
  let n := 0x40 + len
  s.poisoned.find? fun l =>
    (decide (l < q.ringBase + 0x40) && decide (q.ringBase < l + 256)) ||
      (decide (l < a + n) && decide (a < l + 256) && !(decide (a ≤ l) && decide (l + 256 ≤ a + n)))

/-- Write a receive record, then advance write_index. DEDUCED, log 72. -/
def qpRecord (s : State) (q : Qp) (len : Nat) (imm : Option W32) (cls : Nat) (data : List Byte) : State :=
  let w := s.read64 q.ringBase
  let rec_ := toLe 4 len ++ toLe 4 (match imm with
      | some v => v.toNat
      | none => 0) ++ toLe 1 cls ++ List.replicate 0x37 0 ++ data
  (s.store (q.ringBase + 0x40 + (w.toNat % q.ringSlots) * 0x1040) rec_).store64 q.ringBase (w + 1)

/-- A receive record, and the message's acknowledgement; a poisoned line in its way is a detected fault, and the requester sees
a failed operation (R272). DEDUCED, log 72. -/
def qpDeliver (s : State) (q : Qp) (len : Nat) (imm : Option W32) (cls : Nat) (data : List Byte) : State :=
  match s.qpLine q data.length with
  | some l => (s.strike l).qpError q .nakOperation
  | none => (s.qpRecord q len imm cls data).roceDone q len .ack []

def roceSend (s : State) (n : Nat) (imm : Option W32) (ce : Bool) (data : List Byte) : State :=
  s.onQp n ce fun q s =>
    if 4096 < data.length then s.roce q .nakInvalid []
    else if s.qpFull q then s.roce q .rnr (toLe 1 q.rnr)
    else s.qpDeliver q data.length imm (if imm.isSome then 1 else 0) data

/-- Whether an R_Key of the queue pair's session grants a range, and R35 allows it (R498). -/
def rdmaAllowed (s : State) (q : Qp) (write : Bool) (key : W32) (va : W64) (n : Nat) : Bool :=
  decide (va.toNat < 2 ^ 52) &&
    match s.session? q.session with
    | some x =>
      (x.regions.any fun r => r.key == key && decide (r.base ≤ va.toNat) && decide (va.toNat + n ≤ r.base + r.len) &&
        (if write then r.write else r.read)) &&
        (n == 0 || (s.refusal (.external q.session) write va.toNat n).isNone)
    | none => false

/-- The command queue whose doorbell a write under the doorbell key rings. -/
def rdmaDoorbell? (s : State) (q : Qp) (key : W32) (va : W64) (n : Nat) : Option Nat :=
  match s.session? q.session, regionOf va.toNat with
  | some x, .doorbell d =>
    if x.state = .opened ∧ x.doorbellKey = key ∧ va.toNat % 0x1000 = 0 ∧ n = 8 ∧ (s.queue? d).isSome then some d else none
  | _, _ => none

/-- What a write performs; none where it is not allowed. DEDUCED, log 72. -/
def rdmaPut? (s : State) (q : Qp) (key : W32) (va : W64) (data : List Byte) : Option State :=
  match s.rdmaDoorbell? q key va data.length with
  | some d => some (s.ringQueue d (BitVec.ofNat 64 (leNat data)))
  | none =>
    if s.rdmaAllowed q true key va data.length then
      some ((linesOf va.toNat data.length).foldl (writeLinePart (.external q.session) va.toNat data) s)
    else none

def roceWrite (s : State) (n : Nat) (key : W32) (va : W64) (imm : Option W32) (ce : Bool) (data : List Byte) : State :=
  s.onQp n ce fun q s =>
    if 2 ^ 31 < data.length then s.roce q .nakInvalid []
    else if imm.isSome && s.qpFull q then s.roce q .rnr (toLe 1 q.rnr)
    else
      match s.rdmaPut? q key va data with
      | none => s.qpError q .nakAccess
      | some s1 =>
        if imm.isSome then s1.qpDeliver q data.length imm 2 [] else s1.roceDone q data.length .ack []

/-- A READ: its data in the response; a poisoned line is a detected fault, and the requester sees a failed operation (R272). -/
def roceRead (s : State) (n : Nat) (key : W32) (va : W64) (len : Nat) (ce : Bool) : State :=
  s.onQp n ce fun q s =>
    if 2 ^ 31 < len then s.roce q .nakInvalid []
    else if !s.rdmaAllowed q false key va len then s.qpError q .nakAccess
    else
      let a := va.toNat
      match s.poisoned.find? fun l => decide (l < a + len) && decide (a < l + 256) with
      | some l => (s.detect false { mech := Mech.poisonRead.code, cls := 3, index := stackOf l, addr := l }).qpError q .nakOperation
      | none => ((s.recallBlocks a len)).roceDone q len .ack (s.bytes a len)

def roceAtomic (s : State) (n : Nat) : State := s.onQp n false fun q s => s.qpError q .nakInvalid

end State

/-! ### The rows -/

def execEthLinkUp (e : Fin 8) (s : State) : Host.Outcome State Fault Refusal := .next (s.ethUp e.val)
def execEthLinkDown (e : Fin 8) (s : State) : Host.Outcome State Fault Refusal := .next (s.ethDown e.val)
def execArp (e : Fin 8) (target : W32) (s : State) : Host.Outcome State Fault Refusal := .next (s.arpReply e.val target)
def execNeighborDiscovery (e : Fin 8) (target : BitVec 128) (s : State) : Host.Outcome State Fault Refusal :=
  .next (s.neighbourReply e.val target)
def execEcho (e : Fin 8) (v6 : Bool) (target : BitVec 128) (data : List Byte) (s : State) : Host.Outcome State Fault Refusal :=
  .next (s.echoReply e.val v6 target data)
def execDhcpLease (e : Fin 8) (v4 : Option W32) (v6 : Option (BitVec 128)) (s : State) : Host.Outcome State Fault Refusal :=
  .next (s.lease e.val v4 v6)
def execPauseFrame (e : Fin 8) (prio : Byte) (quanta : Nat) (s : State) : Host.Outcome State Fault Refusal :=
  .next (s.pause e.val prio quanta)
def execXon (e : Fin 8) (s : State) : Host.Outcome State Fault Refusal := .next (s.drained e.val)
def execRxDrop (e : Fin 8) (why : DropCause) (s : State) : Host.Outcome State Fault Refusal := .next (s.dropFrame e.val why)
def execSuiloBad (e : Fin 8) (why : SuiloFlaw) (from_ : BitVec 160) (s : State) : Host.Outcome State Fault Refusal :=
  .next (s.suiloFlawed e.val why from_)
def execSend (qp : Nat) (imm : Option W32) (ce : Bool) (data : List Byte) (s : State) : Host.Outcome State Fault Refusal :=
  .next (s.roceSend qp imm ce data)
def execRdmaWrite (qp : Nat) (rkey : W32) (va : W64) (imm : Option W32) (ce : Bool) (data : List Byte) (s : State) :
    Host.Outcome State Fault Refusal :=
  .next (s.roceWrite qp rkey va imm ce data)
def execRdmaRead (qp : Nat) (rkey : W32) (va : W64) (len : Nat) (ce : Bool) (s : State) : Host.Outcome State Fault Refusal :=
  .next (s.roceRead qp rkey va len ce)
def execRdmaAtomic (qp : Nat) (s : State) : Host.Outcome State Fault Refusal := .next (s.roceAtomic qp)
def execCnp (qp : Nat) (s : State) : Host.Outcome State Fault Refusal := .next (s.cnpIn qp)
def execCnpRateRecovery (qp : Nat) (s : State) : Host.Outcome State Fault Refusal := .next (s.rateUp qp)

end Sys2Proof.Machine
end

