-- ==== Sys2Proof/Machine/Handshake.lean ====
section
/-! DEFINITION. The handshake that opens a session: HELLO and its refusals (R505, R506, R508), AUTH, the session's keys (R507)
and AUTH_OK (R509). -/

namespace Sys2Proof.Machine

/-! ### The payloads of R506 -/

namespace Hello

def slice (bs : List Byte) (o n : Nat) : List Byte := (bs.drop o).take n
def field (bs : List Byte) (o n : Nat) : Nat := leNat (slice bs o n)

def kind (bs : List Byte) : Nat := field bs 0 1
def claim (bs : List Byte) : Bool := kind bs == 1
def keyId (bs : List Byte) : W64 := BitVec.ofNat 64 (field bs 0xB0 8)
/-- The host's address on a network, IPv4 then IPv6, each little-endian (R10). -/
def address (bs : List Byte) (net : Nat) : BitVec 160 :=
  BitVec.ofNat 32 (field bs (0xB8 + 20 * net) 4) ++ BitVec.ofNat 128 (field bs (0xBC + 20 * net) 16)
def eqBase (bs : List Byte) : Nat := field bs 0xE0 8
def eqSlots (bs : List Byte) : Nat := field bs 0xE8 4

/-- Reserved bytes are 0, the kind is one of the two, and a claim names no key. -/
def formed (bs : List Byte) : Bool :=
  bs.length == 0xEC && decide (kind bs ≤ 1) && field bs 1 7 == 0 && field bs 0xAD 3 == 0 && (!claim bs || keyId bs == 0)

end Hello

/-- The key ID of an owner key: the first 8 bytes of its SHA-512 (R509). -/
def ownerKeyId (key : List Byte) : W64 := BitVec.ofNat 64 (leNat ((Config.sha512 key).take 8))

/-- The device's identity key pair: its private half is number 0; the public key stands in fuses (DESIGN CHOICE, log 3). -/
def identityKey : List Byte := (List.range 133).map fun i => Config.fuseByte (0x200 + i)

/-- TH of R506: HELLO, then bytes 0x00 to 0x174 of HELLO_REPLY. -/
def transcript (hello reply : List Byte) : List Byte := Config.sha512 (hello ++ reply.take 0x175)

namespace State

/-- The lowest mailbox of 0 to 15 that no session holds and the Starter does not own. DESIGN CHOICE, log 11. -/
def freeMailbox (s : State) : Option Nat :=
  (List.range 16).find? fun m => (s.sessions.all fun x => x.mailbox != m) && !(s.mbox m).busy

/-- Why a HELLO is refused; of several the lowest code. DEDUCED, log 69. -/
def helloRefusal (s : State) (bs : List Byte) : Option Status :=
  let b := Hello.eqBase bs
  let n := ringLen .event (Hello.eqSlots bs)
  let bad := !Hello.formed bs || b % 4096 != 0 || !powerIn (Hello.eqSlots bs) 6 20 || !inEdern b n || s.meetsAreas b n
  if bad then some .badOperand
  else if !Hello.claim bs && !s.starter.owners.any fun k => ownerKeyId k == Hello.keyId bs then some .noAuth
  else if Hello.claim bs && s.owned then some .badState
  else if s.freeMailbox.isNone || (Hello.claim bs && (s.claimBusy || decide (s.now ≤ s.starter.lockUntil ∧ s.starter.lockUntil ≠ 0))) then some .busy
  else if Hello.claim bs && decide (s.dev.code < DevState.ready.code) then some .notReady
  else none

/-- HELLO: a mailbox, a session ID, a nonce and a share of the device; HELLO_REPLY goes out (R505, R506).
DESIGN CHOICE, log 11. -/
def helloIn (s : State) (k : SuiloPacket) : State :=
  let s0 := s.countFrame k.port.val
  let bs := k.payload
  match s0.helloRefusal bs with
  | some st => s0.strayTo k.port.val k.from_ 0 .refuse k.relayed (toLe 2 st.code)
  | none =>
    let m := s0.freeMailbox.getD 0
    let (id, s1) := s0.freshId (s0.sessions.map Session.id)
    let (nd, s2) := freshBytes 4 s1
    let y := (Config.ephemeralShare s2.free ++ List.replicate 133 0).take 133
    let head := toLe 4 id.toNat ++ toLe 1 m ++ List.replicate 3 0 ++ nd ++ y ++ List.replicate 3 0
    let confirm := if Hello.claim bs then (Config.spakeConfirm false (bs ++ head) ++ List.replicate 64 0).take 64
      else List.replicate 64 0
    let body := head ++ confirm ++ identityKey
    let reply := body ++ (Config.ecdsaSign 0 (transcript bs body) ++ List.replicate 132 0).take 132
    let x : Session :=
      { id := id, mailbox := m, state := .handshake, claim := Hello.claim bs, keyId := Hello.keyId bs
        addrA := Hello.address bs 0, addrB := Hello.address bs 1, port := k.port.val, addr := k.from_, relayed := k.relayed
        eqBase := Hello.eqBase bs, eqSlots := Hello.eqSlots bs, hello := bs, hreply := reply
        startedAt := s2.now, lastRx := s2.now, lastTx := s2.now }
    (({ s2 with free := s2.free + 1, sessions := s2.sessions ++ [x] } : State).sendPlain x .helloReply reply)

/-! ### AUTH -/

/-- Whether the proof that an AUTH carries holds: the owner's signature over TH, or confirmP and 68 zero bytes.
DESIGN CHOICE, log 10. -/
def authHolds (s : State) (x : Session) (bs : List Byte) : Bool :=
  let th := transcript x.hello x.hreply
  bs.length == 132 &&
    if x.claim then
      bs.take 64 == Config.spakeConfirm true (x.hello ++ x.hreply) && (bs.drop 64).all fun b => b == 0
    else
      match s.starter.owners.find? fun k => ownerKeyId k == x.keyId with
      | some key => Config.ecdsaVerify key th bs
      | none => false

/-- A failed claim: the fifth in a row and every one after it lock claims, for at most 86,400 s (R508). -/
def claimFailed (s : State) : State :=
  let f := s.starter.claimFail + 1
  { s with starter := { s.starter with
      claimFail := f
      lockUntil := if 5 ≤ f then s.now + 100000000 * min 86400 (60 * 2 ^ (f - 5)) else s.starter.lockUntil } }

/-- Addresses of the eight ports, and of the twin's, which the spec gives this device no way to learn and are free (R509).
DESIGN CHOICE, log 70. -/
def okAddresses (s : State) : List Byte × State :=
  let own := (List.range 8).flatMap fun e => toLe 4 (s.ethPort e).ipv4.toNat ++ toLe 16 (s.ethPort e).ipv6.toNat
  if s.pair.mode = .unpaired then (own ++ List.replicate 160 0, s)
  else
    let (t, s1) := freshBytes 20 s
    (own ++ t, s1)

/-- The backlog of device events goes to the first session that opens, with the events it lost (R485). -/
def deliverBacklog (s : State) (r : RingQ) : State :=
  let s1 := s.store64 (r.base + 0x10) (BitVec.ofNat 64 s.backlogLost)
  let s2 := s.backlog.foldl (fun s rec_ => ringEvent rec_ s r) s1
  { s2 with backlog := [], backlogLost := 0 }

/-- A session opens: its keys, its device event queue and doorbell key, and AUTH_OK as its first protected packet.
DESIGN CHOICE, log 11; DEDUCED, log 60, DEDUCED, log 71. -/
def openSession (s : State) (x : Session) : State :=
  let ks := Config.sessionKeys (x.hello ++ x.hreply)
  let (key, s1) := s.freshId (s.sessions.flatMap fun y => y.doorbellKey :: y.regions.map RdmaRegion.key)
  let r : RingQ := { id := 0xFF00 + x.mailbox, kind := .event, job := none, base := x.eqBase, slots := x.eqSlots, core := none }
  let s2 := (s1.initRing r.base r.slots)
  let s3 := if s2.deviceRings.isEmpty then s2.deliverBacklog r else s2
  let s4 : State := { s3 with rings := insertBy RingQ.id r s3.rings }
  let s5 := s4.modSession x.id fun y =>
    { y with
      state := if y.claim then .claim else .opened, keyIn := ks.1, keyOut := ks.2, doorbellKey := key, lastRx := s.now, pathRx := s.now
      subs := [(r.id, 0)] }
  let (addrs, s6) := s5.okAddresses
  s6.sendSuilo x.id .authOk (toLe 4 key.toNat ++ toLe 4 0 ++ addrs)

/-- AUTH completes the handshake or ends it with NO_AUTH. -/
def authIn (s : State) (k : SuiloPacket) : State :=
  let s0 := s.countFrame k.port.val
  match s0.session? k.session with
  | none => s0.refuseStray k.port.val k.from_
  | some x =>
    if x.state ≠ .handshake then s0
    else if s0.authHolds x k.payload then
      (if x.claim then ({ s0 with starter := { s0.starter with claimFail := 0, lockUntil := 0 } } : State) else s0).openSession x
    else (if x.claim then s0.claimFailed else s0).refuse x .noAuth

end State

def execSuiloHello (k : SuiloPacket) (s : State) : Host.Outcome State Fault Refusal := .next (s.suiloRow .hello k (s.helloIn k))
def execSuiloAuth (k : SuiloPacket) (s : State) : Host.Outcome State Fault Refusal := .next (s.suiloRow .auth k (s.authIn k))

end Sys2Proof.Machine
end

