-- ==== Sys2Proof/Machine/RegWrite.lean ====
section
/-! DEFINITION. Writes of registers under their access codes (R11, R13), reads that clear (R11), and the debug port's accesses
to heats and trace capture (R31, R444). -/

namespace Sys2Proof.Machine

namespace State

/-! ### Registers with RW or W1C fields -/

/-- `top`: causes of the NMI are cleared by writing 1; a write of the watchdog kicks it (R463). -/
def writeTop (s : State) (o : Nat) (v : W64) : State :=
  if o = 0x2000 then { s with starter := { s.starter with nmi := s.starter.nmi &&& ~~~(v.setWidth 5) } }
  else if o = 0x2008 then s.kick (v.setWidth 32)
  else s

/-- `pacer.pace.requested`: only the Starter writes it; code 3 is reserved (R13, R536). -/
def writePacer (s : State) (src : Initiator) (o : Nat) (v : W64) : State :=
  if o = 0x100 ∧ src = .starter then
    match Pace.ofCode (bitsAt v.toNat 0 2) with
    | some p => { s with pace := { s.pace with requested := p } }
    | none => s
  else s

/-- `judge.X.ctl`: a rate outside 10 to 16 is ignored (R383). -/
def writeJudge (s : State) (j o : Nat) (v : W64) : State :=
  let k := bitsAt v.toNat 0 5
  if o = 0 ∧ 10 ≤ k ∧ k ≤ 16 then { s with judges := s.judges.modify j fun x => { x with rate := k } } else s

/-- `edern.eN.patrol_ctl`: a period outside 60 to 480 min is ignored (R277). -/
def writeEdern (s : State) (e o : Nat) (v : W64) : State :=
  let p := bitsAt v.toNat 0 9
  if o = 0x100 ∧ 60 ≤ p ∧ p ≤ 480 then s.modStack e fun x => { x with patrolPeriod := p } else s

/-- `track.cdN.wd_limit`: a limit outside 10,000 to 500,000 is ignored (R424). -/
def writeTrack (s : State) (d o : Nat) (v : W64) : State :=
  let l := bitsAt v.toNat 0 20
  if o = 0 ∧ 10000 ≤ l ∧ l ≤ 500000 then { s with tracks := s.tracks.modify d fun x => { x with limit := l } } else s

/-- Trace capture goes on or off; a capture starts at record 0 (R444). -/
def setTrace (s : State) (n : Nat) (on : Bool) : State :=
  s.modCore n fun c => if c.trace == on then c else { c with trace := on, traceCnt := if on then 0 else c.traceCnt }

/-- `hc.hcN`: the reset vector; trace capture only by the debug port (R443). -/
def writeHc (s : State) (src : Initiator) (n o : Nat) (v : W64) : State :=
  if o = 0x008 then s.modCore n fun c => { c with resetVec := v.setWidth 52 }
  else if o = 0x020 ∧ src = .debug then s.setTrace n (v.getLsbD 0)
  else s

/-- A write of a register of a block at an aligned offset; read-only registers and offsets outside any register ignore it
(R11, R13). -/
def writeBlock (s : State) (src : Initiator) (b o : Nat) (v : W64) : State :=
  if b = 0 then s.writeTop o v
  else if b = 1 then s.writePacer src o v
  else if b = 2 then (if o = 0x018 then s.setDrive (v.getLsbD 0) else s)
  else if b = 4 then (if o % 0x10_0000 = 0 ∧ o / 0x10_0000 < 8 then s.ethControl (o / 0x10_0000) v.toNat else s)
  else if 0x10 ≤ b ∧ b ≤ 0x16 then
    (if o = 0 then (s.setLoopback (b - 0x10) (v.getLsbD 1)).setEnable (b - 0x10) (v.getLsbD 0) else s)
  else if 0x18 ≤ b ∧ b ≤ 0x1A then s.writeJudge (b - 0x18) o v
  else if 0x20 ≤ b ∧ b ≤ 0x27 then s.writeEdern (b - 0x20) o v
  else if b = 0x30 ∨ b = 0x31 then s.writeTrack (b - 0x30) o v
  else if 0xB0 ≤ b ∧ b ≤ 0xCF then s.writeHc src (b - 0xB0) o v
  else s

/-- A write of bytes to an address that names registers: an aligned word; a part of a register is ignored. Memory takes the
bytes. DESIGN CHOICE, log 17. -/
def writeAt (s : State) (src : Initiator) (a : Nat) (bs : List Byte) : State :=
  let word := a % 8 == 0 && bs.length == 8
  let v : W64 := BitVec.ofNat 64 (leNat bs)
  match regionOf a with
  | .csr b => if word then s.writeBlock src b ((a - csrBase) % 0x100_0000) v else s
  | .doorbell q => if word && a % 0x1000 == 0 then s.ringQueue q v else s
  | .mailbox m =>
    let o := (a - mailboxBase) % 0x2000
    if o < 0x1000 then s.mboxAreaWrite m o bs
    else if !word then s
    else if o = 0x1000 then (if v.getLsbD 0 then s.ringMailbox m else s)
    else if o = 0x1008 then s.mboxStatusWrite m v.toNat
    else s
  | .edern _ => (linesOf a bs.length).foldl (writeLinePart src a bs) s
  | .reserved => s
  | _ => s.store a bs

/-- The bytes at an address, with what the read clears. DESIGN CHOICE, log 17. -/
def readAt (s : State) (a n : Nat) : State :=
  let (bs, s1) := s.readBytes a n
  s1.answer .ok bs

/-! ### Debug accesses to heats (R31) -/

/-- An access to a FUSED or RETIRED heat reads 0 and returns ABSENT; any other heat's window holds no register that the spec
gives, so that it reads 0 and ignores writes (R13). DEDUCED, log 112. -/
def debugHeat (s : State) (p : Nat) (write : Option W64) : State :=
  match s.unitMap.state[p]? with
  | some .fused => s.answer .absent (toLe 8 0)
  | some .retired => s.answer .absent (toLe 8 0)
  | _ => s.answer .ok (if write.isSome then [] else toLe 8 0)

end State

/-- The physical heat whose debug window an address lies in (R33). -/
def dbgHeat? (a : Nat) : Option Nat :=
  match regionOf a with
  | .csr b => if 0x100 ≤ b then some (b - 0x100) else none
  | _ => none

/-- REGISTER_WRITE (R11, R13, R31, R35). -/
def execRegisterWrite (src : Initiator) (addr : Nat) (data : List Byte) (s : State) : Host.Outcome State Fault Refusal :=
  .next (match s.refusal src true addr data.length, dbgHeat? addr with
    | some st, _ => s.answer st []
    | none, some p => s.debugHeat p (some (BitVec.ofNat 64 (leNat data)))
    | none, none => (s.writeAt src addr data).answer .ok [])

/-- READ_CLEAR (R11, R31, R35): the aligned 8 bytes of a register. -/
def execReadClear (src : Initiator) (addr : Nat) (s : State) : Host.Outcome State Fault Refusal :=
  .next (match s.refusal src false addr 8, dbgHeat? addr with
    | some st, _ => s.answer st []
    | none, some p => s.debugHeat p none
    | none, none => s.readAt addr 8)

/-- DEBUG_ACCESS (R31). -/
def execDebugAccess (heat : Fin 104) (_offset : Nat) (write : Option W64) (s : State) : Host.Outcome State Fault Refusal :=
  .next (s.debugHeat heat.val write)

/-- TRACE_ENABLE (R444). -/
def execTraceEnable (n : Fin 32) (on : Bool) (s : State) : Host.Outcome State Fault Refusal := .next (s.setTrace n.val on)

end Sys2Proof.Machine
end

