-- ==== Sys2Proof/Machine/Mailbox.lean ====
section
/-! DEFINITION. Mailbox commands: authority (R465, R472), messages and responses (R467, R469, R503, R329), the checks common to
all commands (R470, R471, R488), and the run of one command. -/

namespace Sys2Proof.Machine

/-- The authority letters of R465. -/
inductive Auth where
  | s | c | p | f
  deriving DecidableEq, Repr

/-- The authority of a mailbox; mailbox 55 has none. -/
def authOf (m : Nat) : Option Auth :=
  if m < 16 then some .s else if m < 48 then some .c else if m < 55 then some .p else if m = 55 then none
  else if m < 64 then some .f else none

/-- A failed check: its status, and the detail of R469. -/
abbrev Deny := Status × Nat

/-- One check, by what breaks it. -/
def deny (bad : Bool) (st : Status) (detail : Nat) : List Deny := if bad then [(st, detail)] else []

/-- The failure reported: the lowest status code, and of those the first field (R470). DEDUCED, log 67. -/
def worstDeny : List Deny → Option Deny
  | [] => none
  | d :: ds =>
    match worstDeny ds with
    | none => some d
    | some e => if d.1.code < e.1.code ∨ (d.1.code = e.1.code ∧ d.2 ≤ e.2) then some d else some e

/-- A row of the table of R473: code, authorities, whether it runs on a device without an owner (R472), and before READY
(R488). -/
structure Gate where
  code : Nat
  auth : List Auth
  unowned : Bool := false
  early : Bool := false
  deriving DecidableEq, Repr

/-- The command codes of R473. DEDUCED, log 68. -/
def commandCodes : List Nat :=
  [0x101, 0x102, 0x103, 0x104, 0x201, 0x202, 0x203, 0x204, 0x205, 0x301, 0x302, 0x303, 0x304, 0x305, 0x401, 0x501, 0x502, 0x601
   , 0x701, 0x702, 0x801, 0x901, 0x902, 0x903, 0xA01, 0xB01, 0xB02, 0xC01]

/-- Longest argument and result. -/
def bodyMax : Nat := 4080

namespace State

/-! ### The message area (R469) -/

/-- A field of the request's arguments. -/
def arg (s : State) (m o n : Nat) : Nat := s.read (mboxArea m + 0x10 + o) n

def argBytes (s : State) (m o n : Nat) : List Byte := s.bytes (mboxArea m + 0x10 + o) n

def reqCode (s : State) (m : Nat) : Nat := s.read (mboxArea m) 2
def reqSeq (s : State) (m : Nat) : Nat := s.read (mboxArea m + 2) 2
def reqLen (s : State) (m : Nat) : Nat := s.read (mboxArea m + 4) 2

/-- The port on which the Starter that reaches a mailbox of authority P is. -/
def mboxPort (m : Nat) : Nat := if m = 48 then 6 else m - 49

/-- Send a STARTER packet (R329). -/
def sendStarter (s : State) (p number : Nat) (response : Bool) (msg : List Byte) : State :=
  s.send p (s.mkPacket p .starter 0 0 number (if response then 1 else 0) 0 0 0 msg)

/-- What the Starter does when done is set: a session's response leaves as MBX_RESULT, a partner's on its port, and done is
cleared (R329, R503); a response without its session is discarded (R508). -/
def returnResponse (s : State) (m : Nat) (msg : List Byte) : State :=
  if m < 16 then
    let s1 := s.modMbox m fun x => { x with done := false }
    match s1.sessions.find? fun x => x.mailbox == m && x.state != .handshake with
    | some x => s1.sendSuilo x.id .mbxResult msg
    | none => s1
  else if 48 ≤ m ∧ m ≤ 54 then
    (s.modMbox m fun x => { x with done := false }).sendStarter (mboxPort m) (s.port (mboxPort m)).starterIn true msg
  else s

/-- The response: written into the message area, then result, seq, done and busy in one register write (R467). -/
def respond (s : State) (m : Nat) (st : Status) (detail : Nat) (result : List Byte) : State :=
  let seq := s.reqSeq m
  let msg := toLe 2 (s.reqCode m) ++ toLe 2 seq ++ toLe 2 result.length ++ toLe 2 st.code ++ toLe 4 detail ++ toLe 4 0 ++ result
  ((s.store (mboxArea m) msg).modMbox m fun x =>
    { x with busy := false, done := true, result := st.code, seq := seq }).returnResponse m msg

/-! ### The common checks -/

/-- Whether the mailbox may send the command (R472). -/
def authorised (s : State) (g : Gate) (m : Nat) : Bool :=
  match authOf m with
  | some a => g.auth.contains a && (a != .s || s.owned || g.unowned)
  | none => false

/-- Why a request is refused: a length that differs, then a device that is not READY, and after those the lowest status of
all checks (R470, R471, R488). DEDUCED, log 67. -/
def refuses (s : State) (g : Gate) (m len : Nat) (fails : List Deny) : Option Deny :=
  if s.reqLen m ≠ len ∨ bodyMax < len then some (.badLength, 0)
  else if !g.early && decide (s.dev.code < DevState.ready.code) then some (.notReady, 0)
  else
    worstDeny (deny (s.read (mboxArea m + 6) 10 != 0) .badOperand 0 ++ deny (!s.authorised g m) .noAuth 0 ++ fails)

/-- One mailbox command: nothing where the mailbox holds no request of this row. session.open and session.claim are carried out
by the handshake (R505), so that a mailbox that holds one finds its session open already. DEDUCED, log 67, DEDUCED, log 68. -/
def command (s : State) (g : Gate) (m len : Nat) (fails : List Deny) (go : State) : State :=
  if !(s.mbox m).busy || s.starter.stopped then s
  else if !commandCodes.contains (s.reqCode m) then s.respond m .badCommand 0 []
  else if s.reqCode m = 0x101 ∨ s.reqCode m = 0x102 then
    s.respond m (if authOf m = some .s then .badState else .noAuth) 0 []
  else if s.reqCode m ≠ g.code then s
  else
    match s.refuses g m len fails with
    | some d => s.respond m d.1 d.2 []
    | none => go

/-- The end of a command that succeeds. -/
def finishOk (s : State) (m : Nat) (result : List Byte) : State := s.respond m .ok 0 result

end State

end Sys2Proof.Machine
end

