-- ==== Sys2Proof/Machine/Twin.lean ====
section
/-! DEFINITION. SHADOW messages, by which the twins exchange generations (R303 to R305); the layout of their payload is
DESIGN CHOICE, log 22. -/

namespace Sys2Proof.Machine

/-- What the stage of a SHADOW packet says. DESIGN CHOICE, log 22. -/
inductive ShadowKind where
  | stream | confirm | refuse | resend | restore | request | again | release
  deriving DecidableEq, Repr

def ShadowKind.code : ShadowKind → Nat
  | .stream => 0 | .confirm => 1 | .refuse => 2 | .resend => 3 | .restore => 4 | .request => 5 | .again => 6 | .release => 7

def ShadowKind.ofCode (c : Nat) : Option ShadowKind :=
  [ShadowKind.stream, .confirm, .refuse, .resend, .restore, .request, .again, .release][c]?

/-- The address field that stands for the generation record. -/
def recordAddr : Nat := 2 ^ 64 - 1

/-- The bytes of a message: step, address, length, CRC-32C, then the data. DESIGN CHOICE, log 22. -/
def shadowBytes (step addr : Nat) (data : List Byte) : List Byte :=
  toLe 8 step ++ toLe 8 addr ++ toLe 4 data.length ++ toLe 4 (crc32c data).toNat ++ List.replicate 8 0 ++ data

namespace State

/-- Send a SHADOW message, cut into packets of 4,096 bytes; the hub's Judge samples the streamed granules by their first packet
(R381). -/
def sendShadow (s : State) (job : Nat) (kind : ShadowKind) (step addr : Nat) (data : List Byte) : State :=
  let bs := shadowBytes step addr data
  (List.range (ceilDiv bs.length 4096)).foldl (fun s i =>
    let k := s.mkPacket 6 .shadow job 0 (addr / granule % 2 ^ 32) (128 * i) 0 kind.code 0 ((bs.drop (4096 * i)).take 4096)
    (if kind = .stream ∧ i = 0 then s.sampleJudge 6 k (.crc data) (toLe 4 (crc32c data).toNat) else s).send 6 k) s

/-- Whether the pair port exchanges generations now. -/
def shadowing (s : State) : Bool := s.pair.mode == .shadow && s.pair.joined && (s.port 6).state == .up

/-- A job is destroyed: the twin releases its shadows of the job's generations (R473). DESIGN CHOICE, log 22. -/
def releaseShadows (s : State) (job : Nat) : State := if s.shadowing then s.sendShadow job .release 0 0 [] else s

end State

end Sys2Proof.Machine
end

