-- ==== Sys2Proof/Machine/Jobs.lean ====
section
/-! DEFINITION. The mailbox commands on jobs (R473, R474, R411), queues (R475 to R478), descriptors (R479) and debug breaks
(R261). -/

namespace Sys2Proof.Machine

/-- A command of the authorities S, C and F. -/
def gateScf (code : Nat) : Gate := { code := code, auth := [.s, .c, .f] }

/-! ### Generation records (R299, R300) -/

namespace GenRec

/-- How a record is read: `n` bytes from an offset, as a little-endian number. -/
abbrev Reader := Nat → Nat → Nat

def inMemory (s : State) (a : Nat) : Reader := fun o n => s.read (a + o) n
def inBytes (bs : List Byte) : Reader := fun o n => leNat ((bs.drop o).take n)

/-- The committed state that the queue entry at an offset holds, with its queue ID. -/
def entry (rd : Reader) (e : Nat) : Nat × Committed :=
  let word (o : Nat) : W64 := BitVec.ofNat 64 (rd (e + o) 8)
  let laps := (List.range (min (rd (e + 3) 1) 8)).map fun k =>
    ({ pos := word (0x210 + 32 * k), d := rd (e + 0x218 + 32 * k) 8, count := word (0x220 + 32 * k)
       iter := word (0x228 + 32 * k) } : Lap)
  let hurdles := (List.range (min (rd (e + 4) 4) 8)).map fun k =>
    (rd (e + 0x310 + 16 * k) 2, rd (e + 0x312 + 16 * k) 6, rd (e + 0x318 + 16 * k) 8)
  (rd e 2,
    { position := word 8, sregs := (List.range 64).map fun r => word (0x10 + 8 * r)
      laps := laps.reverse, generate := bitAt (rd (e + 2) 1) 0, hurdles := hurdles })

def step (rd : Reader) : Nat := rd 0 8
def lap (rd : Reader) : Nat := rd 0x10 2
def count (rd : Reader) : Nat := rd 0x14 4
def size (rd : Reader) : Nat := 0x100 + 0x400 * count rd
def entries (rd : Reader) : List (Nat × Committed) := (List.range (count rd)).map fun i => entry rd (0x100 + 0x400 * i)

/-- The sequence counters of the record, by group: the record orders them by ascending group ID, and its queue entries name
the groups (DEDUCED, log 37). -/
def seqs (rd : Reader) : List (Nat × Nat) :=
  match entries rd with
  | [] => []
  | (_, c) :: _ => (c.hurdles.map fun h => h.1).zipIdx.map fun g => (g.1, rd (0x20 + 4 * g.2) 4)

end GenRec

namespace State

/-! ### job.create (R474) -/

/-- The checks of R474. -/
def jobCreateFails (s : State) (m : Nat) : List Deny :=
  let u := s.arg m
  let flags := u 2 1
  let desc : Range := ⟨u 0x10 8, u 0x18 4 * 0x40⟩
  let eq : Range := ⟨u 0x40 8, ringLen .event (u 0x48 4)⟩
  let stash : Range := ⟨u 0x20 8, u 0x28 8⟩
  let watch : Range := ⟨u 0x30 8, if u 0x30 8 = 0 then 0 else 0x40 + u 0x38 4 * 0x80⟩
  let bad (r : Range) (earlier : List Range) : Bool :=
    r.len != 0 && (!inEdern r.base r.len || s.meetsAreas r.base r.len || earlier.any fun x => x.meets r.base r.len)
  let rec_ := u 0x50 8
  deny (decide (1023 < u 0 2)) .badOperand 0 ++ deny (decide (4 ≤ flags)) .badOperand 2 ++ deny (u 3 1 != 0) .badOperand 3 ++
    deny (desc.base % 4096 != 0 || bad desc []) .badOperand 0x10 ++
    deny (u 0x18 4 == 0 || decide (16777216 < u 0x18 4)) .badOperand 0x18 ++ deny (u 0x1C 4 != 0) .badOperand 0x1C ++
    deny (stash.base % 4096 != 0 || (stash.len == 0 && stash.base != 0) || bad stash [desc, eq]) .badOperand 0x20 ++
    deny (stash.len % 256 != 0) .badOperand 0x28 ++
    deny (watch.base % 4096 != 0 || bad watch [desc, eq, stash]) .badOperand 0x30 ++
    deny (if watch.base = 0 then u 0x38 4 != 0 else !powerIn (u 0x38 4) 8 24) .badOperand 0x38 ++
    deny (!(decide (0x5000 ≤ u 0x3C 2) && decide (u 0x3C 2 ≤ 0xCFFF))) .badOperand 0x3C ++ deny (u 0x3E 2 != 0) .badOperand 0x3E ++
    deny (eq.base % 4096 != 0 || bad eq [desc]) .badOperand 0x40 ++ deny (!powerIn (u 0x48 4) 6 20) .badOperand 0x48 ++
    deny (u 0x4C 4 != 0) .badOperand 0x4C ++
    deny (if bitAt flags 1 then !inEdern rec_ 0x100 || !inEdern rec_ (GenRec.size (GenRec.inMemory s rec_)) else rec_ != 0) .badOperand 0x50 ++
    deny s.unfit .badState 0 ++ deny (s.job? (u 0 2)).isSome .exists_ 0 ++
    deny ((s.ring? (u 0x3C 2)).isSome || (s.queue? (u 0x3C 2)).isSome) .exists_ 0x3C

/-- A new job: its step is 0 or the record's, its lap counter the start length (R80), its checkpoint policy the default. A spare
that has received the job's generation takes step and lap counter from that (R416; DEDUCED, log 138). -/
def newJob (s : State) (m : Nat) : Job :=
  let u := s.arg m
  let kept := s.spareRecords.find? fun r => r.1 == u 0 2
  let given := bitAt (u 2 1) 1
  let restore := given || kept.isSome
  let rec_ := if given then GenRec.inMemory s (u 0x50 8) else GenRec.inBytes ((kept.map fun r => r.2).getD [])
  { id := u 0 2, zeroPolicy := bitAt (u 2 1) 0, lapStart := u 4 2, lapRecovery := u 6 2
    lap := if !given && kept.isSome then GenRec.lap rec_ else u 4 2
    seed := BitVec.ofNat 64 (u 8 8), descBase := u 0x10 8, descEntries := u 0x18 4, stashBase := u 0x20 8, stashBytes := u 0x28 8
    watchBase := u 0x30 8, watchSlots := u 0x38 4, eq := u 0x3C 2, eqBase := u 0x40 8, eqSlots := u 0x48 4
    step := if restore then GenRec.step rec_ else 0
    lastSkip := false, skipping := false, updateArmed := false, ckptRequested := false, ckptSteps := 64, ckptSeconds := 60
    ranges := [], pools := [], newPolicy := none, lastFreeze := s.now
    owed := false, freezeAt := none, wholeNext := true, map := [], gens := []
    restoreQueues := if restore then GenRec.entries rec_ else []
    restoreSeqs := if restore then GenRec.seqs rec_ else []
    watch := {}, digest := 0, ownDigests := [], twinDigests := [], lastMismatch := none, phase := .running, restorePoint := 0
    restart := { smallest := s.serial, changedAt := s.now }, spares := [], faultStep := false }

/-- job.create: the event queue, the headers of the event ring and the watch ring, and the job. DEDUCED, log 71.
DEDUCED, log 138. -/
def jobCreate (s : State) (m : Nat) : State :=
  let j := s.newJob m
  let r : RingQ := { id := j.eq, kind := .event, job := some j.id, base := j.eqBase, slots := j.eqSlots, core := none }
  let s1 := s.initRing j.eqBase j.eqSlots
  let s2 := if j.watchBase = 0 then s1 else s1.initRing j.watchBase j.watchSlots
  ({ s2 with
    spareRecords := s2.spareRecords.filter fun r => r.1 != j.id
    rings := insertBy RingQ.id r s2.rings, jobs := insertBy Job.id j s2.jobs } : State).finishOk m []

/-! ### The other job commands (R473, R411) -/

/-- A command that names a job at argument 0. -/
def noJob (s : State) (m : Nat) : List Deny := deny (s.job? (s.arg m 0 2)).isNone .noSuch 0

/-- What job.destroy leaves: no queue, group, chain or generation of the job, and its host cores free; memory is not changed.
Every group of the job hears of it, and the twin releases its shadows. -/
def destroyJob (s : State) (id : Nat) : State :=
  let s0 := s.notify (s.jobPorts id) id .destroy s.serial (s.faultsEver + 1) 0 []
  let s1 := (s0.releaseShadows id).endChains (fun c => c.job == id) .aborted
  { s1 with
    queues := s1.queues.filter fun q => q.job != id
    rings := s1.rings.filter fun r => r.job != some id
    groups := s1.groups.filter fun g => g.job != id
    jobs := s1.jobs.filter fun j => j.id != id
    judges := s1.judges.map fun x => { x with pending := x.pending.filter fun c => c.packet.job.toNat != id }
    cores := s1.cores.map fun c => if c.job = some id then { c with job := none } else c }

/-- The restart sequence from event 3 for a held job (R413, R414). -/
def restartHeld (s : State) (id : Nat) : State :=
  s.modJob id fun j =>
    match j.phase with
    | .held _ =>
      { j with
        phase := .restarting
        restart :=
          { fault := j.restart.fault, smallest := s.serial, changedAt := s.now, failed := j.restart.failed
            answers := j.restart.answers.filter fun a => j.restart.failed.contains a.1 } }
    | _ => j

def isHeld (s : State) (id : Nat) : Bool :=
  match s.job? id with
  | some j => match j.phase with
    | .held _ => true
    | _ => false
  | none => false

/-- job.spares: the serials enrolled; a job that is held goes on at event 3 when a spare is enrolled (R414). DEDUCED, log 76. -/
def jobSpares (s : State) (m : Nat) : State :=
  let id := s.arg m 0 2
  let n := s.arg m 2 2
  let a := s.arg m 8 8
  let s1 := s.modJob id fun j => { j with spares := (List.range n).map fun i => s.read64 (a + 8 * i) }
  (if n = 0 then s1 else s1.restartHeld id).finishOk m []

/-- The result of job.status. -/
def jobStatus (s : State) (m : Nat) : List Byte :=
  match s.job? (s.arg m 0 2) with
  | none => []
  | some j =>
    let st : Nat × Nat := match j.phase with
      | .running => (0, 0)
      | .restarting => (1, 0)
      | .held c => (2, c)
    toLe 1 st.1 ++ [0] ++ toLe 2 st.2 ++ toLe 4 0 ++ toLe 8 j.step ++ toLe 8 j.restorePoint

/-! ### Queues (R475 to R478) -/

/-- The range of IDs of a kind of queue. -/
def idInKind (kind id : Nat) : Bool :=
  match kind with
  | 0 => decide (id ≤ 0x0FFF)
  | 1 => decide (0x5000 ≤ id) && decide (id ≤ 0xCFFF)
  | 2 => decide (0x5000 ≤ id) && decide (id ≤ 0xCFFF)
  | 3 => decide (0xD000 ≤ id) && decide (id ≤ 0xFEFF)
  | _ => true

def ringKind (kind : Nat) : RingKind := if kind = 1 then .completion else if kind = 2 then .event else .message

/-- Whether a ring of a kind and job exists. DEDUCED, log 74. -/
def ringOf (s : State) (id job : Nat) (k : RingKind) : Bool :=
  match s.ring? id with
  | some r => r.kind == k && r.job == some job
  | none => false

def queueCreateFails (s : State) (m : Nat) : List Deny :=
  let u := s.arg m
  let kind := u 4 1
  let core := u 5 1
  let len := if kind = 0 then u 0x10 4 * 0x40 else ringLen (ringKind kind) (u 0x10 4)
  deny (decide (3 < kind)) .badOperand 4 ++ deny (!idInKind kind (u 0 2)) .badOperand 0 ++
    deny (if kind = 3 then decide (31 < core) && core != 0xFF else core != 0) .badOperand 5 ++ deny (u 6 2 != 0) .badOperand 6 ++
    deny (u 8 8 % 4096 != 0 || !inEdern (u 8 8) len) .badOperand 8 ++ deny (!powerIn (u 0x10 4) 6 20) .badOperand 0x10 ++
    (if kind = 0 then
      deny (!s.ringOf (u 0x14 2) (u 2 2) .completion) .noSuch 0x14 ++ deny (!s.ringOf (u 0x16 2) (u 2 2) .event) .noSuch 0x16
    else deny (u 0x14 2 != 0) .badOperand 0x14 ++ deny (u 0x16 2 != 0) .badOperand 0x16) ++
    deny (s.job? (u 2 2)).isNone .noSuch 2 ++ deny ((s.queue? (u 0 2)).isSome || (s.ring? (u 0 2)).isSome) .exists_ 0

/-- A new command queue: UNBOUND, in the state that a restored job's record gives it (R186, R474). -/
def newQueue (s : State) (m : Nat) : CmdQueue :=
  let u := s.arg m
  let c : Committed :=
    match (s.job? (u 2 2)).bind fun j => j.restoreQueues.find? fun e => e.1 == u 0 2 with
    | some e => e.2
    | none => { position := 0, sregs := List.replicate 64 0, laps := [], generate := false, hurdles := [] }
  { id := u 0 2, job := u 2 2, base := u 8 8, slots := u 0x10 4, cq := u 0x14 2, eq := u 0x16 2, state := .unbound, status := 0
    team := 0, share := 0, hdr := 0, shareOff := 0, write := c.position, pos := c.position, next := c.position, lastOpcode := 0
    lastTag := 0, count := 0, sregs := c.sregs, laps := c.laps, generate := c.generate, wait := .none, cur := 0
    breaks := List.replicate 4 {}, resumedAt := none, committed := c, armed := [] }

def queueCreate (s : State) (m : Nat) : State :=
  let u := s.arg m
  if u 4 1 = 0 then
    ({ s with queues := insertBy CmdQueue.id (s.newQueue m) s.queues } : State).finishOk m []
  else
    let r : RingQ :=
      { id := u 0 2, kind := ringKind (u 4 1), job := some (u 2 2), base := u 8 8, slots := u 0x10 4
        core := if u 4 1 = 3 ∧ u 5 1 ≠ 0xFF then some (u 5 1) else none }
    let s1 := s.initRing r.base r.slots
    ({ s1 with rings := insertBy RingQ.id r s1.rings } : State).finishOk m []

/-- The states in which a queue takes queue.bind, queue.sreg and queue.destroy. DEDUCED, log 74. -/
def settled (q : CmdQueue) : Bool :=
  match q.state with
  | .unbound | .idle | .stopped | .halted => true
  | _ => false

def argQueue (s : State) (m : Nat) : Option CmdQueue := s.queue? (s.arg m 0 2)

/-- How many queues other than q have a heat in their teams. -/
def heatUse (s : State) (q : CmdQueue) (h : Nat) : Nat :=
  (s.queues.filter fun o => o.id != q.id && teamHas o.team h).length

/-- Whether a bind changes the share or the header table. DEDUCED, log 38. -/
def shareChanges (s : State) (m : Nat) (q : CmdQueue) : Bool :=
  s.arg m 0x18 8 != q.share || s.arg m 0x20 8 != q.hdr || s.arg m 0x28 8 != q.shareOff

def queueBindFails (s : State) (m : Nat) : List Deny :=
  let u := s.arg m
  let team := u 8 16
  deny (u 2 6 != 0) .badOperand 2 ++ deny (team == 0 || decide (2 ^ 100 ≤ team)) .badUnit 8 ++
    match s.argQueue m with
    | none => [(.noSuch, 0)]
    | some q =>
      let stash : Range := match s.job? q.job with
        | some j => ⟨j.stashBase, j.stashBytes⟩
        | none => ⟨0, 0⟩
      let share := u 0x18 8
      let off := u 0x28 8
      deny ((List.range 100).any fun h => team.testBit h && decide (16 ≤ s.heatUse q h)) .badOperand 8 ++
        deny (!settled q) .badState 0 ++
        (if share = 0 then []
        else
          deny (share % 256 != 0) .badOperand 0x18 ++
            deny (u 0x20 8 % 0x10000 != 0 || !inEdern (u 0x20 8) 0x10000 || stash.meets (u 0x20 8) 0x10000) .badOperand 0x20 ++
            deny (off % 256 != 0 || decide (stash.len < off + share) ||
              s.queues.any fun o => o.id != q.id && o.job == q.job && (Range.mk o.shareOff o.share).meets off share) .badOperand 0x28) ++
        deny (s.shareChanges m q && q.share != 0 && s.read (q.hdr + 8) 4 != 0) .badState 0

/-- queue.bind: a new header table is empty (DEDUCED, log 38); a queue that was UNBOUND becomes IDLE or RUNNING. -/
def queueBind (s : State) (m : Nat) : State :=
  match s.argQueue m with
  | none => s
  | some q =>
    let u := s.arg m
    let s1 := if s.shareChanges m q && u 0x18 8 != 0 then s.ownStore (u 0x20 8) (List.replicate 0x10000 0) else s
    let q1 := { q with
      team := BitVec.ofNat 128 (u 8 16), share := u 0x18 8, hdr := u 0x20 8, shareOff := u 0x28 8 }
    (s1.setQueue { q1 with state := if q.state = .unbound then readyState q1 else q.state }).finishOk m []

def queueResumeFails (s : State) (m : Nat) : List Deny :=
  let mode := s.arg m 2 1
  match s.argQueue m with
  | none => [(.noSuch, 0)]
  | some q =>
    match q.state with
    | .stopped => deny (decide (1 < mode)) .badOperand 2
    | .halted => deny (mode != 0) .badOperand 2
    | _ => deny (decide (1 < mode)) .badOperand 2 ++ [(.badState, 0)]

/-- queue.resume (R477): REFETCH decodes the slot again, SKIP passes over it, and a halted queue goes on; no TAG break fires
again at the command where it does (R262). -/
def queueResume (s : State) (m : Nat) : State :=
  match s.argQueue m with
  | none => s
  | some q =>
    let q1 := { q with status := 0 }
    let q2 :=
      if q.state = .stopped ∧ s.arg m 2 1 = 1 then 
        { q1 with
          pos := q.pos + 1, next := q.pos + 1, count := q.count + 1
          lastOpcode := bitsAt q.cur.toNat 0 12, lastTag := bitsAt q.cur.toNat 16 16 }
      else { q1 with next := q.pos, resumedAt := if q.status = Status.break_.code then some q.pos else q.resumedAt }
    (s.setQueue { q2 with state := readyState q2 }).finishOk m []

/-- The length of queue.sreg: a write carries its values. -/
def sregLen (s : State) (m : Nat) : Nat := if s.arg m 2 1 = 0 then 8 + 8 * s.arg m 4 1 else 8

def queueSregFails (s : State) (m : Nat) : List Deny :=
  let u := s.arg m
  deny (decide (1 < u 2 1)) .badOperand 2 ++ deny (decide (63 < u 3 1)) .badOperand 3 ++
    deny (u 4 1 == 0 || decide (64 < u 4 1) || decide (64 < u 3 1 + u 4 1)) .badOperand 4 ++ deny (u 5 3 != 0) .badOperand 5 ++
    match s.argQueue m with
    | none => [(.noSuch, 0)]
    | some q => deny (!settled q) .badState 0

def queueSreg (s : State) (m : Nat) : State :=
  match s.argQueue m with
  | none => s
  | some q =>
    let u := s.arg m
    let regs := List.range' (u 3 1) (u 4 1)
    if u 2 1 = 1 then s.finishOk m (regs.flatMap fun r => toLe 8 (q.sregs.getD r 0).toNat)
    else
      let vs := q.sregs.zipIdx.map fun x =>
        if regs.contains x.2 then BitVec.ofNat 64 (u (8 + 8 * (x.2 - u 3 1)) 8) else x.1
      (s.setQueue { q with sregs := vs }).finishOk m []

/-- Whether a command queue names a completion or event queue. -/
def named (s : State) (id : Nat) : Bool := s.queues.any fun q => q.cq == id || q.eq == id

/-- Whether a SIGNAL POST waits to post to a message queue (R246). -/
def postWaits (s : State) (id : Nat) : Bool :=
  s.queues.any fun q => match q.wait with
    | .post x _ => x == id
    | _ => false

def queueDestroyFails (s : State) (m : Nat) : List Deny :=
  let id := s.arg m 0 2
  match s.queue? id, s.ring? id with
  | some q, _ => deny (!settled q) .badState 0
  | none, some r =>
    deny r.job.isNone .noSuch 0 ++ deny (if r.kind = .message then s.postWaits id else s.named id) .badState 0
  | none, none => [(.noSuch, 0)]

def queueDestroy (s : State) (m : Nat) : State :=
  let id := s.arg m 0 2
  ({ s with queues := s.queues.filter (fun q => q.id != id), rings := s.rings.filter fun r => r.id != id } : State).finishOk m []

/-! ### desc.load (R479) -/

def descLoadLen (s : State) (m : Nat) : Nat := 0x10 + 0x40 * s.arg m 2 2

/-- What a descriptor of the request breaks. -/
def descBreaks (s : State) (m : Nat) (j : Job) (i : Nat) : Option Status :=
  let h := s.arg m 4 4 + i
  if !handleOk j h then some .badHandle
  else if !(Desc.mk h (s.arg m (0x10 + 0x40 * i) 64)).ok then some .badDesc
  else none

/-- The failing descriptors: the lowest status, with the index of the first that fails. -/
def descFails (s : State) (m : Nat) (j : Job) : List Deny :=
  let fs := (List.range (s.arg m 2 2)).filterMap fun i => (s.descBreaks m j i).map fun st => (st, i)
  match fs, worstDeny fs with
  | f :: _, some w => [(w.1, f.2)]
  | _, _ => []

def descLoadFails (s : State) (m : Nat) : List Deny :=
  let heads := deny (s.arg m 2 2 == 0 || decide (63 < s.arg m 2 2)) .badOperand 2 ++ deny (s.arg m 8 8 != 0) .badOperand 8
  match s.job? (s.arg m 0 2) with
  | none => (.noSuch, 0) :: heads
  | some j => heads ++ (if heads.isEmpty then s.descFails m j else [])

def descLoad (s : State) (m : Nat) : State :=
  match s.job? (s.arg m 0 2) with
  | none => s
  | some j =>
    (s.ownStore (j.descBase + s.arg m 4 4 * 0x40) (s.argBytes m 0x10 (0x40 * s.arg m 2 2))).finishOk m []

/-! ### debug.break (R261) -/

def debugBreakFails (s : State) (m : Nat) : List Deny :=
  let u := s.arg m
  deny (s.argQueue m).isNone .noSuch 0 ++ deny (decide (3 < u 2 1)) .badOperand 2 ++ deny (decide (2 < u 3 1)) .badOperand 3 ++
    deny (u 6 2 != 0) .badOperand 6

def debugBreak (s : State) (m : Nat) : State :=
  match s.argQueue m with
  | none => s
  | some q =>
    let u := s.arg m
    let b : BreakSlot :=
      match u 3 1 with
      | 1 => { kind := .count, value := BitVec.ofNat 64 (u 8 8), mask := BitVec.ofNat 16 (u 4 2) }
      | 2 => { kind := .tag, value := BitVec.ofNat 64 (u 8 8), mask := BitVec.ofNat 16 (u 4 2) }
      | _ => {}
    (s.setQueue { q with breaks := q.breaks.set (u 2 1) b }).finishOk m []

end State

/-! ### The rows -/

def execJobCreate (m : Fin 64) (s : State) : Host.Outcome State Fault Refusal :=
  .next (s.command (gateScf 0x201) m.val 0x58 (s.jobCreateFails m.val) (s.jobCreate m.val))

def execJobDestroy (m : Fin 64) (s : State) : Host.Outcome State Fault Refusal :=
  .next (s.command (gateScf 0x202) m.val 2 (s.noJob m.val) ((s.destroyJob (s.arg m.val 0 2)).settle.finishOk m.val []))

def execJobResume (m : Fin 64) (s : State) : Host.Outcome State Fault Refusal :=
  let id := s.arg m.val 0 2
  .next (s.command (gateScf 0x203) m.val 2
    (s.noJob m.val ++ deny ((s.job? id).isSome && !s.isHeld id) .badState 0) ((s.restartHeld id).finishOk m.val []))

def execJobSpares (m : Fin 64) (s : State) : Host.Outcome State Fault Refusal :=
  let n := s.arg m.val 2 2
  .next (s.command { code := 0x204, auth := [.s, .f] } m.val 0x10
    (s.noJob m.val ++ deny (decide (64 < n)) .badOperand 2 ++ deny (s.arg m.val 4 4 != 0) .badOperand 4 ++
      deny (n != 0 && !inEdern (s.arg m.val 8 8) (8 * n)) .badOperand 8) (s.jobSpares m.val))

def execJobStatus (m : Fin 64) (s : State) : Host.Outcome State Fault Refusal :=
  .next (s.command (gateScf 0x205) m.val 2 (s.noJob m.val) (s.finishOk m.val (s.jobStatus m.val)))

def execQueueCreate (m : Fin 64) (s : State) : Host.Outcome State Fault Refusal :=
  .next (s.command (gateScf 0x301) m.val 0x18 (s.queueCreateFails m.val) (s.queueCreate m.val))

def execQueueBind (m : Fin 64) (s : State) : Host.Outcome State Fault Refusal :=
  .next (s.command (gateScf 0x302) m.val 0x30 (s.queueBindFails m.val) (s.queueBind m.val))

def execQueueResume (m : Fin 64) (s : State) : Host.Outcome State Fault Refusal :=
  .next (s.command (gateScf 0x303) m.val 3 (s.queueResumeFails m.val) (s.queueResume m.val))

def execQueueSreg (m : Fin 64) (s : State) : Host.Outcome State Fault Refusal :=
  .next (s.command (gateScf 0x304) m.val (s.sregLen m.val) (s.queueSregFails m.val) (s.queueSreg m.val))

def execQueueDestroy (m : Fin 64) (s : State) : Host.Outcome State Fault Refusal :=
  .next (s.command (gateScf 0x305) m.val 2 (s.queueDestroyFails m.val) (s.queueDestroy m.val))

def execDescLoad (m : Fin 64) (s : State) : Host.Outcome State Fault Refusal :=
  .next (s.command (gateScf 0x401) m.val (s.descLoadLen m.val) (s.descLoadFails m.val) (s.descLoad m.val))

def execDebugBreak (m : Fin 64) (s : State) : Host.Outcome State Fault Refusal :=
  .next (s.command (gateScf 0xC01) m.val 0x10 (s.debugBreakFails m.val) (s.debugBreak m.val))

end Sys2Proof.Machine
end

