-- ==== Sys2Proof/Machine/Policies.lean ====
section
/-! DEFINITION. The mailbox commands on groups (R480, R344 to R346) and the checkpoint policy (R481, R294). -/

namespace Sys2Proof.Machine

namespace Join

/-- The arguments of R480. -/
structure Args where
  job : Nat
  group : Nat
  geometry : Nat
  ports : Nat
  rank : Nat
  budget : Nat
  mDecl : Nat
  ext : List Nat
  m : Nat
  table : Nat
  reserved : Nat
  deriving DecidableEq, Repr

def read (s : State) (m : Nat) : Args :=
  let u := s.arg m
  { job := u 0 2, group := u 2 2, geometry := u 4 1, ports := u 5 1, rank := u 6 2, budget := u 8 8, mDecl := u 0x10 2
    ext := [u 0x12 1, u 0x13 1, u 0x14 1], m := u 0x16 2, table := u 0x18 8, reserved := u 0x15 1 }

/-- Members. -/
def count (x : Args) : Nat := x.m

/-- The ranks of successor and predecessor in each dimension of extent above 1 (R345, R346). -/
def neighbours (x : Args) : List (Nat × Nat) :=
  if x.geometry = 0 then [((x.rank + 1) % x.m, (x.rank + x.m - 1) % x.m)]
  else
    let g := x.ext
    let c (d : Nat) : Nat :=
      match d with
      | 0 => x.rank % g.getD 0 1
      | 1 => x.rank / g.getD 0 1 % g.getD 1 1
      | _ => x.rank / (g.getD 0 1 * g.getD 1 1) % g.getD 2 1
    let rankOf (d v : Nat) : Nat :=
      let at_ (i : Nat) : Nat := if i = d then v else c i
      at_ 0 + g.getD 0 1 * (at_ 1 + g.getD 1 1 * at_ 2)
    ((List.range 3).filter fun d => decide (1 < g.getD d 1)).map fun d =>
      let n := g.getD d 1
      (rankOf d ((c d + 1) % n), rankOf d ((c d + n - 1) % n))

/-- The UP partner ports that lead to a device. -/
def portsTo (s : State) (serial : W64) : List Nat :=
  (List.range 6).filter fun p => (s.port p).state == .up && (s.port p).partnerId == serial

/-- The port to the successor and the port to the predecessor: the lowest that fits, and in a dimension of extent 2, where both
are one device, two ports, of which the successor's is the lower (R346, DEDUCED, log 39). -/
def pick (s : State) (a b : W64) : Option (Nat × Nat) :=
  if a = b then
    match portsTo s a with
    | p :: q :: _ => some (p, q)
    | _ => none
  else
    match portsTo s a, portsTo s b with
    | p :: _, q :: _ => some (p, q)
    | _, _ => none

def serials (s : State) (x : Args) : List W64 := (List.range x.m).map fun i => s.read64 (x.table + 8 * i)

/-- The ring ports, or none where a neighbour is no partner. DEDUCED, log 39. -/
def rings (s : State) (x : Args) : Option (List (Nat × Nat)) :=
  let ss := serials s x
  (neighbours x).mapM fun n => pick s (ss.getD n.1 0) (ss.getD n.2 0)

/-- The checks on a geometry's own fields. -/
def shapeFails (x : Args) : List Deny :=
  match x.geometry with
  | 0 =>
    deny (x.ports != 0) .badOperand 5 ++ deny (decide (x.m ≤ x.rank)) .badOperand 6 ++
      deny (x.ext != [0, 0, 0]) .badOperand 0x12 ++ deny (decide (x.m < 2) || decide (64 < x.m)) .badOperand 0x16
  | 1 =>
    deny (x.ports != 0) .badOperand 5 ++ deny (decide (x.m ≤ x.rank)) .badOperand 6 ++
      deny (x.ext.any fun e => e == 0 || decide (64 < e)) .badOperand 0x12 ++
      deny (x.m != x.ext.foldl (· * ·) 1 || decide (4096 < x.m)) .badOperand 0x16
  | 2 =>
    deny (decide (64 ≤ x.ports)) .badOperand 5 ++ deny (x.rank != 0) .badOperand 6 ++
      deny (x.ext != [0, 0, 0]) .badOperand 0x12 ++ deny (x.m != 0) .badOperand 0x16
  | _ => [(.badOperand, 4)]

/-- The checks of R344 to R346 and R480. -/
def fails (s : State) (x : Args) : List Deny :=
  let shape := shapeFails x
  let tableBad := x.geometry != 2 && !inEdern x.table (8 * x.m)
  deny (s.job? x.job).isNone .noSuch 0 ++ deny (decide (0x3FFF ≤ x.group)) .badOperand 2 ++
    deny (decide (8 ≤ (s.jobGroups x.job).length)) .badOperand 2 ++
    deny ((s.group? x.group).isSome) .exists_ 2 ++ shape ++
    deny (x.budget != 0 && (decide (x.budget < 100000) || decide (6000000000 < x.budget))) .badOperand 8 ++
    deny (x.mDecl != 0 && decide (x.mDecl < x.m)) .badOperand 0x10 ++ deny (x.reserved != 0) .badOperand 0x15 ++
    deny tableBad .badOperand 0x18 ++
    deny (x.geometry != 2 && shape.isEmpty && !tableBad && (rings s x).isNone) .badOperand 0x18

/-- The group as it is joined; a restored job's record gives its sequence counter and its rounds (R474). -/
def group (s : State) (x : Args) : Group :=
  let j := s.job? x.job
  let seq := ((j.bind fun j => j.restoreSeqs.find? fun e => e.1 == x.group).map fun e => e.2).getD 0
  let h := ((j.map fun j => j.restoreQueues.flatMap fun q => q.2.hurdles).getD []).find? fun h => h.1 == x.group
  { id := x.group, job := x.job
    geometry := if x.geometry = 0 then .ring else if x.geometry = 1 then .torus else .neighbours
    ports := (List.range 6).filter x.ports.testBit
    rank := x.rank, ext := x.ext, rings := if x.geometry = 2 then [] else (rings s x).getD []
    budget := if x.budget = 0 then 5000000 else x.budget
    mDecl := if x.mDecl = 0 then x.m else x.mDecl, m := x.m
    serials := if x.geometry = 2 then [] else serials s x
    seq := seq, round := (h.map fun h => h.2.2).getD 0, arrivals := (h.map fun h => h.2.1).getD 0
    sentAt := none, barrier := {}, heard := [] }

end Join

namespace State

/-- group.join: at its first join for a job the device starts flooding its own serial (R405). -/
def groupJoin (s : State) (m : Nat) : State :=
  let x := Join.read s m
  let first := (s.jobGroups x.job).isEmpty
  let s1 : State := { s with groups := insertBy Group.id (Join.group s x) s.groups }
  let s2 := if first then s1.modJob x.job fun j => { j with restart := { j.restart with smallest := s.serial, changedAt := s.now } }
    else s1
  ((if x.geometry = 2 then s2.floodSerial x.job else s2).settle).finishOk m []

/-- Whether a queue waits at a GROUP Hurdle of a group. -/
def atHurdle (s : State) (g : Nat) : Bool :=
  s.queues.any fun q => match q.wait with
    | .group id _ => id == g
    | _ => false

def groupLeaveFails (s : State) (m : Nat) : List Deny :=
  let g := s.arg m 2 2
  deny (s.job? (s.arg m 0 2)).isNone .noSuch 0 ++
    (match s.group? g with
    | some x => deny (x.job != s.arg m 0 2) .noSuch 2
    | none => [(.noSuch, 2)]) ++
    deny ((s.chains.any fun c => c.group == g) || s.atHurdle g) .badState 2

def groupLeave (s : State) (m : Nat) : State :=
  (({ s with groups := s.groups.filter fun g => g.id != s.arg m 2 2 } : State).settle).finishOk m []

/-! ### ckpt.policy (R481, R294) -/

/-- The pools of the request, by stack; length 0: none. -/
def argPools (s : State) (m : Nat) : List (Nat × Range) :=
  (List.range 8).map fun e => (e, ⟨s.arg m (0x18 + 16 * e) 8, s.arg m (0x20 + 16 * e) 8⟩)

def argRanges (s : State) (m : Nat) : List Range :=
  (List.range (min (s.arg m 8 2) 512)).map fun i => ⟨s.read (s.arg m 0x10 8 + 16 * i) 8, s.read (s.arg m 0x10 8 + 16 * i + 8) 8⟩

/-- A range of whole granules in one stack. -/
def granular (r : Range) : Bool := r.base % granule == 0 && r.len % granule == 0 && inEdern r.base r.len

/-- The rings and regions that a checkpoint range must not meet: of every job, and the ranges and pools of the others.
DEDUCED, log 75. -/
def ckptAvoids (s : State) (job : Nat) : List Range :=
  ((s.jobs.filter fun j => j.id != job).flatMap fun j => j.ranges ++ j.pools ++ (match j.newPolicy with
      | some p => p.1 ++ p.2.1
      | none => [])) ++
    s.jobs.flatMap (fun j => [⟨j.stashBase, j.stashBytes⟩] ++
      if j.watchBase = 0 then [] else [⟨j.watchBase, 0x40 + j.watchSlots * 0x80⟩]) ++
    s.queues.map (fun q => (⟨q.base, q.slots * 0x40⟩ : Range)) ++
    (s.rings.filter fun r => r.kind == .completion || r.kind == .message).map fun r => ⟨r.base, ringLen r.kind r.slots⟩

/-- Whether range i of the request breaks R294. DEDUCED, log 75. -/
def rangeBad (s : State) (job : Nat) (pools : List (Nat × Range)) (rs : List Range) (i : Nat) : Bool :=
  match rs[i]? with
  | none => false
  | some r =>
    let e := stackOf r.base
    !granular r || (s.ckptAvoids job).any (fun x => x.meets r.base r.len) ||
      pools.any (fun p => p.2.meets r.base r.len) ||
      decide (64 < ((rs.take (i + 1)).filter fun x => stackOf x.base == e).length) ||
      !pools.any fun p => p.1 == e && p.2.len != 0

/-- The granules of the old pool of a stack that are mapped. -/
def poolMapped (j : Job) (e : Nat) : List Nat :=
  let old := granulesOf (j.pools.filter fun r => stackOf r.base == e)
  (mappedGranules j).filter old.contains

def ckptPolicyFails (s : State) (m : Nat) : List Deny :=
  let pools := s.argPools m
  let rs := s.argRanges m
  let job := s.arg m 0 2
  deny (s.arg m 0xA 6 != 0) .badOperand 0xA ++ deny (decide (512 < s.arg m 8 2)) .badOperand 8 ++
    deny (s.arg m 8 2 != 0 && !inEdern (s.arg m 0x10 8) (16 * s.arg m 8 2)) .badOperand 0x10 ++
    (pools.flatMap fun p =>
      deny (p.2.len != 0 && (!granular p.2 || stackOf p.2.base != p.1)) .badOperand (0x18 + 16 * p.1)) ++
    ((List.range rs.length).flatMap fun i => deny (s.rangeBad job pools rs i) .badOperand i) ++
    match s.job? job with
    | none => [(.noSuch, 0)]
    | some j =>
      pools.flatMap fun p =>
        deny ((poolMapped j p.1).any fun g => !p.2.contains g) .badState (0x18 + 16 * p.1)

/-- ckpt.policy: in force from the job's next COMMIT. -/
def ckptPolicy (s : State) (m : Nat) : State :=
  let pools := ((s.argPools m).map fun p => p.2).filter fun r => r.len != 0
  let rs := (s.argRanges m).filter fun r => r.len != 0
  (s.modJob (s.arg m 0 2) fun j => { j with newPolicy := some (rs, pools, s.arg m 2 2, s.arg m 4 4) }).finishOk m []

end State

/-! ### The rows -/

def execGroupJoin (m : Fin 64) (s : State) : Host.Outcome State Fault Refusal :=
  .next (s.command (gateScf 0x501) m.val 0x20 (Join.fails s (Join.read s m.val)) (s.groupJoin m.val))

def execGroupLeave (m : Fin 64) (s : State) : Host.Outcome State Fault Refusal :=
  .next (s.command (gateScf 0x502) m.val 4 (s.groupLeaveFails m.val) (s.groupLeave m.val))

def execCkptPolicy (m : Fin 64) (s : State) : Host.Outcome State Fault Refusal :=
  .next (s.command (gateScf 0x601) m.val 0x98 (s.ckptPolicyFails m.val) (s.ckptPolicy m.val))

end Sys2Proof.Machine
end

