-- ==== Sys2Proof/Machine/Enrol.lean ====
section
/-! DEFINITION. The session commands (R509): owner keys, RDMA regions, queue pairs, subscriptions, Ethernet ports, and the end of
a session (R508). -/

namespace Sys2Proof.Machine

/-- An owner public key's length. -/
def keyLen : Nat := 133

/-- Bytes between the records of a queue pair's receive ring (R499). -/
def qpRecordBytes : Nat := 0x1040

namespace State

/-! ### The session of a request -/

/-- The session that holds a mailbox. -/
def sessionAt (s : State) (m : Nat) : Option Session := s.sessions.find? fun x => x.mailbox == m

def sessionIs (s : State) (m : Nat) (ok : Session → Bool) : Bool :=
  match s.sessionAt m with
  | some x => ok x
  | none => false

def modSessionAt (s : State) (m : Nat) (f : Session → Session) : State :=
  match s.sessionAt m with
  | some x => s.modSession x.id f
  | none => s

/-- session.enrol of one kind: `n` bytes of fields. A kind that R509 does not list breaks the kind's own field, and a request of
another kind is left to its own row. DEDUCED, log 88. -/
def enrol (s : State) (m kind n : Nat) (ok : Session → Bool) (fails : List Deny) (go : State) : State :=
  let k := s.arg m 0 1
  let g : Gate := { code := 0x103, auth := [.s], unowned := true, early := true }
  if 8 < k then s.command g m (s.reqLen m) (deny true .badOperand 0 ++ deny (!s.sessionIs m ok) .badState 0) s
  else if k ≠ kind then s
  else s.command g m (8 + n) (deny (s.arg m 1 7 != 0) .badOperand 1 ++ deny (!s.sessionIs m ok) .badState 0 ++ fails) go

def sessionOpen (x : Session) : Bool := x.state == .opened

/-! ### Owner keys -/

def ownerAddFails (s : State) (m : Nat) : List Deny :=
  deny (s.starter.owners.contains (s.argBytes m 8 keyLen)) .exists_ 8 ++ deny (decide (8 ≤ s.starter.owners.length)) .badState 0

/-- The key is enrolled; a CLAIM session becomes OPEN. -/
def ownerAdd (s : State) (m : Nat) : State :=
  let key := s.argBytes m 8 keyLen
  let s1 : State := { s with starter := { s.starter with owners := s.starter.owners ++ [key] } }
  (s1.modSessionAt m fun x => { x with state := .opened }).finishOk m (toLe 8 (ownerKeyId key).toNat)

def argKeyId (s : State) (m : Nat) : W64 := BitVec.ofNat 64 (s.arg m 8 8)

def ownerRevokeFails (s : State) (m : Nat) : List Deny :=
  deny (!s.starter.owners.any fun k => ownerKeyId k == s.argKeyId m) .noSuch 8 ++
    deny (decide (s.starter.owners.length ≤ 1)) .badState 0

/-- The sessions opened with a key, in the order of their list. -/
def sessionsOf (s : State) (id : W64) : List Session := s.sessions.filter fun x => !x.claim && x.keyId == id

/-- The key is revoked: other sessions opened with it close at once, the requester's after its response. DEDUCED, log 91. -/
def ownerRevoke (s : State) (m : Nat) : State :=
  let id := s.argKeyId m
  let s1 : State := { s with starter := { s.starter with owners := s.starter.owners.filter fun k => ownerKeyId k != id } }
  let s2 := ((s1.sessionsOf id).filter fun x => x.mailbox != m).foldl (fun s x => s.startClosing x.id true) s1
  let s3 := s2.finishOk m []
  ((s3.sessionsOf id).filter fun x => x.mailbox == m).foldl (fun s x => s.startClosing x.id true) s3

/-! ### RDMA regions -/

/-- Whether a range meets a snapshot pool or a shadow region. -/
def meetsPools (s : State) (a n : Nat) : Bool :=
  (s.jobs.flatMap Job.pools ++ s.shadowRegions).any fun r => r.meets a n

def regionAddFails (s : State) (m : Nat) : List Deny :=
  let a := s.arg m 8 8
  let n := s.arg m 16 8
  deny (!inEdern a n || s.meetsPools a n) .badOperand 8 ++ deny (n == 0) .badOperand 16 ++
    deny (decide (4 ≤ s.arg m 24 1)) .badOperand 24 ++
    deny (s.sessionIs m fun x => decide (64 ≤ x.regions.length)) .badState 0

/-- The keys in use: doorbell keys and region keys of every session. -/
def rdmaKeys (s : State) : List W32 := s.sessions.flatMap fun y => y.doorbellKey :: y.regions.map RdmaRegion.key

def regionAdd (s : State) (m : Nat) : State :=
  let (key, s1) := s.freshId s.rdmaKeys
  let rights := s.arg m 24 1
  let r : RdmaRegion := { key := key, base := s.arg m 8 8, len := s.arg m 16 8, read := bitAt rights 0, write := bitAt rights 1 }
  (s1.modSessionAt m fun x => { x with regions := x.regions ++ [r] }).finishOk m (toLe 4 key.toNat)

def argKey (s : State) (m : Nat) : W32 := BitVec.ofNat 32 (s.arg m 8 4)

def regionRemoveFails (s : State) (m : Nat) : List Deny :=
  deny (!s.sessionIs m fun x => x.regions.any fun r => r.key == s.argKey m) .noSuch 8

def regionRemove (s : State) (m : Nat) : State :=
  (s.modSessionAt m fun x => { x with regions := x.regions.filter fun r => r.key != s.argKey m }).finishOk m []

/-! ### Queue pairs -/

def qpRingBytes (s : State) (m : Nat) : Nat := 0x40 + s.arg m 42 4 * qpRecordBytes

def qpConnectFails (s : State) (m : Nat) : List Deny :=
  let mine := match s.sessionAt m with
    | some x => (s.qps.filter fun q => q.session == x.id).length
    | none => 0
  deny (decide (7 < s.arg m 8 1)) .badOperand 8 ++ deny (decide (2 < s.arg m 9 1)) .badOperand 9 ++
    deny (s.arg m 11 1 != 0) .badOperand 11 ++ deny (!inEdern (s.arg m 34 8) (s.qpRingBytes m)) .badOperand 34 ++
    deny (!powerIn (s.arg m 42 4) 6 20) .badOperand 42 ++
    deny (decide (64 ≤ mine) || decide (256 ≤ s.qps.length)) .badState 0

/-- The lowest queue pair number from 2 that is free. DESIGN CHOICE, log 11. -/
def freeQpn (s : State) : Nat := ((List.range' 2 257).find? fun n => (s.qp? n).isNone).getD 2

/-- A queue pair on its port, its receive ring's header written; its start PSN is free.
DESIGN CHOICE, log 11; DEDUCED, log 71, DEDUCED, log 88. -/
def qpConnect (s : State) (m : Nat) : State :=
  let (v, s1) := s.fresh
  let psn := v.toNat % 2 ^ 24
  let n := s.freeQpn
  match s.sessionAt m with
  | none => s
  | some x =>
    let q : Qp :=
      { qpn := n, port := s.arg m 8 1, session := x.id, mtu := 1024 * 2 ^ s.arg m 9 1, rnr := s.arg m 10 1
        hostQpn := s.arg m 12 3, hostPsn := s.arg m 15 3, psn := psn
        gid := BitVec.ofNat 128 (s.arg m 18 16), ringBase := s.arg m 34 8, ringSlots := s.arg m 42 4 }
    (({ s1 with qps := s1.qps ++ [q] } : State).initRing q.ringBase q.ringSlots).finishOk m (toLe 3 n ++ toLe 3 psn)

/-- Whether the queue pair that the request names is the session's. -/
def ownQp (s : State) (m : Nat) : Bool :=
  s.sessionIs m fun x => s.qps.any fun q => q.qpn == s.arg m 8 3 && q.session == x.id

def qpDestroyFails (s : State) (m : Nat) : List Deny := deny (!s.ownQp m) .noSuch 8

def qpDestroy (s : State) (m : Nat) : State :=
  ({ s with qps := s.qps.filter fun q => q.qpn != s.arg m 8 3 } : State).finishOk m []

/-! ### Subscriptions (R504) -/

/-- An event queue that a session may subscribe to: a job's, or its own device event queue. -/
def pushable (s : State) (m : Nat) : Option RingQ :=
  s.rings.find? fun r => r.id == s.arg m 8 2 && r.kind == .event && (r.job.isSome || r.id == 0xFF00 + m)

def subscribed (s : State) (m : Nat) : Bool := s.sessionIs m fun x => x.subs.any fun y => y.1 == s.arg m 8 2

/-- The subscriptions of R509; the device event queue's pushes are the session's own and do not count. DEDUCED, log 88. -/
def subscribeFails (s : State) (m : Nat) : List Deny :=
  deny (s.pushable m).isNone .noSuch 8 ++ deny (s.subscribed m) .exists_ 8 ++
    deny (s.sessionIs m fun x => decide (8 ≤ (x.subs.filter fun y => y.1 != 0xFF00 + m).length)) .badState 0

/-- Pushes start from the ring's write_index. -/
def subscribe (s : State) (m : Nat) : State :=
  match s.pushable m with
  | some r => (s.modSessionAt m fun x => { x with subs := x.subs ++ [(r.id, s.read64 r.base)] }).finishOk m []
  | none => s

def unsubscribeFails (s : State) (m : Nat) : List Deny := deny (!s.subscribed m) .noSuch 8

def unsubscribe (s : State) (m : Nat) : State :=
  (s.modSessionAt m fun x => { x with subs := x.subs.filter fun y => y.1 != s.arg m 8 2 }).finishOk m []

/-! ### Ethernet ports (R491 to R496) -/

def netPortFails (s : State) (m : Nat) : List Deny :=
  let u (o : Nat) : Nat := s.arg m o 1
  deny (decide (7 < u 8)) .badOperand 8 ++ deny (decide (1 < u 9)) .badOperand 9 ++ deny (decide (2 < u 10)) .badOperand 10 ++
    deny (decide (1 < u 12)) .badOperand 12 ++ deny (decide (7 < u 13)) .badOperand 13 ++ deny (decide (7 < u 14)) .badOperand 14 ++
    deny (u 15 != 0) .badOperand 15 ++ deny (decide (4095 < s.arg m 16 2)) .badOperand 16 ++
    deny (decide (32 < u 18)) .badOperand 18 ++ deny (u 19 != 0) .badOperand 19

/-- An IPv4 address of a message, little-endian (R10). -/
def argV4 (s : State) (m o : Nat) : W32 := BitVec.ofNat 32 (s.arg m o 4)

/-- The value that NET_PORT writes to `eth.ethN.ctl`; the port stays on or off. DEDUCED, log 90. -/
def netCtl (s : State) (m : Nat) : Nat :=
  bit (s.ethPort (s.arg m 8 1)).enable 0 ||| s.arg m 9 1 <<< 1 ||| s.arg m 11 1 <<< 4 ||| s.arg m 10 1 <<< 12 |||
    s.arg m 14 1 <<< 14 ||| s.arg m 13 1 <<< 17 ||| s.arg m 16 2 <<< 20 ||| s.arg m 12 1 <<< 32

/-- The static address, or DHCPv4 again, which has no address until a lease comes. DEDUCED, log 89. -/
def netAddress (e : Nat) (addr gateway : W32) (len : Nat) (s : State) : State :=
  s.modEth e fun x =>
    if addr ≠ 0 then { x with fixed := some (addr, len, gateway), ipv4 := addr }
    else if x.fixed.isSome then { x with fixed := none, ipv4 := 0 } else x

def netPort (s : State) (m : Nat) : State :=
  let e := s.arg m 8 1
  (netAddress e (s.argV4 m 20) (s.argV4 m 24) (s.arg m 18 1) (s.ethControl e (s.netCtl m))).finishOk m []

/-! ### session.close (R508) -/

/-- The response, then CLOSE. DEDUCED, log 91. -/
def sessionClose (s : State) (m : Nat) : State :=
  let s1 := s.finishOk m []
  match s1.sessionAt m with
  | some x => s1.startClosing x.id true
  | none => s1

end State

/-! ### The rows -/

def execSessionClose (m : Fin 64) (s : State) : Host.Outcome State Fault Refusal :=
  .next (s.command { code := 0x104, auth := [.s], unowned := true, early := true } m.val 0
    (deny (!s.sessionIs m.val fun x => x.state == .opened || x.state == .claim) .badState 0) (s.sessionClose m.val))

def execOwnerAdd (m : Fin 64) (s : State) : Host.Outcome State Fault Refusal :=
  .next (s.enrol m.val 0 keyLen (fun x => State.sessionOpen x || x.state == .claim) (s.ownerAddFails m.val) (s.ownerAdd m.val))

def execOwnerRevoke (m : Fin 64) (s : State) : Host.Outcome State Fault Refusal :=
  .next (s.enrol m.val 1 8 State.sessionOpen (s.ownerRevokeFails m.val) (s.ownerRevoke m.val))

def execRegionAdd (m : Fin 64) (s : State) : Host.Outcome State Fault Refusal :=
  .next (s.enrol m.val 2 17 State.sessionOpen (s.regionAddFails m.val) (s.regionAdd m.val))

def execRegionRemove (m : Fin 64) (s : State) : Host.Outcome State Fault Refusal :=
  .next (s.enrol m.val 3 4 State.sessionOpen (s.regionRemoveFails m.val) (s.regionRemove m.val))

def execQpConnect (m : Fin 64) (s : State) : Host.Outcome State Fault Refusal :=
  .next (s.enrol m.val 4 38 State.sessionOpen (s.qpConnectFails m.val) (s.qpConnect m.val))

def execQpDestroy (m : Fin 64) (s : State) : Host.Outcome State Fault Refusal :=
  .next (s.enrol m.val 5 3 State.sessionOpen (s.qpDestroyFails m.val) (s.qpDestroy m.val))

def execSubscribe (m : Fin 64) (s : State) : Host.Outcome State Fault Refusal :=
  .next (s.enrol m.val 6 2 State.sessionOpen (s.subscribeFails m.val) (s.subscribe m.val))

def execUnsubscribe (m : Fin 64) (s : State) : Host.Outcome State Fault Refusal :=
  .next (s.enrol m.val 7 2 State.sessionOpen (s.unsubscribeFails m.val) (s.unsubscribe m.val))

def execNetPort (m : Fin 64) (s : State) : Host.Outcome State Fault Refusal :=
  .next (s.enrol m.val 8 20 State.sessionOpen (s.netPortFails m.val) (s.netPort m.val))

end Sys2Proof.Machine
end

