-- ==== Sys2Proof/Machine/Device.lean ====
section
/-! DEFINITION. The mailbox commands on the device: pace.set (R532), telemetry (R417 to R422, R473), device.tune, core.assign
(R442), fw.update (R513 to R515) and attest.report (R516). -/

namespace Sys2Proof.Machine

namespace State

/-! ### Pace (R529 to R534) -/

/-- The pace that the requested pace and the thermal limit give: the lower of the two. -/
def paceTarget (p : PaceCtl) : Pace := if p.requested.code ≤ p.limit.code then p.requested else p.limit

/-- `pacer.pace.throttled`: the thermal limit is below the requested pace; when it becomes 1 it raises its alert bit (R560). -/
def noteThrottle (s : State) : State :=
  let t := decide (s.pace.limit.code < s.pace.requested.code)
  let s1 : State := { s with pace := { s.pace with throttled := t } }
  if t && !s.pace.throttled then s1.raiseAlert 3 else s1

/-- Start a transition to the pace that now results, for a mailbox that waits or for none; where that pace is in force there is
no ramp, and the response follows at once. -/
def startRamp (s : State) (m : Option Nat) : State :=
  if paceTarget s.pace = s.pace.inForce then
    match m with
    | some m => s.finishOk m (toLe 1 s.pace.inForce.code)
    | none => s
  else { s with pace := { s.pace with ramping := true, waiting := m } }

/-- A request for a pace that is performed now. -/
def requestPace (s : State) (m : Nat) (p : Pace) : State :=
  (({ s with pace := { s.pace with requested := p } } : State).noteThrottle).startRamp (some m)

/-- The requests that came during a transition, in their order, up to the first that starts another. DEDUCED, log 96. -/
def laterPaces : Nat → State → State
  | 0, s => s
  | n + 1, s =>
    match s.pace.later with
    | [] => s
    | (m, p) :: rest =>
      if s.pace.ramping then s
      else laterPaces n (({ s with pace := { s.pace with later := rest } } : State).requestPace m p)

/-- Whether a mailbox's pace.set already runs. DEDUCED, log 96. -/
def paceWaits (s : State) (m : Nat) : Bool := s.pace.waiting == some m || s.pace.later.any fun x => x.1 == m

def paceFails (s : State) (m : Nat) : List Deny := deny (Pace.ofCode (s.arg m 0 1)).isNone .badOperand 0

/-- DEDUCED, log 96. -/
def paceSet (s : State) (m : Nat) : State :=
  match Pace.ofCode (s.arg m 0 1) with
  | none => s
  | some p =>
    if s.paceWaits m then s
    else if s.pace.ramping then { s with pace := { s.pace with later := s.pace.later ++ [(m, p)] } }
    else s.requestPace m p

/-! ### telemetry.read -/

/-- Blocks that telemetry.read refuses: `sec` and the debug windows of the heats. -/
def closedBlock (b : Nat) : Bool := b == 3 || 0x100 ≤ b

def telemetryFails (s : State) (m : Nat) : List Deny :=
  let b := s.arg m 0 2
  let o := s.arg m 4 4
  let n := s.arg m 8 2
  deny (s.arg m 2 2 != 0) .badOperand 2 ++ deny (o % 8 != 0) .badOperand 4 ++
    deny (n == 0 || decide (510 < n)) .badOperand 8 ++ deny (csrBlockDefined b && closedBlock b) .noperm 0 ++
    deny (!csrBlockDefined b || decide (0x100_0000 < o + 8 * n)) .decerr 0

/-- Read registers one after another, as real reads. -/
def readRegs (b o n : Nat) (s : State) : List Byte × State :=
  (List.range n).foldl (fun (acc : List Byte × State) i =>
    let (v, s1) := acc.2.readReg b (o + 8 * i)
    (acc.1 ++ toLe 8 v.toNat, s1)) ([], s)

def telemetryRead (s : State) (m : Nat) : State :=
  let (bs, s1) := readRegs (s.arg m 0 2) (s.arg m 4 4) (s.arg m 8 2) s
  s1.finishOk m bs

/-! ### Photo finish (R417 to R421) -/

/-- The units of a photo finish in ascending unit field: class and index. -/
def photoUnits : List (UnitClass × Nat) :=
  (List.range 100).map (fun i => (.heat, i)) ++ (List.range 800).map (fun i => (.cluster, i)) ++
    (List.range 32).map (fun i => (.hostCore, i)) ++ (List.range 8).map (fun i => (.stack, i)) ++
    (List.range 7).map (fun i => (.port, i)) ++ (List.range 3).map (fun i => (.judge, i)) ++ [(.hub, 0)]

/-- The counters of a class (R421). -/
def counterCount (c : UnitClass) : Nat :=
  match c with
  | .heat => 2 | .cluster => 6 | .hostCore => 2 | .stack => 6 | .port => 5 | .judge => 2 | .hub => 2
  | .channel => 0 | .ethernet => 0

/-- The inbound channels of a unit beyond the first, a count of 16 bits. DESIGN CHOICE, log 97. -/
def inboundOf (u : UnitClass × Nat) : Nat := Config.inbound (u.1.code <<< 12 ||| u.2) % 2 ^ 16

/-- Bytes of the in-flight counts, padded to a multiple of 8. -/
def inboundBytes (u : UnitClass × Nat) : Nat := ceilDiv (4 * inboundOf u) 8 * 8

def photoBytes : Nat := 0x40 + (photoUnits.map fun u => 16 + inboundBytes u + 8 * counterCount u.1).sum

/-- DESIGN CHOICE, log 97. -/
def photoFails (s : State) (m : Nat) : List Deny :=
  let a := s.arg m 0 8
  let n := s.arg m 8 8
  deny (!inEdern a n) .badOperand 0 ++ deny (decide (n < photoBytes)) .badOperand 8 ++
    deny (s.telem.running.isSome && decide (4 ≤ s.telem.queue.length)) .busy 0

/-- The number that the next photo finish will carry. -/
def nextPhoto (s : State) : Nat := s.telem.completed + (if s.telem.running.isSome then 1 else 0) + s.telem.queue.length + 1

def photoFinish (s : State) (m : Nat) : State :=
  let p : Photo := { addr := s.arg m 0 8, len := s.arg m 8 8, number := s.nextPhoto }
  let t := if s.telem.running.isSome then { s.telem with queue := s.telem.queue ++ [p] }
    else { s.telem with running := some (p, s.now) }
  ({ s with telem := t } : State).finishOk m (toLe 8 p.number)

/-- `n` counters that are measured (DESIGN CHOICE, log 6), then counters that the model holds. -/
def withMeasured (n : Nat) (ns : List Nat) (s : State) : List Byte × State :=
  let (bs, s1) := freshBytes n s
  (bs ++ ns.flatMap (toLe 8), s1)

/-- The counters of a unit, in the order of R421; a cluster that has run no work unit has counted none (R214).
DESIGN CHOICE, log 6. -/
def unitCounters (u : UnitClass × Nat) (s : State) : List Byte × State :=
  match u.1 with
  | .heat =>
    let h := s.heats.getD u.2 {}
    withMeasured 0 [h.commands, h.failures] s
  | .cluster => if s.worked.contains u.2 then withMeasured 6 [] s else withMeasured 2 [0, 0, 0, 0] s
  | .hostCore =>
    let (bs, s1) := freshBytes 1 s
    (toLe 8 (s.core u.2).retired ++ bs, s1)
  | .stack => withMeasured 4 [(s.stack u.2).ceTotal, (s.stack u.2).invocations] s
  | .port =>
    let x := s.port u.2
    let ns := [x.txBytes, x.rxBytes, x.replaysEver]
    if u.2 < 6 then withMeasured 1 (portFloor x :: ns) s else withMeasured 2 ns s
  | .judge =>
    let j := s.judges.getD u.2 {}
    withMeasured 0 [j.sampled, j.mismatch] s
  | .hub => withMeasured 0 [s.events, s.faultCnt] s
  | .channel | .ethernet => ([], s)

/-- The section of a unit (R420); what was in flight on its inbound channels is free. DESIGN CHOICE, log 97. -/
def unitSection (u : UnitClass × Nat) (s : State) : List Byte × State :=
  let n := inboundOf u
  let (flight, s1) := freshBytes (ceilDiv n 2) s
  let (ctrs, s2) := unitCounters u s1
  (toLe 2 (u.1.code <<< 12 ||| u.2) ++ toLe 2 n ++ toLe 2 (counterCount u.1) ++ List.replicate 10 0 ++
    (flight.take (4 * n) ++ List.replicate 4 0).take (inboundBytes u) ++ ctrs, s2)

def photoSections (s : State) : List Byte × State :=
  photoUnits.foldl (fun (acc : List Byte × State) u =>
    let (bs, s1) := unitSection u acc.2
    (acc.1 ++ bs, s1)) ([], s)

/-- The header of a record (R419). -/
def photoHeader (s : State) (number inject : Nat) : List Byte :=
  toLe 4 (0x0301 <<< 16 ||| photoUnits.length) ++ toLe 4 photoBytes ++ toLe 8 number ++ toLe 8 inject ++ toLe 8 s.now ++
    toLe 8 s.serial.toNat ++ List.replicate 24 0

/-- The last unit latches: the record is written and posted, and the next request starts. DESIGN CHOICE, log 97. -/
def photoDone (s : State) : State :=
  match s.telem.running with
  | none => s
  | some (p, t) =>
    let (body, s1) := s.photoSections
    let s2 := s1.ownStore p.addr (s.photoHeader p.number t ++ body)
    let s3 : State := { s2 with
      telem :=
        { completed := p.number, lastInject := t, running := s.telem.queue.head?.map fun q => (q, s.now)
          queue := s.telem.queue.tail }
      tracks := s2.tracks.map fun x => { x with marker := p.number } }
    s3.postDevice .photoDone (toLe 8 p.number ++ toLe 8 p.addr)

/-! ### device.tune (R473) -/

/-- The register that a request names, where it is one of the three that device.tune writes: whether it takes the value.
DEDUCED, log 98. -/
def tuneTakes (b o v : Nat) : Option Bool :=
  if 0x18 ≤ b ∧ b ≤ 0x1A ∧ o = 0 then some (decide (10 ≤ bitsAt v 0 5) && decide (bitsAt v 0 5 ≤ 16))
  else if 0x20 ≤ b ∧ b ≤ 0x27 ∧ o = 0x100 then some (decide (60 ≤ bitsAt v 0 9) && decide (bitsAt v 0 9 ≤ 480))
  else if (b = 0x30 ∨ b = 0x31) ∧ o = 0 then some (decide (10000 ≤ bitsAt v 0 20) && decide (bitsAt v 0 20 ≤ 500000))
  else none

def tuneFails (s : State) (m : Nat) : List Deny :=
  let t := tuneTakes (s.arg m 0 2) (s.arg m 4 4) (s.arg m 8 8)
  deny (s.arg m 2 2 != 0) .badOperand 2 ++ deny (t == some false) .badOperand 8 ++ deny t.isNone .noperm 0

/-- DEDUCED, log 98. -/
def deviceTune (s : State) (m : Nat) : State :=
  (s.writeBlock .starter (s.arg m 0 2) (s.arg m 4 4) (BitVec.ofNat 64 (s.arg m 8 8))).finishOk m []

/-! ### core.assign (R442, R473) -/

/-- DEDUCED, log 106. -/
def assignFails (s : State) (m : Nat) : List Deny :=
  let n := s.arg m 0 1
  let j := s.arg m 2 2
  deny (s.arg m 1 1 != 0) .badOperand 1 ++
    deny (j != 0xFFFF && match (s.core n).job with
      | some k => k != j
      | none => false) .badState 0 ++
    deny (decide (31 < n)) .badOperand 0 ++ deny (j != 0xFFFF && (s.job? j).isNone) .noSuch 2

def coreAssign (s : State) (m : Nat) : State :=
  let j := s.arg m 2 2
  (s.modCore (s.arg m 0 1) fun c => { c with job := if j = 0xFFFF then none else some j }).finishOk m []

/-! ### The boot store (R513 to R515) -/

/-- The size of a slot (R513). -/
def slotBytes (os : Bool) : Nat := if os then 896 * 2 ^ 20 else 64 * 2 ^ 20

/-- F of a kind. -/
def blown (s : State) (os : Bool) : Nat := if os then s.starter.osBlown else s.starter.fwBlown

namespace Image

def field (bs : List Byte) (o n : Nat) : Nat := leNat ((bs.drop o).take n)

/-- The header's own form: magic, kind, reserved fields, svn, body length, signer and key (R514). DEDUCED, log 99. -/
def formed (os : Bool) (bs : List Byte) : Bool :=
  field bs 0 4 == 0x4D494B4E && field bs 4 1 == (if os then 1 else 0) && field bs 5 3 == 0 && field bs 0xC 4 == 0 &&
    decide (field bs 0xB 1 ≤ 64) && field bs 0x10 8 + 512 == bs.length && decide (field bs 0x18 1 ≤ (if os then 1 else 0)) &&
    field bs 0x19 7 == 0 && (field bs 0x18 1 == 1 || field bs 0x20 8 == 0) && ((bs.drop 0xEC).take 276).all fun b => b == 0

/-- The digest of the body, and the signature by Iantokan's key or by the owner key that the header names. DEDUCED, log 99. -/
def signed (owners : List (List Byte)) (bs : List Byte) : Bool :=
  (Config.sha512 (bs.drop 512) == (bs.drop 0x28).take 64) &&
    if field bs 0x18 1 = 0 then Config.imageVerifies (bs.take 0xEC)
    else
      match owners.find? fun k => (ownerKeyId k).toNat == field bs 0x20 8 with
      | some key => Config.ecdsaVerify key (Config.sha512 (bs.take 0x68)) ((bs.drop 0x68).take 132)
      | none => false

end Image

/-- The image that a request names. -/
def argImage (s : State) (m : Nat) : List Byte := s.bytes (s.arg m 8 8) (s.arg m 16 8)

/-- DEDUCED, log 99. -/
def fwUpdateFails (s : State) (m : Nat) : List Deny :=
  let kind := s.arg m 0 1
  let os := kind == 1
  let n := s.arg m 16 8
  let inside := inEdern (s.arg m 8 8) n && decide (512 ≤ n) && decide (n ≤ slotBytes os)
  deny (decide (1 < kind)) .badOperand 0 ++ deny (decide (1 < s.arg m 1 1)) .badOperand 1 ++
    deny (s.arg m 2 6 != 0) .badOperand 2 ++ deny (!inEdern (s.arg m 8 8) n) .badOperand 8 ++
    deny (decide (n < 512) || decide (slotBytes os < n)) .badOperand 16 ++
    (if inside then
      deny (!Image.formed os (s.argImage m) || decide (Image.field (s.argImage m) 0xB 1 < s.blown os) ||
        !Image.signed s.starter.owners (s.argImage m)) .badOperand 8
    else []) ++
    deny (bitAt (s.arg m 1 1) 0 && !s.jobs.isEmpty) .badState 1

/-- The image goes into the inactive slot, which is marked for trial; a reset follows where it is asked for. DEDUCED, log 99. -/
def fwUpdate (s : State) (m : Nat) : State :=
  let os := s.arg m 0 1 == 1
  let slot := !s.activeSlot os
  let s1 := s.store (slotBase os slot) (s.argImage m)
  let s2 : State := { s1 with
    starter := if os then { s1.starter with osTrial := true } else { s1.starter with fwTrial := true } }
  let s3 := s2.finishOk m (toLe 1 (bit slot 0))
  if bitAt (s.arg m 1 1) 0 then s3.requestReset 4 else s3

/-! ### attest.report (R516) -/

/-- The image in a slot, header included. -/
def slotImage (s : State) (os b : Bool) : List Byte :=
  let a := slotBase os b
  s.bytes a (512 + min (s.read (a + 0x10) 8) (slotBytes os - 512))

/-- A digest as 64 bytes. -/
def digest64 (bs : List Byte) : List Byte := (Config.sha512 bs ++ List.replicate 64 0).take 64

/-- Bytes 0x000 to 0x13F of the report. DEDUCED, log 100. -/
def reportBody (s : State) (nonce : List Byte) : List Byte :=
  toLe 4 0x0401_01D0 ++ toLe 4 0 ++ toLe 8 s.serial.toNat ++ nonce ++ toLe 8 s.now ++ toLe 8 s.idRev ++ toLe 8 s.topState ++
    toLe 8 s.unitSpares ++ digest64 (s.slotImage false (s.runningSlot false)) ++
    digest64 (s.slotImage true (s.runningSlot true)) ++ digest64 (s.starter.owners.flatten ++ mapBytes s.unitMap) ++
    toLe 1 s.starter.fwBlown ++ toLe 1 s.starter.osBlown ++ toLe 1 0 ++ toLe 1 s.pair.mode.code ++ List.replicate 12 0

/-- The certificate chain of the boot store, at most 3,600 bytes (DESIGN CHOICE, log 3). -/
def certChain : List Byte :=
  (List.range (min 3600 (leNat [Config.fuseByte 0x2000, Config.fuseByte 0x2001]))).map fun i => Config.fuseByte (0x2002 + i)

/-- DEDUCED, log 100. -/
def attestReport (s : State) (m : Nat) : State :=
  let body := s.reportBody (s.argBytes m 0 64)
  let signature := (Config.ecdsaSign 0 (Config.sha512 body) ++ List.replicate 132 0).take 132
  let chain := if bitAt (s.arg m 0x40 1) 0 then toLe 4 certChain.length ++ certChain else []
  s.finishOk m (body ++ signature ++ List.replicate 12 0 ++ chain)

end State

/-! ### The rows -/

def execPaceSet (m : Fin 64) (s : State) : Host.Outcome State Fault Refusal :=
  .next (s.command { code := 0x801, auth := [.s, .f] } m.val 1 (s.paceFails m.val) (s.paceSet m.val))

def execTelemetryRead (m : Fin 64) (s : State) : Host.Outcome State Fault Refusal :=
  .next (s.command { code := 0x901, auth := [.s, .c, .f, .p], early := true } m.val 0xA (s.telemetryFails m.val)
    (s.telemetryRead m.val))

def execTelemetryPhotoFinish (m : Fin 64) (s : State) : Host.Outcome State Fault Refusal :=
  .next (s.command (gateScf 0x902) m.val 0x10 (s.photoFails m.val) (s.photoFinish m.val))

def execPhotoDone (s : State) : Host.Outcome State Fault Refusal := .next s.photoDone

def execDeviceTune (m : Fin 64) (s : State) : Host.Outcome State Fault Refusal :=
  .next (s.command { code := 0x903, auth := [.s, .f] } m.val 0x10 (s.tuneFails m.val) (s.deviceTune m.val))

def execCoreAssign (m : Fin 64) (s : State) : Host.Outcome State Fault Refusal :=
  .next (s.command (gateScf 0xA01) m.val 4 (s.assignFails m.val) (s.coreAssign m.val))

def execFwUpdate (m : Fin 64) (s : State) : Host.Outcome State Fault Refusal :=
  .next (s.command { code := 0xB01, auth := [.s, .f] } m.val 0x18 (s.fwUpdateFails m.val) (s.fwUpdate m.val))

def execAttestReport (m : Fin 64) (s : State) : Host.Outcome State Fault Refusal :=
  .next (s.command { code := 0xB02, auth := [.s, .c, .f, .p], unowned := true, early := true } m.val 0x41
    (deny (decide (1 < s.arg m.val 0x40 1)) .badOperand 0x40) (s.attestReport m.val))

end Sys2Proof.Machine
end

