-- ==== Sys2Proof/Machine/Clocks.lean ====
section
/-! DEFINITION. The Pacer (R518 to R526), transitions between paces (R532, R534), and the sensors with the thermal trip (R533,
R535). -/

namespace Sys2Proof.Machine

namespace State

/-! ### Faults of the whole device -/

/-- A fault that touches every job: a record for each, or one with outcome 4 where there is none. DEDUCED, log 93. -/
def detectAll (s : State) (f : FaultInfo) : State :=
  if s.jobs.isEmpty then s.detect false f else s.jobs.foldl (fun s j => s.detect false { f with job := some j.id }) s

/-- Jobs without an enrolled spare device are held with cause 0 (R22, R414, R524). DEDUCED, log 94. -/
def holdUnspared (s : State) : State :=
  s.jobs.foldl (fun s j =>
    match j.phase with
    | .held _ => s
    | _ => if j.spares.isEmpty then s.holdAll j.id 0 else s) s

/-- Every port of Relay and Ethernet goes DOWN for want of a reference (R524); R343 has no cause code for it. DEDUCED, log 94. -/
def linksLost (s : State) : State :=
  let s1 : State := { s with
    ports := s.ports.map fun x =>
      match x.state with
      | .training | .up | .retrain =>
        { x.dropLink with state := .down, cause := 0 }
      | _ => x }
  let s2 := (List.range 8).foldl (fun s e => s.ethDown e) s1
  if s.portActive 6 then s2.pairEvent 1 true else s2

/-! ### The Pacer (R519, R521) -/

/-- Whether two counts differ by at most a tolerance. -/
def within (a b tol : Nat) : Bool := decide (a ≤ b + tol) && decide (b ≤ a + tol)

/-- Judging the crystal: four windows in a row near the first of them and near 65,536 (R519). DEDUCED, log 16, DEDUCED, log 95. -/
def judgeWindow (p : Pacer) (n : Nat) : Pacer :=
  let first := if p.goodRun = 0 then n else p.first
  if within n 65536 1310 && within n first 131 then
    if p.goodRun = 3 then
      { p with goodRun := 4, first := first, state := 1, crystal := true, switchCnt := p.switchCnt + 1, bad := 0 }
    else { p with goodRun := p.goodRun + 1, first := first }
  else { p with goodRun := 0 }

/-- The crystal is lost: the domains are on the internal oscillator again, and the Starter takes its NMI (R521, R524, R462).
DEDUCED, log 16, DEDUCED, log 94. -/
def clockLost (s : State) : State :=
  let s1 : State := { s with
    pacer := { s.pacer with state := 2, crystal := false, switchCnt := s.pacer.switchCnt + 1 }
    starter := { s.starter with nmi := s.starter.nmi ||| 1 } }
  (((s1.linksLost).detectAll { mech := Mech.pacer.code }).holdUnspared).postDevice .clockLost []

/-- Checking the crystal: two windows in a row off by more than 1,310 (R521). DEDUCED, log 95. -/
def checkWindow (s : State) (n : Nat) : State :=
  if within n 65536 1310 then { s with pacer := { s.pacer with bad := 0 } }
  else
    let s1 : State := { s with pacer := { s.pacer with failCnt := s.pacer.failCnt + 1, bad := s.pacer.bad + 1 } }
    if s.pacer.bad = 0 then s1 else s1.clockLost

/-- A window ends. -/
def windowEnds (s : State) (n : Nat) : State :=
  if s.power.held then s
  else
    let s1 : State := { s with pacer := { s.pacer with lastCnt := n } }
    if s.pacer.state = 0 then { s1 with pacer := judgeWindow s1.pacer n }
    else if s.pacer.state = 1 then s1.checkWindow n
    else s1

/-- The internal oscillator has failed: the clock monitor no longer works, and the device is unfit (R523). -/
def oscillatorFails (s : State) : State :=
  if s.power.held || s.pacer.intFault then s
  else ({ s with pacer := { s.pacer with intFault := true } } : State).detect true { mech := Mech.pacer.code }

/-- 100 ms without a stable crystal: one record with outcome 4 (R525). -/
def crystalLate (s : State) : State :=
  if s.pacer.state = 0 ∧ !s.pacer.lateNoted ∧ !s.power.held ∧ 10000000 < s.now then
    ({ s with pacer := { s.pacer with lateNoted := true } } : State).recordFault { mech := Mech.pacer.code }
  else s

/-! ### Paces (R532, R534) -/

/-- The supply has settled: the pace is in force, its request is answered, and the requests behind it follow. -/
def paceSettles (s : State) : State :=
  if !s.pace.ramping then s
  else
    let p := paceTarget s.pace
    let s1 : State := { s with pace := { s.pace with ramping := false, inForce := p, waiting := none } }
    let s2 := match s.pace.waiting with
      | some m => s1.finishOk m (toLe 1 p.code)
      | none => s1
    laterPaces s2.pace.later.length s2

def Pace.down : Pace → Pace
  | .sprint => .nominal
  | _ => .frugal

def Pace.up : Pace → Pace
  | .frugal => .nominal
  | _ => .sprint

/-- The thermal limit moves; the change starts a transition unless one is in progress, which then ends at the new pace.
DEDUCED, log 92. -/
def moveLimit (s : State) (p : Pace) : State :=
  let s1 := ({ s with pace := { s.pace with limit := p } } : State).noteThrottle
  if s1.pace.ramping then s1 else s1.startRamp none

/-- A compute die has stayed above its throttle limit for 10 ms since the limit last moved. DEDUCED, log 92. -/
def throttle (s : State) : State :=
  if s.pace.hot ∧ 1000000 < s.now - s.pace.movedAt then
    ({ s with pace := { s.pace with movedAt := s.now } } : State).moveLimit (Pace.down s.pace.limit)
  else s

/-- Both dies have stayed at or below their release limit for 1 s. DEDUCED, log 92. -/
def release1s (s : State) : State :=
  match s.pace.coolSince with
  | some t =>
    if 100000000 < s.now - t ∧ s.pace.limit.code < s.pace.requested.code then
      ({ s with pace := { s.pace with coolSince := some s.now } } : State).moveLimit (Pace.up s.pace.limit)
    else s
  | none => s

/-! ### Sensors (R533, R535) -/

def hottest (ts : List Int) : Int := ts.foldl max (ts.headD 0)

/-- The parts above their trip limits: CD0, CD1, hub, DRAM, optics (R536). -/
def tripped (r : SensorReading) : BitVec 5 :=
  BitVec.ofNat 5 (bit (decide (110 < r.cd0)) 0 ||| bit (decide (110 < r.cd1)) 1 ||| bit (decide (110 < r.hub)) 2 |||
    bit (decide (105 < hottest r.dram)) 3 ||| bit (decide (95 < hottest r.optics)) 4)

/-- What a reading leaves in the registers, and since when each die is hot or cool; a stack above 85 °C halves its refresh
interval (R274). DEDUCED, log 92. -/
def noteTemps (s : State) (r : SensorReading) : State :=
  let hot := decide (100 < r.cd0) || decide (100 < r.cd1)
  let cool := decide (r.cd0 ≤ 90) && decide (r.cd1 ≤ 90)
  { s with
    temps := { cd0 := r.cd0, cd1 := r.cd1, hub := r.hub, dram := hottest r.dram, optics := hottest r.optics }
    pace := { s.pace with
      hot := hot
      movedAt := if hot && !s.pace.hot then s.now else s.pace.movedAt
      coolSince := if cool then some (s.pace.coolSince.getD s.now) else none }
    edern := s.edern.zipIdx.map fun x =>
      let t := r.dram.getD x.2 0
      { x.1 with temp := t, refreshHalved := decide (85 < t) } }

/-- The unit that the record of a trip names: a stack or a port where only such parts tripped, else the hub. DEDUCED, log 93. -/
def tripUnit (r : SensorReading) (bits : BitVec 5) : UnitClass × Nat :=
  if bits &&& 7 ≠ 0 then (.hub, 0)
  else if bits.getLsbD 3 then (.stack, ((List.range 8).find? fun k => decide (105 < r.dram.getD k 0)).getD 0)
  else (.port, ((List.range 6).find? fun k => decide (95 < r.optics.getD k 0)).getD 0)

/-- Supplies of the compute dies, the stacks and the optical engines are off; where the hub tripped, every rail is, and only a
power-up starts the device again. DEDUCED, log 93. -/
def tripPower (s : State) (hub : Bool) : State :=
  if hub then
    let h := s.held s.starter.lastReset
    { h with power := { h.power with good := false, rails := false, thermTripN := false } }
  else
    { s with
      power := { s.power with rails := false, thermTripN := false }
      cores := s.cores.map fun c => { c with state := .off } }

/-- A thermal trip: NMI THERM, the record, every job halted, THERM_TRIP_N (R535). DEDUCED, log 93. -/
def thermalTrip (s : State) (r : SensorReading) (bits : BitVec 5) : State :=
  let u := tripUnit r bits
  let s1 : State := { s with
    power := { s.power with trip := s.power.trip ||| bits }
    starter := { s.starter with nmi := s.starter.nmi ||| 2 } }
  let s2 := s1.detectAll { mech := Mech.thermal.code, cls := u.1.code, index := u.2 }
  ((s2.postDevice .thermal []).raiseAlert 4).tripPower (bits.getLsbD 2)

/-- A reading of every sensor; after a trip only further parts are noted, and a trip of the hub. DEDUCED, log 93.
DESIGN CHOICE, log 117. -/
def readSensors (s : State) (r : SensorReading) : State :=
  if s.power.held then s
  else
    let s1 := s.noteTemps r
    let bits := tripped r
    if bits = 0 then s1
    else if s.power.thermTripN then s1.thermalTrip r bits
    else
      let s2 : State := { s1 with power := { s1.power with trip := s1.power.trip ||| bits } }
      if bits.getLsbD 2 then s2.tripPower true else s2

end State

/-! ### The rows -/

def execPacerWindow (count : Nat) (s : State) : Host.Outcome State Fault Refusal := .next (s.windowEnds count).settle
def execInternalOscillatorFail (s : State) : Host.Outcome State Fault Refusal := .next s.oscillatorFails.settle
def execCrystalStartTimeout (s : State) : Host.Outcome State Fault Refusal := .next s.crystalLate
def execPaceSettled (s : State) : Host.Outcome State Fault Refusal := .next s.paceSettles

def execSensorReading (r : SensorReading) (s : State) : Host.Outcome State Fault Refusal :=
  if SensorReading.wf r then .next (s.readSensors r).settle else .fault .illFormed

def execThrottleStep (s : State) : Host.Outcome State Fault Refusal := .next s.throttle
def execThrottleRelease (s : State) : Host.Outcome State Fault Refusal := .next s.release1s

end Sys2Proof.Machine
end

