-- ==== Sys2Proof/Machine/Bringup.lean ====
section
/-! DEFINITION. The events of bring-up from the image's check to READY (R515, R545 to R548). -/

namespace Sys2Proof.Machine

/-- Self-test waits until every sensor is at or below its release limit (R533, R546). -/
def Temps.released (t : Temps) : Bool := decide (t.cd0 ≤ 90) && decide (t.cd1 ≤ 90) && decide (t.dram ≤ 85)

namespace State

/-! ### Trial boots (R515) -/

/-- A trial has failed: the Starter resets into the previous slot, sets trial_fail and posts FAULT with outcome 4. R398 gives no
mechanism for it, which is free. DEDUCED, log 101. -/
def trialFails (s : State) : State :=
  let s1 := s.requestReset 4
  let (v, s2) := ({ s1 with
    starter := { s1.starter with trialFail := true, fwTrial := false, osTrial := false, trialBoot := false } } : State).fresh
  s2.recordFault { mech := v.toNat % 256 }

/-- At READY after a successful trial the slot becomes active, its mark goes, and fuses are blown up to its image's svn.
DEDUCED, log 101. -/
def settleTrial (s : State) (os : Bool) : State :=
  if s.starter.trialBoot && s.trialMarked os then
    let slot := !s.activeSlot os
    let f := max (s.blown os) (min 64 (s.byte (slotBase os slot + 0xB)).toNat)
    { s with starter :=
        if os then { s.starter with osSlot := slot, osTrial := false, osBlown := f }
        else { s.starter with fwSlot := slot, fwTrial := false, fwBlown := f } }
  else s

/-- A trial that has not reached READY within 45 s. DEDUCED, log 101. -/
def trialLate (s : State) : State :=
  if s.starter.trialBoot ∧ !s.power.held ∧ s.dev.code < DevState.ready.code ∧ 4500000000 < s.now then s.trialFails else s

/-! ### Events 5 to 11 (R545) -/

/-- Event 5: the image has been checked and runs. A trial image that fails is given up; one that is not on trial leaves the
device in RESET. DEDUCED, log 101. -/
def imageChecked (s : State) (ok : Bool) : State :=
  if s.power.held || s.power.image then s
  else if ok then { s with dev := .selftest, power := { s.power with image := true } }
  else if s.starter.trialBoot then s.trialFails
  else s

/-- What a failure of self-test leads to (R546). -/
def selfTestFailed (s : State) (f : SelfTestFailure) : State :=
  let rec_ (cls : UnitClass) (i : Nat) : FaultInfo := { mech := Mech.selftest.code, cls := cls.code, index := i }
  match f with
  | .heat p => s.detect true (rec_ .heat p.val)
  | .dramDie k d =>
    match (s.stack k.val).markedDie with
    | none => s.markDie k.val d.val 0
    | some e => if e = d.val then s else s.detect true (rec_ .stack k.val)
  | .dramDies k => s.detect true (rec_ .stack k.val)
  | .hostCore n => s.detect true (rec_ .hostCore n.val)
  | .bridge _ => s.detect true (rec_ .hub 0)
  | .relay p => s.detect true (rec_ .port p.val)
  | .optics p => s.detect true (rec_ .port p.val)
  | .security => s.detect true (rec_ .hub 0)

/-- The zeros of R543: what is left of memory is the boot store; no line is poisoned. DESIGN CHOICE, log 5. -/
def zeroMemory (s : State) : State := { s with mem := s.mem.slice bootBase 0x8000_0000, poisoned := [] }

/-- Event 6: self-test is complete; the ports are enabled, and the first patrol pass starts (R275). DEDUCED, log 102. -/
def selfTested (s : State) (fs : List SelfTestFailure) : State :=
  if s.power.held || !s.power.image || s.power.tested || !Temps.released s.temps then s
  else
    let s1 := (fs.foldl selfTestFailed s).zeroMemory
    let s2 : State := { s1 with
      dev := .pairing, power := { s1.power with tested := true, testedAt := s1.now }
      edern := s1.edern.map fun e => { e with passStart := s1.now * Patrol.lines } }
    ((List.range 7).foldl trainPort s2).followPresent

/-- ADDRESSING applies from the later of events 7 and 8. -/
def startAddressing (s : State) : State :=
  if s.power.pairing && s.power.links then { s with dev := .addressing, power := { s.power with addressingAt := s.now } } else s

/-- Whether the twins have joined in SHADOW mode. -/
def pairReady (s : State) : Bool := s.pair.joined && s.pair.mode == .shadow && (s.port 6).state == .up

/-- Event 7: at once without PAIR_PRESENT; when the twins have joined; or after 10 s, UNPAIRED, with PAIR_EVENT.
DEDUCED, log 102. -/
def resolvePairing (s : State) : State :=
  if !s.power.tested || s.power.pairing then s
  else
    let late := decide (1000000000 < s.now - s.power.testedAt)
    let done (s : State) : State :=
      ({ s with dev := .links, power := { s.power with pairing := true } } : State).startAddressing
    if !s.inputs.pairPresent || s.pairReady then done s
    else if late then done (s.postDevice .pairEvent (toLe 1 1 ++ toLe 1 s.pair.mode.code))
    else s

/-- Event 8: every enabled partner port is UP, or has not locked after 10 s. DEDUCED, log 102. -/
def resolveLinks (s : State) : State :=
  if !s.power.tested || s.power.links then s
  else
    let late := decide (1000000000 < s.now - s.power.testedAt)
    if (List.range 6).all fun p =>
        let x := s.port p
        !x.enable || x.everUp || x.state == .up || (late && !x.locked) then
      ({ s with power := { s.power with links := true } } : State).startAddressing
    else s

/-- Event 9: every Ethernet port that is up has both addresses, or 5 s have passed. DEDUCED, log 102. -/
def resolveAddressing (s : State) : State :=
  if s.dev ≠ .addressing then s
  else if 500000000 < s.now - s.power.addressingAt ∨ (s.eth.all fun x => !x.up || (x.ipv4 != 0 && x.ipv6 != 0)) then
    { s with dev := .osBoot }
  else s

/-- Event 10: the host cores that are not retired are released into the system image (R21). DEDUCED, log 102. -/
def bootOs (s : State) (entry : BitVec 52) : State :=
  if s.dev ≠ .osBoot ∨ s.cores.any fun c => c.state != .off then s
  else
    { s with cores := s.cores.zipIdx.map fun x =>
        if s.retiredCores.contains x.2 then x.1
        else { x.1 with resetVec := entry, pc := entry.setWidth 64, mode := .m, state := .running } }

/-- Event 11: READY, or UNFIT (R548); not before the crystal is judged stable (R525). DEDUCED, log 102. -/
def reachReady (s : State) : State :=
  if s.dev ≠ .osBoot ∨ !s.pacer.crystal ∨ s.cores.all fun c => c.state == .off then s
  else
    let s1 := (s.settleTrial false).settleTrial true
    let s2 : State := { s1 with starter := { s1.starter with trialBoot := false } }
    if s.unfit then ({ s2 with dev := .unfit } : State).postDevice .unfit []
    else ({ s2 with dev := .ready } : State).postDevice .ready []

end State

namespace State

/-! ### The idle cycle -/

/-- What passes while no command waits: the timer counts a cycle (R8, R527), and the events that wait to be pushed go out
(R504). The timer stands while the hub is held in reset; a Starter that has stopped pushes nothing (R394). DESIGN CHOICE, log 8;
DEDUCED, log 62, DEDUCED, log 87. DESIGN CHOICE, log 116. -/
def idleCycle (s : State) : State :=
  if s.power.held then s
  else
    let s1 : State := { s with now := s.now + 1 }
    if s.starter.stopped then s1 else s1.pushEvents

end State

/-! ### The rows -/

def execImageCheck (ok : Bool) (s : State) : Host.Outcome State Fault Refusal := .next (s.imageChecked ok)
def execSelftestComplete (failures : List SelfTestFailure) (s : State) : Host.Outcome State Fault Refusal :=
  .next (s.selfTested failures)
def execPairingResolved (s : State) : Host.Outcome State Fault Refusal := .next s.resolvePairing
def execLinksResolved (s : State) : Host.Outcome State Fault Refusal := .next s.resolveLinks
def execAddressingResolved (s : State) : Host.Outcome State Fault Refusal := .next s.resolveAddressing
def execOsBoot (entry : BitVec 52) (s : State) : Host.Outcome State Fault Refusal := .next (s.bootOs entry)
def execReady (s : State) : Host.Outcome State Fault Refusal := .next s.reachReady
def execTrialBootTimeout (s : State) : Host.Outcome State Fault Refusal := .next s.trialLate

end Sys2Proof.Machine
end

