-- ==== Sys2Proof/Machine/Shadows.lean ====
section
/-! DEFINITION. Restoring a job to a generation (R302, R305, R413), and the SHADOW packets by which the twins exchange
generations (R303 to R305; the layout of their payload is DESIGN CHOICE, log 22). -/

namespace Sys2Proof.Machine

/-! ### Queue and job state of a generation (R256, R299) -/

/-- A queue as a generation holds it; one that the generation does not know starts at position 0 (DESIGN CHOICE, log 40). -/
def rewindQueue (qs : List (Nat × Committed)) (q : CmdQueue) : CmdQueue :=
  let c : Committed := ((qs.find? fun e => e.1 == q.id).map fun e => e.2).getD
    { position := 0, sregs := List.replicate 64 0, laps := [], generate := false, hurdles := [] }
  { q with
    state := if q.state = .unbound then .unbound else .frozen, pos := c.position, next := c.position, sregs := c.sregs
    laps := c.laps, generate := c.generate, wait := .none, status := 0, armed := [], committed := c, resumedAt := none }

/-- A group's sequence counter and Hurdle state of a generation. -/
def rewindGroup (qs : List (Nat × Committed)) (seqs : List (Nat × Nat)) (g : Group) : Group :=
  let h := (qs.flatMap fun q => q.2.hurdles).find? fun h => h.1 == g.id
  { g with
    seq := ((seqs.find? fun e => e.1 == g.id).map fun e => e.2).getD 0
    arrivals := (h.map fun h => h.2.1).getD 0, round := (h.map fun h => h.2.2).getD 0 }

namespace State

/-- Set the job values and the queue state of a restored generation. -/
def rewind (s : State) (id step lap : Nat) (qs : List (Nat × Committed)) (seqs : List (Nat × Nat)) : State :=
  let s1 : State := { s with
    queues := s.queues.map fun (q : CmdQueue) => if q.job = id then rewindQueue qs q else q
    groups := s.groups.map fun g => if g.job = id then rewindGroup qs seqs g else g }
  s1.modJob id fun j =>
    { j with
      step := step, lap := lap, watch := {}, digest := 0, ownDigests := [], twinDigests := [], ckptRequested := false
      updateArmed := false, skipping := false, faultStep := false, restart := { j.restart with restored := true } }

/-- The generation of a step that this device can restore locally (R407). -/
def localGen? (j : Job) (step : Nat) : Option Gen :=
  j.gens.find? fun g => g.step == step && (g.state == .frozen || g.state == .shadowed) && !g.lostLocal

/-- Every host core's cached line of a job's set is invalidated (R302). -/
def dropSetLines (s : State) (j : Job) : State :=
  let inSet (a : Nat) : Bool := j.ranges.any fun r => r.contains a
  { s with
    caches := s.caches.filter fun b => !inSet b.addr
    reservations := s.reservations.filter fun r => !inSet r.2 }

/-- LOCAL_RESTORE (R302): the set reads as the generation does, newer generations go, and every cached line of the set is
invalidated. -/
def localRestore (s : State) (id step : Nat) : State :=
  match s.job? id with
  | none => s
  | some j =>
    match localGen? j step with
    | none => s
    | some g =>
      if j.phase ≠ .restarting ∨ j.restart.restorePoint ≠ some step ∨ j.restart.restored then s
      else
        let inSet (a : Nat) : Bool := j.ranges.any fun r => r.contains a
        let s1 : State := { s with
          mem := j.ranges.foldl (fun m r => m.overlay r.base r.len g.cells) s.mem
          poisoned := (s.poisoned.filter fun l => !inSet l) ++ g.poisoned }
        let s2 := (s1.dropSetLines j).modJob id fun x => { x with map := g.map, gens := x.gens.filter fun y => decide (y.step ≤ step) }
        s2.rewind id step g.lap g.committed g.seqs

end State

/-! ### Streaming to the twin (R303, R304) -/

/-- Marks in `Gen.streamed` beyond the eight stacks: refused by the twin, failed on a poisoned granule. -/
def streamRefused : Nat := 254
def streamFailed : Nat := 255

/-- The data of a granule in a list of cells of memory. -/
def granuleOf (cells : List Host.Cell) (a : Nat) : List Byte :=
  Memory.getBytes (cells.filter fun c => decide (a ≤ c.1) && decide (c.1 < a + State.granule)) a State.granule

namespace State

/-- The generation before `g` that the twin holds. -/
def prevShadowed (j : Job) (g : Gen) : Option Gen :=
  (j.gens.filter fun x => decide (x.step < g.step) && (x.state == .shadowed || x.state == .lostLocal)).getLast?

/-- The granules of a stack that a generation streams: those that differ from the previous SHADOWED one, or the whole set.
DEDUCED, log 81. -/
def deltaGranules (j : Job) (g : Gen) (st : Nat) : List Nat :=
  (granulesOf j.ranges).filter fun a => stackOf a == st &&
    match prevShadowed j g with
    | some p => j.wholeNext || physOf g.map a != physOf p.map a
    | none => true

def modGen (s : State) (id step : Nat) (f : Gen → Gen) : State :=
  s.modJob id fun j => { j with gens := j.gens.map fun g => if g.step = step then f g else g }

/-- The oldest FROZEN generation that a stack has still to stream. -/
def toStream (j : Job) (st : Nat) : Option Gen :=
  j.gens.find? fun g => g.state == .frozen && !g.streamed.contains st && !g.streamed.contains streamRefused &&
    !g.streamed.contains streamFailed

/-- The record follows once every stack has streamed. -/
def streamRecord (s : State) (id step : Nat) : State :=
  match s.job? id with
  | none => s
  | some j =>
    match j.gens.find? fun g => g.step == step with
    | some g =>
      if (List.range 8).all g.streamed.contains then
        ((s.modJob id fun x => { x with wholeNext := if (x.gens.getLast?.map Gen.step) = some step then false else x.wholeNext }).modGen
          id step fun x => { x with sent := x.sent ++ [recordAddr] }).sendShadow id .stream step recordAddr g.record
      else s
    | none => s

/-- SHADOW_STREAM (R303, R304): a stack's delta goes to the twin; a poisoned granule ends the stream. DEDUCED, log 81. -/
def shadowStream (s : State) (id st : Nat) : State :=
  match s.job? id with
  | none => s
  | some j =>
    match (if s.shadowing then toStream j st else none) with
    | none => s
    | some g =>
      let ds := deltaGranules j g st
      if g.poisoned.any fun l => ds.contains (l / granule * granule) then
        ((s.modGen id g.step fun x => { x with streamed := x.streamed ++ [streamFailed] }).modJob id fun x =>
          { x with wholeNext := true }).postDevice .shadowFailed (toLe 2 id ++ toLe 8 g.step)
      else
        let s1 := ds.foldl (fun s a => s.sendShadow id .stream g.step a (granuleOf g.cells a)) s
        let s2 := (s1.modStack st fun e => { e with shadowSent := e.shadowSent + granule * ds.length }).modGen id g.step fun x =>
          { x with streamed := x.streamed ++ [st], sent := x.sent ++ ds }
        s2.streamRecord id g.step

/-- Whether the twin has confirmed every granule and the record of a generation, whose stream it has not refused (R304, R401). -/
def twinHolds (g : Gen) : Bool :=
  g.state == .frozen && (List.range 8).all g.streamed.contains && !g.streamed.contains streamRefused &&
    g.sent.contains recordAddr && g.sent.all g.confirmed.contains

/-- A generation that the twin holds whole becomes SHADOWED (R304). -/
def shadowWhole (s : State) (id step : Nat) : State :=
  match s.job? id with
  | none => s
  | some j => if j.gens.any fun g => g.step == step && twinHolds g then s.modJob id (shadowGen step) else s

/-- The twin confirms one part of a stream. -/
def shadowConfirms (s : State) (id step addr : Nat) : State :=
  (s.modGen id step fun g =>
    if g.sent.contains addr && !g.confirmed.contains addr then { g with confirmed := g.confirmed ++ [addr] } else g).shadowWhole id step

/-- SHADOW_CONFIRM: the twin confirms all that has been streamed of a generation (R304). -/
def shadowConfirmed (s : State) (id step : Nat) : State :=
  (s.modGen id step fun g => { g with confirmed := g.sent }).shadowWhole id step

/-! ### Holding the twin's generations (R303, R305, R401) -/

/-- Bytes that the twin's generations take in a stack's shadow region. -/
def shadowUsed (s : State) (st : Nat) : Nat :=
  granule * (s.shadows.flatMap fun h => h.granules.filter fun g => stackOf g.1 == st).length

/-- The region set aside in a stack. -/
def shadowLen (s : State) (st : Nat) : Nat := ((s.shadowRegions.filter fun r => stackOf r.base == st).map Range.len).sum

def shadow? (s : State) (job step : Nat) : Option Shadow := s.shadows.find? fun h => h.job == job && h.step == step

/-- The generation of a step that is held whole. -/
def wholeShadow? (s : State) (job step : Nat) : Option Shadow := (s.shadow? job step).filter Shadow.complete

/-- The newest two complete generations of a job stay; an older one gives the granules that the next does not replace to it.
DEDUCED, log 81. -/
def keepTwo (hs : List Shadow) (job : Nat) : List Shadow :=
  let own := hs.filter fun h => h.job == job && h.complete
  let steps := own.map Shadow.step
  let newer (n : Nat) : List Nat := steps.filter fun k => decide (n < k)
  match own.filter fun h => (newer h.step).length == 2, own.filter fun h => (newer h.step).length == 1 with
  | old :: _, next :: _ =>
    let kept := old.granules.filter fun g => next.granules.all fun x => x.1 != g.1
    (hs.filter fun h => !(h.job == job && h.complete && decide (2 ≤ (newer h.step).length))).map fun h =>
      if h.job = job ∧ h.step = next.step then { h with granules := kept.foldl (fun acc g => insertBy Prod.fst g acc) h.granules }
      else h
  | _, _ => hs

/-- Every granule of a generation that the twin can send back: its own, and those shared with the older one. -/
def shadowAll (s : State) (h : Shadow) : List (Nat × List Byte) :=
  let older := s.shadows.filter fun x => x.job == h.job && x.complete && decide (x.step < h.step)
  h.granules ++ (older.flatMap Shadow.granules).filter fun g => h.granules.all fun x => x.1 != g.1

/-- Keep what has been received of a generation; a refused one of the job goes. The generation is whole once its record has come
and no part is asked for again. DEDUCED, log 81. -/
def setShadow (s : State) (h : Shadow) : State :=
  let whole := !h.record.isEmpty && h.missing.isEmpty
  let others := s.shadows.filter fun x => !(x.job == h.job && (x.step == h.step || x.refused))
  let hs := others ++ [{ h with complete := h.complete || whole }]
  { s with shadows := if whole then keepTwo hs h.job else hs }

/-- A streamed granule or record arrives: written, then confirmed; one that fails its check is asked for again; and a stream
without room is refused, as are its later parts (R303, R304, R401). DEDUCED, log 81. -/
def shadowData (s : State) (job step addr : Nat) (data : List Byte) (crcOk : Bool) : State :=
  let h : Shadow := (s.shadow? job step).getD { job := job, step := step, granules := [], record := [], complete := false }
  let missing := h.missing.filter fun a => a != addr
  let short := addr != recordAddr && (h.granules.all fun g => g.1 != addr) &&
    decide (s.shadowLen (stackOf addr) < s.shadowUsed (stackOf addr) + granule)
  if h.refused then s.sendShadow job .refuse step addr []
  else if !crcOk then (s.setShadow { h with missing := missing ++ [addr] }).sendShadow job .resend step addr []
  else if addr = recordAddr then (s.setShadow { h with record := data, missing := missing }).sendShadow job .confirm step addr []
  else if short then
    (s.setShadow { h with granules := [], record := [], missing := [], refused := true }).sendShadow job .refuse step addr []
  else
    (s.setShadow
      { h with granules := insertBy Prod.fst (addr, data) (h.granules.filter fun g => g.1 != addr), missing := missing }).sendShadow
      job .confirm step addr []

/-- The twin refuses a stream: the generation stays FROZEN, with one SHADOW_NO_SPACE event (R401). DEDUCED, log 81. -/
def shadowRefused (s : State) (job step addr : Nat) : State :=
  match (s.job? job).bind fun j => j.gens.find? fun g => g.step == step && g.state == .frozen with
  | some g =>
    if g.streamed.contains streamRefused then s
    else
      (s.modGen job step fun x => { x with streamed := x.streamed ++ [streamRefused] }).postDevice .shadowNoSpace
        (toLe 1 (stackOf addr) ++ toLe 2 job)
  | none => s

/-- Send a streamed part again. DEDUCED, log 81. -/
def shadowResend (s : State) (job step addr : Nat) : State :=
  match (s.job? job).bind fun j => j.gens.find? fun g => g.step == step && g.state == .frozen with
  | some g => s.sendShadow job .stream step addr (if addr = recordAddr then g.record else granuleOf g.cells addr)
  | none => s

/-- The twin asks for its generation back: the shadow, or in mirror mode this device's own (R305, R403). -/
def shadowRequested (s : State) (job step : Nat) (only : Option Nat) : State :=
  let wanted (a : Nat) : Bool := match only with
    | some x => x == a
    | none => true
  let back (gs : List (Nat × List Byte)) (record : List Byte) : State :=
    let s1 := (gs.filter fun g => wanted g.1).foldl (fun s g => s.sendShadow job .restore step g.1 g.2) s
    if wanted recordAddr then s1.sendShadow job .restore step recordAddr record else s1
  match s.wholeShadow? job step with
  | some h => back (s.shadowAll h) h.record
  | none =>
    match (s.job? job).bind fun j => (localGen? j step).map fun g => (j, g) with
    | some (j, g) =>
      if s.pair.mode = .mirror then back ((granulesOf j.ranges).map fun a => (a, granuleOf g.cells a)) g.record else s
    | none => s

/-- Whether a job takes the bytes of a generation back now. -/
def takesBack (s : State) (job step : Nat) : Bool :=
  match s.job? job with
  | some j => j.phase == .restarting && j.restart.restorePoint == some step && !j.restart.restored
  | none => false

/-- Note that a part of the generation that comes back is to come again, or has come. -/
def restoreAwaits (s : State) (job addr : Nat) (again : Bool) : State :=
  s.modJob job fun x => { x with restart := { x.restart with
    missing := (x.restart.missing.filter fun a => a != addr) ++ if again then [addr] else [] } }

/-- A part of a generation that comes back: a granule goes into the live granules; one that fails its check, and a record that
comes before such a granule has come again, is asked for again (`again`); the record completes the restore as R302 states. -/
def restoreData (s : State) (job step addr : Nat) (data : List Byte) (crcOk : Bool) (again : State → State) : State :=
  match s.job? job with
  | none => s
  | some j =>
    if !s.takesBack job step then s
    else if !crcOk || (addr == recordAddr && j.restart.missing.any fun a => a != recordAddr) then again (s.restoreAwaits job addr true)
    else if addr = recordAddr then
      let rd := GenRec.inBytes data
      (((s.restoreAwaits job addr false).dropSetLines j).modJob job fun x =>
        { x with gens := x.gens.filter fun y => decide (y.step ≤ step) }).rewind job step (GenRec.lap rd) (GenRec.entries rd)
        (GenRec.seqs rd)
    else if (granulesOf j.ranges).contains addr then (s.restoreAwaits job addr false).store addr data
    else s

/-- A whole SHADOW message. -/
def shadowMessage (s : State) (job : Nat) (kind : ShadowKind) (bs : List Byte) : State :=
  let step := leNat (bs.take 8)
  let addr := leNat ((bs.drop 8).take 8)
  let data := (bs.drop 32).take (leNat ((bs.drop 16).take 4))
  let crcOk := leNat ((bs.drop 20).take 4) == (crc32c data).toNat
  match kind with
  | .stream => s.shadowData job step addr data crcOk
  | .confirm => s.shadowConfirms job step addr
  | .refuse => s.shadowRefused job step addr
  | .resend => s.shadowResend job step addr
  | .restore => s.restoreData job step addr data crcOk fun s => s.sendShadow job .again step addr []
  | .request => s.shadowRequested job step none
  | .again => s.shadowRequested job step (some addr)
  | .release => { s with shadows := s.shadows.filter fun h => h.job != job }

/-- A SHADOW packet: its message is acted on once whole. -/
def shadowIn (s : State) (k : Packet) : State :=
  let rx := if k.first = 0 then k.payload else s.pair.shadowRx ++ k.payload
  if rx.length < 32 + leNat ((rx.drop 16).take 4) then { s with pair := { s.pair with shadowRx := rx } }
  else
    match ShadowKind.ofCode k.stage.toNat with
    | some kind => ({ s with pair := { s.pair with shadowRx := [] } } : State).shadowMessage k.job.toNat kind rx
    | none => { s with pair := { s.pair with shadowRx := [] } }

end State

def execShadowStream (job : Nat) (st : Fin 8) (s : State) : Host.Outcome State Fault Refusal := .next (s.shadowStream job st.val)
def execShadowConfirm (job step : Nat) (s : State) : Host.Outcome State Fault Refusal := .next (s.shadowConfirmed job step)
def execLocalRestore (job step : Nat) (s : State) : Host.Outcome State Fault Refusal := .next (s.localRestore job step)

end Sys2Proof.Machine
end

