-- ==== Sys2Proof/Machine/Restart.lean ====
section
/-! DEFINITION. Fault notices (R406), the restart sequence (R405, R407, R411 to R415), restore transfers (R412), CTRL packets
(R385, R405), and the detections of R394, R395, R410 and R439. -/

namespace Sys2Proof.Machine

namespace State

/-! ### Flooding notices (R405) -/

/-- Whether a job has forwarded a notice already. DEDUCED, log 77. -/
def heardNotice (s : State) (job : Nat) (key : Nat × W64 × Nat) : Bool :=
  match s.job? job with
  | some j => j.seen.contains key
  | none => false

/-- Forward a notice once, on every port of the job's groups except the one it came on. DEDUCED, log 77. -/
def forward (s : State) (from_ : Option Nat) (job : Nat) (n : Notice) (origin : W64) (number value : Nat) (more : List Byte) : State :=
  let s1 := s.modJob job fun j => { j with seen := j.seen ++ [(n.code, origin, number)] }
  s1.notify ((s1.jobPorts job).filter fun p => some p != from_) job n origin number value more

/-- The UP partner ports. -/
def upPartners (s : State) : List Nat := (List.range 6).filter fun p => (s.port p).state == .up

/-! ### Restore transfers (R412) -/

def transfer? (s : State) (job : Nat) : Option Transfer := s.transfers.find? fun t => t.job == job

def modTransfer (s : State) (job : Nat) (f : Transfer → Transfer) : State :=
  { s with transfers := s.transfers.map fun t => if t.job = job then f t else t }

/-- The group of restore transfers. -/
def transferGroup : Nat := 0x3FFF

/-- Send one message of a transfer as PUT packets. -/
def sendTransfer (s : State) (p job number : Nat) (bs : List Byte) : State :=
  (List.range (ceilDiv bs.length 4096)).foldl (fun s i =>
    s.send p (s.mkPacket p .put job transferGroup number (128 * i) 0 0 0 ((bs.drop (4096 * i)).take 4096))) s

/-- The messages of a generation that this device holds whole, in their order: each granule, then the record. -/
def transferMessages (s : State) (t : Transfer) : List (List Byte) :=
  match s.wholeShadow? t.job t.step with
  | none => []
  | some h => ((s.shadowAll h).map fun g => shadowBytes t.step g.1 g.2) ++ [shadowBytes t.step recordAddr h.record]

/-- The twin sends the generation, one message each, numbered from 0. -/
def sendGeneration (s : State) (p : Nat) (t : Transfer) : State :=
  (s.transferMessages t).zipIdx.foldl (fun s g => s.sendTransfer p t.job g.2 g.1) s

/-- The twin of a failed device starts a transfer to the spare: its path notice goes out on every UP partner port. -/
def startTransfer (s : State) (job : Nat) (spare : W64) (step : Nat) : State :=
  let s1 : State := { s with
    transfers := (s.transfers.filter fun t => t.job != job) ++ [{ job := job, spare := spare, step := step, port := none }] }
  s1.notify s1.upPartners job .path s.serial step spare.toNat []

/-- A path notice: the first port it comes on is recorded; it goes on, once, on every other UP partner port; the spare that it
names answers with a claim. DESIGN CHOICE, log 120. -/
def pathNoticed (s : State) (p job : Nat) (origin : W64) (step : Nat) (spare : W64) : State :=
  if (s.transfer? job).any fun t => t.spare == spare then s
  else
    let s1 : State := { s with
      transfers := (s.transfers.filter fun t => t.job != job) ++ [{ job := job, spare := spare, step := step, port := some p }] }
    let s2 := s1.notify (s1.upPartners.filter fun q => q != p) job .path origin step spare.toNat []
    if spare = s.serial then s2.notify [p] job .claim s.serial step spare.toNat [] else s2

/-- A path claim: a device between forwards it on its recorded port and arms its forwarding chain; the twin starts to send. -/
def pathClaimed (s : State) (p job : Nat) : State :=
  match s.transfer? job with
  | none => s
  | some t =>
    if t.claim.isSome then s
    else
      match t.port with
      | none => (s.modTransfer job fun x => { x with claim := some p }).sendGeneration p t
      | some q =>
        (s.modTransfer job fun x => { x with claim := some p }).notify [q] job .claim t.spare t.step t.spare.toNat []

/-- The end of a transfer on this device: the chains end and the group is left. DEDUCED, log 80. -/
def endTransfer (s : State) (job : Nat) : State := { s with transfers := s.transfers.filter fun t => t.job != job }

/-- What the spare does with a part of the generation: a granule goes to its place; the record, once nothing is missing,
restores the job where the spare holds it, and is kept for its creation where it does not. DEDUCED, log 80; DEDUCED, log 138. -/
def spareTakes (s : State) (job step addr : Nat) (data : List Byte) : State :=
  if (s.job? job).isSome then s.restoreData job step addr data true id
  else if addr = recordAddr then
    { s with spareRecords := (s.spareRecords.filter fun r => r.1 != job) ++ [(job, data)] }
  else if isEdern addr ∧ addr % granule = 0 ∧ oneRegion addr granule then s.store addr data
  else s

/-- The spare has a whole message of a transfer. One that fails its CRC is asked for again, on the port it came on; the record is
confirmed, and the transfer ends, once no message is missing (R412). DEDUCED, log 80. -/
def transferMessage (s : State) (p job number : Nat) (bs : List Byte) : State :=
  let step := leNat (bs.take 8)
  let addr := leNat ((bs.drop 8).take 8)
  let data := (bs.drop 32).take (leNat ((bs.drop 16).take 4))
  if leNat ((bs.drop 20).take 4) ≠ (crc32c data).toNat then
    (s.modTransfer job fun t => { t with missing := (t.missing.filter fun n => n != number) ++ [number] }).notify [p] job .again s.serial number
      0 []
  else
    let s1 := s.modTransfer job fun t =>
      { t with missing := t.missing.filter fun n => n != number, record := if addr = recordAddr then data else t.record }
    let s2 := if addr = recordAddr then s1 else s1.spareTakes job step addr data
    match s2.transfer? job with
    | some t =>
      if !t.record.isEmpty && t.missing.isEmpty then
        ((s2.spareTakes job step recordAddr t.record).notify [p] job .done s.serial number 0 []).endTransfer job
      else s2
    | none => s2

/-- A message of a transfer is asked for again: a device between passes the notice on towards the twin, which sends it.
DEDUCED, log 80. -/
def transferAgain (s : State) (p job number : Nat) (origin : W64) : State :=
  match s.transfer? job with
  | none => s
  | some t =>
    if t.claim ≠ some p then s
    else
      match t.port with
      | some q => s.notify [q] job .again origin number 0 []
      | none =>
        match (s.transferMessages t)[number]? with
        | some bs => s.sendTransfer p job number bs
        | none => s

/-- The spare has confirmed the record: every device on the path ends the transfer, and passes the word on towards the twin.
DESIGN CHOICE, log 120. -/
def transferDone (s : State) (p job number : Nat) (origin : W64) : State :=
  match s.transfer? job with
  | none => s
  | some t =>
    if t.claim ≠ some p then s
    else
      (match t.port with
        | some q => s.notify [q] job .done origin number 0 []
        | none => s).endTransfer job

/-- Checks 4 and 5 of a PUT packet against a transfer: it begins a message that is due or asked for again, or goes on where the
message in progress stands. DEDUCED, log 80. -/
def transferExpects (t : Transfer) (k : Packet) : Bool :=
  k.stage == 0 && k.carry == 0 && k.contrib == 0 && decide (0 < k.len.toNat) && k.first.toNat % 128 == 0 &&
    (if k.first = 0 then decide (k.bucket.toNat ≤ t.number + 1)
    else decide (k.bucket.toNat = t.number) && decide (k.first.toNat = t.unit))

/-- A PUT packet of a transfer: a device between sends it on; the spare collects it (R412 items 5 and 6). DEDUCED, log 80. -/
def transferPacket (s : State) (p : Nat) (k : Packet) : State :=
  let s0 := s.freeCredits p k
  match s.hopOne p k with
  | some m => s0.hopFail p k m
  | none =>
    match s.transfer? k.job.toNat with
    | none => s0.hopFail p k .hopCheck
    | some t =>
      if t.port ≠ some p ∨ (t.claim.isNone ∧ t.spare ≠ s.serial) ∨ !transferExpects t k then s0.hopFail p k .hopCheck
      else
        let s1 := s0.modTransfer t.job fun x => { x with number := k.bucket.toNat, unit := k.first.toNat + k.len.toNat }
        match t.claim with
        | some q => s1.send q (s1.mkPacket q .put t.job transferGroup k.bucket.toNat k.first.toNat 0 0 0 k.payload)
        | none =>
          let rx := if k.first = 0 then k.payload else t.rx ++ k.payload
          if rx.length < 32 + leNat ((rx.drop 16).take 4) then s1.modTransfer t.job fun x => { x with rx := rx }
          else (s1.modTransfer t.job fun x => { x with rx := [] }).transferMessage p t.job k.bucket.toNat rx

/-! ### The restore point (R407, R411, R414) -/

/-- The devices of a job that this device knows: the members of its groups, and the partners of its NEIGHBOURS groups. -/
def memberSerials (s : State) (job : Nat) : List W64 :=
  (s.serial :: (s.groups.filter fun g => g.job == job).flatMap fun g =>
    if g.geometry = .neighbours then g.ports.map fun p => (s.port p).partnerId else g.serials).eraseDups

/-- Whether this device coordinates the restart of a job: devices that have failed or are blamed are left out (R405); where every
member is, those that have not failed are not, so that R385's cycle finds its coordinator. DEDUCED, log 78. -/
def leads (s : State) (j : Job) : Bool :=
  match s.leadGroup j.id with
  | some g =>
    let lowest (out : List W64) : Option Nat := (List.range g.m).find? fun r => !out.contains (g.serials.getD r 0)
    (lowest (leftOut j)).or (lowest j.restart.failed) == some g.rank
  | none => s.coordinates j

/-- The devices of a job that are declared failed: those that have failed, and those blamed for a stall that have reported none of
their own (R385). DEDUCED, log 78. -/
def failedNow (s : State) (j : Job) : List W64 :=
  let b := j.restart.blames
  let own : List W64 := if s.unfit ∨ s.pacer.state = 2 then [s.serial] else []
  (j.restart.failed ++ ((b.map fun x => x.2.1).filter fun x => b.all fun y => y.1 != x) ++ own).eraseDups.filter (s.memberSerials j.id).contains

/-- The group of a stall whose blamed devices have all reported one, where no device has failed (R385). DEDUCED, log 78. -/
def stallCycle (s : State) (j : Job) : Option Nat :=
  if (s.failedNow j).isEmpty then j.restart.blames.head?.map fun b => b.2.2 else none

/-- The steps that this device can restore of its own generations, locally or from its twin (R407). DEDUCED, log 79. -/
def ownSteps (s : State) (j : Job) : List Nat :=
  (j.gens.filter fun g => (localGen? j g.step).isSome ||
    (s.pair.joined && (g.state == .lostLocal || (s.pair.mode == .mirror && g.state != .released)))).map Gen.step

/-- The steps that this device holds for its twin (R407). -/
def twinSteps (s : State) (job : Nat) : List Nat :=
  ((s.shadows.filter fun h => h.job == job && h.complete).map Shadow.step) ++
    match s.job? job with
    | some j => if s.pair.mode = .mirror then (j.gens.filter fun g => (localGen? j g.step).isSome).map Gen.step else []
    | none => []

/-- Note a device's restorable steps. -/
def noteAnswer (s : State) (job : Nat) (device : W64) (steps : List Nat) : State :=
  s.modJob job fun j =>
    { j with restart := { j.restart with answers := (j.restart.answers.filter fun a => a.1 != device) ++ [(device, steps)] } }

/-- Answer for a device: this one, or its lost twin (R405, R407). DESIGN CHOICE, log 79. -/
def answerFor (s : State) (job : Nat) (device : W64) (steps : List Nat) : State :=
  (s.noteAnswer job device steps).flood job .answer device.toNat (steps.flatMap (toLe 8))

/-- The coordinator's question is in: this device answers, and for its twin where that has failed. A held job goes on at event 3
(R414). DEDUCED, log 78; DESIGN CHOICE, log 79. -/
def asked (s : State) (job : Nat) : State :=
  let s0 := s.restartHeld job
  match s0.job? job with
  | some j =>
    let s1 := (s0.modJob job fun x => { x with restart := { x.restart with askedAt := some s.now } }).answerFor job s.serial (s0.ownSteps j)
    if j.restart.failed.contains s.pair.twinSerial then s1.answerFor job s.pair.twinSerial (s1.twinSteps job) else s1
  | none => s0

/-- Write the serials of spares under the ranks of the devices they replace (R347). -/
def replaceSerials (s : State) (job : Nat) (pairs : List (W64 × W64)) : State :=
  { s with groups := s.groups.map fun g =>
      if g.job = job then
        { g with serials := g.serials.map fun x => ((pairs.find? fun p => p.1 == x).map fun p => p.2).getD x }
      else g }

/-- A restore point is in force here: the ranks pass to their spares; a device that keeps its rank restores locally, or asks its
twin; the twin of a device that failed sends the generation to the spare. DESIGN CHOICE, log 79. -/
def restoreAt (s : State) (job step : Nat) (pairs : List (W64 × W64)) : State :=
  let s1 := (s.replaceSerials job pairs).modJob job fun j =>
    if j.phase = .restarting ∧ (pairs.all fun p => p.1 != s.serial) = true then
      { j with
        spares := j.spares.filter fun x => pairs.all fun p => p.2 != x
        restart := { j.restart with restorePoint := some step, restored := false } }
    else j
  let s2 := match s1.job? job with
    | some j =>
      if j.phase = .restarting ∧ j.restart.restorePoint = some step ∧ (localGen? j step).isNone ∧ s1.pair.joined = true ∧
          (pairs.all fun p => p.2 != s1.serial) = true then
        s1.sendShadow job .request step recordAddr []
      else s1
    | none => s1
  match pairs.find? fun p => p.1 == s2.pair.twinSerial && p.1 != 0 with
  | some p => if (s2.wholeShadow? job step).isSome then s2.startTransfer job p.2 step else s2
  | none => s2

/-- A restore-point notice: the job restores, or is held (R407, R414). -/
def restoreNoticed (s : State) (job step : Nat) (more : List Byte) : State :=
  let word (i : Nat) : Nat := leNat ((more.drop (8 * i)).take 8)
  if word 0 ≠ 0 then s.holdJob job (word 0 - 1)
  else
    let n := (more.length / 8 - 1) / 2
    let pairs := (List.range n).map fun i => (BitVec.ofNat 64 (word (1 + 2 * i)), BitVec.ofNat 64 (word (2 + 2 * i)))
    s.restoreAt job step (pairs.filter fun p => p.1 != 0)

/-- The spare of each failed device: the lowest-numbered enrolled one that is not taken and passes R346 for its rank (R411);
none where one has none. `fits` says which pass for each. DEDUCED, log 76. -/
def chooseSpares (fits : List (W64 × List W64)) : List W64 → List W64 → Option (List (W64 × W64))
  | _, [] => some []
  | spares, f :: rest =>
    match spares.find? fun x => fits.any fun e => e.1 == f && e.2.contains x with
    | none => none
    | some x => (chooseSpares fits (spares.erase x) rest).map fun l => (f, x) :: l

/-- The largest step that every device can restore (R407). DESIGN CHOICE, log 79. -/
def commonStep (answers : List (List Nat)) : Option Nat :=
  match answers with
  | [] => none
  | a :: rest =>
    (a.filter fun n => rest.all fun b => b.contains n).foldl (fun acc n => some (match acc with
      | some m => max m n
      | none => n)) none

/-- The coordinator has every answer, or none has come from some device for 100 ms, the limit of event 4 (R413).
DESIGN CHOICE, log 79. -/
def answersIn (s : State) (j : Job) : Bool :=
  ((s.memberSerials j.id).all fun x => j.restart.answers.any fun a => a.1 == x) || decide (10000000 < s.now - j.restart.askedAt.getD s.now)

/-- The answers, in the order of the members; a device that gave none can restore nothing. -/
def answersOf (s : State) (j : Job) : List (List Nat) :=
  (s.memberSerials j.id).map fun x => ((j.restart.answers.find? fun a => a.1 == x).map fun a => a.2).getD []

/-- The restore point is agreed: failed devices give their ranks to spares, and every device hears of it; or the job is held
(R407, R411, R414). DEDUCED, log 76, DEDUCED, log 78; DESIGN CHOICE, log 79. -/
def agree (s : State) (j : Job) (fits : List (W64 × List W64)) : State :=
  match s.stallCycle j with
  | some g => (s.postJob .stallCycle j j.step (toLe 2 g)).holdAll j.id 3
  | none =>
    match chooseSpares fits j.spares (s.failedNow j) with
    | none => s.holdAll j.id 0
    | some pairs =>
      match commonStep (s.answersOf j) with
      | none => s.holdAll j.id 1
      | some step => (s.flood j.id .restorePoint step (restoreMore none pairs)).restoreAt j.id step pairs

/-- RESTORE_POINT_AGREED: the coordinator of a halted job asks every device for its restorable steps, and agrees the restore
point once the answers are in. DESIGN CHOICE, log 79. DEDUCED, log 76. -/
def restorePointAgreed (s : State) (job : Nat) (fits : List (W64 × List W64)) : State :=
  match s.job? job with
  | none => s
  | some j =>
    if j.phase ≠ .restarting ∨ !s.leads j ∨ j.restart.restorePoint.isSome then s
    else
      let s1 := if j.restart.askedAt.isSome then s else (s.flood job .ask 0 []).asked job
      match s1.job? job with
      | some j1 => if s1.answersIn j1 then s1.agree j1 fits else s1
      | none => s1

/-- COORDINATOR_ELECTION: the smallest serial that is known is this device's, unchanged for 100 ms (R405). DEDUCED, log 121. -/
def elected (s : State) (job : Nat) : State :=
  s.modJob job fun j =>
    if (s.leadGroup job).isNone && !(s.jobGroups job).isEmpty && j.restart.smallest == s.serial && !(leftOut j).contains s.serial &&
        decide (10000000 ≤ s.now - j.restart.changedAt) then
      { j with restart := { j.restart with coordinator := true } }
    else j

/-! ### Events 6 and 7 of R413 -/

/-- The group with the ports of its rings as the serials of its members now give them (R346, R347). -/
def rejoin (s : State) (g : Group) : Group :=
  let x : Join.Args :=
    { job := g.job, group := g.id, geometry := if g.geometry = .ring then 0 else 1, ports := 0, rank := g.rank, budget := 0, mDecl := 0
      ext := g.ext, m := g.m, table := 0, reserved := 0 }
  let rings := if g.geometry = .neighbours then [] else
    ((Join.neighbours x).mapM fun n => Join.pick s (g.serials.getD n.1 0) (g.serials.getD n.2 0)).getD g.rings
  { g with rings := rings, sentAt := none, barrier := {}, heard := [] }

/-- RESTORE_COMPLETE: groups rejoin over the ports of their members of now, with empty passes and no early packets; the restore
point is marked, which releases older generations (R301, R407). DESIGN CHOICE, log 120. -/
def restoreComplete (s : State) (job : Nat) : State :=
  match s.job? job with
  | none => s
  | some j =>
    match j.restart.restorePoint with
    | none => s
    | some step =>
      if j.phase ≠ .restarting ∨ !j.restart.restored then s
      else
        let s1 : State := { s with
          groups := s.groups.map fun g => if g.job = job then s.rejoin g else g
          transfers := s.transfers.filter fun t => t.job != job }
        let gone := s1.early.filter fun e => e.2.1.job.toNat == job
        let s2 := gone.foldl (fun s e => ({ s with early := s.early.erase e } : State).leaveBuffer e) s1
        s2.modJob job fun x =>
          { x with
            gens := releaseOlder step x.gens, restorePoint := step, freezeAt := none
            restart := { x.restart with rejoined := true } }

/-- JOB_RESUMED: every queue leaves FROZEN at its committed position (R413, R442). DEDUCED, log 104. -/
def jobResumed (s : State) (job : Nat) : State :=
  match s.job? job with
  | none => s
  | some j =>
    if j.phase ≠ .restarting ∨ !j.restart.rejoined then s
    else
      let s1 : State := { s with queues := s.queues.map fun (q : CmdQueue) =>
          if q.job = job ∧ q.state = .frozen then { q with state := if q.team = 0 then .unbound else readyState q } else q }
      let s2 := s1.modJob job fun x =>
        { x with
          phase := .running, seen := []
          restart := { smallest := x.restart.smallest, changedAt := x.restart.changedAt, coordinator := x.restart.coordinator } }
      (s2.tellCores job 2 (j.restorePoint % 2 ^ 32)).postJob .jobResumed j j.step (toLe 8 j.restorePoint)

/-! ### CTRL packets (R385, R405) -/

/-- What a notice does here. DEDUCED, log 77. DEDUCED, log 121. -/
def takeNotice (s : State) (p job : Nat) (n : Notice) (origin : W64) (number value : Nat) (more : List Byte) : State :=
  let once (go : State) : State :=
    if s.heardNotice job (n.code, origin, number) then s else go.forward (some p) job n origin number value more
  match n with
  | .abort =>
    (((s.endChains (fun c => c.job == job) .fault).noteDevices job origin Mech.stall.code 0 (BitVec.ofNat 64 (leNat (more.take 8)))
      (leNat ((more.drop 8).take 2)))).faultJob job number
  | .destroy => match s.job? job with
    | some _ => s.holdJob job 4
    | none => s
  | .fault => once ((s.noteRecord job origin more).faultJob job number)
  | .serial =>
    match s.job? job with
    | some j =>
      if value < j.restart.smallest.toNat ∧ !(leftOut j).contains (BitVec.ofNat 64 value) then
        (s.modJob job fun x =>
          { x with restart := { x.restart with smallest := BitVec.ofNat 64 value, changedAt := s.now, coordinator := false } }).floodSerial job
      else s
    | none => s
  | .freeze => once (s.modJob job fun x => { x with freezeAt := some value })
  | .restorePoint => once (s.restoreNoticed job value more)
  | .ask =>
    if (s.job? job).isSome then once (s.asked job)
    else if !s.pair.joined && (s.shadows.any fun h => h.job == job) then
      ({ s with notices := s.notices + 1 } : State).notify s.upPartners job .answer s.serial (s.notices + 1) s.pair.twinSerial.toNat
        ((s.twinSteps job).flatMap (toLe 8))
    else s
  | .answer =>
    once (s.noteAnswer job (BitVec.ofNat 64 value) ((List.range (more.length / 8)).map fun i => leNat ((more.drop (8 * i)).take 8)))
  | .path => s.pathNoticed p job origin number (BitVec.ofNat 64 value)
  | .claim => s.pathClaimed p job
  | .again => s.transferAgain p job number origin
  | .done => s.transferDone p job number origin

/-- A CTRL packet passes check 1; the notice is read from its payload (DESIGN CHOICE, log 22). DEDUCED, log 59. -/
def ctrlIn (s : State) (p : Nat) (k : Packet) : State :=
  let s0 := s.freeCredits p k
  match s.hopOne p k with
  | some m => s0.hopFail p k m
  | none =>
    let word (i : Nat) : Nat := leNat ((k.payload.drop (8 * i)).take 8)
    match Notice.ofCode (word 0) with
    | some n =>
      if k.stage = 0xE then
        (s0.takeNotice p k.job.toNat n (BitVec.ofNat 64 (word 1)) (word 2) (word 3) (k.payload.drop 32)).settle
      else s0.hopFail p k .hopCheck
    | none => s0.hopFail p k .hopCheck

/-! ### Detections (R394, R395, R406, R410, R439) -/

/-- Whether a fault of this mechanism is laid to the unit that it names (R410). -/
def blamesUnit (mech : Nat) : Bool :=
  mech == Mech.sramDed.code || mech == Mech.residue.code || mech == Mech.lockstepHc.code || mech == Mech.channelWd.code

/-- FAULT_NOTICE: a fault detected here, or a notice of one from another device, whose number is the sender's and free here.
DESIGN CHOICE, log 70. DESIGN CHOICE, log 117. -/
def faultNoticed (s : State) (n : FaultNotice) : State :=
  let job := n.job.map BitVec.toNat
  match n.origin with
  | none =>
    s.detect (blamesUnit n.mechanism.toNat)
      { mech := n.mechanism.toNat, cls := n.unit.cls.toNat, index := n.unit.index.toNat, job := job
        queue := n.queue.map BitVec.toNat, addr := n.addr.toNat, detail := n.detail.toNat, rank := n.rank.map BitVec.toNat
        group := n.group.toNat, serial := some n.serial }
  | some o =>
    match job with
    | none => s
    | some j =>
      let heard := match s.job? j with
        | some x => x.seen.any fun k => k.1 == Notice.fault.code && k.2.1 == o
        | none => true
      if heard then s
      else
        let (v, s1) := s.fresh
        let s2 := s1.noteDevices j o n.mechanism.toNat 0 n.serial n.group.toNat
        (s2.faultJob j v.toNat).forward none j .fault o v.toNat 0 []

/-- The cycles that a channel's watchdog counts: those for which the message was offered and not accepted, without those for
which the receiver reported a condition outside its die (R395). -/
def offeredCycles (spans : List (Nat × Option OutsideWait)) : Nat := ((spans.filter fun x => x.2.isNone).map fun x => x.1).sum

/-- CHANNEL_WATCHDOG: a count above the die's limit is a detected fault of the receiving unit; a bridge that stops raises BRIDGE
(R395, R462). DESIGN CHOICE, log 117. -/
def channelExpired (s : State) (die : Nat) (o : Offer) (u : UnitRef) (job : Option Nat) : State :=
  if offeredCycles o.spans ≤ (s.tracks.getD die {}).limit then s
  else
  let s1 : State := { s with tracks := s.tracks.modify die fun t =>
    { t with fired := t.fired + 1, last := o.channel } }
  let s2 : State := if u.cls.toNat = UnitClass.hub.code then
      { s1 with starter := { s1.starter with nmi := s1.starter.nmi ||| 4 } } else s1
  s2.detect true
    { mech := Mech.channelWd.code, cls := u.cls.toNat, index := u.index.toNat, job := job, detail := o.channel.toNat }

/-- HC_LOCKSTEP_DIVERGENCE: the core stops and the device becomes unfit. -/
def lockstepHc (s : State) (n : Nat) : State :=
  ((s.modCore n fun c => { c with state := .stopped }).dropReservation n).detect true
    { mech := Mech.lockstepHc.code, cls := UnitClass.hostCore.code, index := n, job := (s.core n).job }

/-- STARTER_LOCKSTEP: the device stops, its host cores with it; the record follows at the next reset. DEDUCED, log 87. -/
def lockstepSt (s : State) : State :=
  { s with
    starter := { s.starter with stopped := true }
    cores := s.cores.map fun c => if c.state = .off then c else { c with state := .stopped } }

/-- BACKGROUND_SELF_TEST of a SPARE heat (R392). -/
def spareTested (s : State) (h : Nat) (passed : Bool) : State :=
  if s.unitMap.state[h]? = some .spare ∧ !passed then
    s.detect true { mech := Mech.selftest.code, cls := UnitClass.heat.code, index := h }
  else s

/-- UNIT_SELF_TEST after a link DOWN, a Judge mismatch or a digest mismatch: a unit that fails is retired or makes the device
unfit; where both ports pass, the cause is CABLE (R320, R410). -/
def unitTested (s : State) (p : Nat) (u : UnitRef) (passed partner : Bool) : State :=
  let isPort := u.cls.toNat == UnitClass.port.code
  if !passed then
    (if isPort then s.modPort u.index.toNat fun x => { x with cause := 3 } else s).detect true
      { mech := Mech.selftest.code, cls := u.cls.toNat, index := u.index.toNat }
  else if isPort && partner && (s.port p).state == .down then s.modPort p fun x => { x with cause := 4 }
  else s

end State

/-! ### The rows -/

/-- PUT (R330, R412): of a restore transfer, or of a chain. -/
def execPutPacket (p : Fin 7) (k : Packet) (s : State) : Host.Outcome State Fault Refusal :=
  State.onPacket [.put] p.val k
    (fun s => if k.group.toNat = State.transferGroup then s.transferPacket p.val k else s.chainPacket p.val k) s

def execCtrlPacket (p : Fin 7) (k : Packet) (s : State) : Host.Outcome State Fault Refusal :=
  State.onPacket [.ctrl] p.val k (fun s => s.ctrlIn p.val k) s

def execFaultNotice (n : FaultNotice) (s : State) : Host.Outcome State Fault Refusal := .next (s.faultNoticed n).settle
def execCoordinatorElection (job : Nat) (s : State) : Host.Outcome State Fault Refusal := .next (s.elected job)

def execRestorePointAgreed (job : Nat) (devices : List W64) (fits : List (List W64)) (s : State) : Host.Outcome State Fault Refusal :=
  .next (s.restorePointAgreed job (devices.zip fits))

/-- PATH_NOTICE (R412): the serial of the twin and the generation, which this row does not carry, are free.
DESIGN CHOICE, log 70. -/
def execPathNotice (p : Fin 6) (job : Nat) (spare : W64) (s : State) : Host.Outcome State Fault Refusal :=
  let (v, s1) := s.fresh
  .next (s1.pathNoticed p.val job v v.toNat spare)

def execPathClaim (p : Fin 6) (job : Nat) (s : State) : Host.Outcome State Fault Refusal := .next (s.pathClaimed p.val job)
def execRestoreComplete (job : Nat) (s : State) : Host.Outcome State Fault Refusal := .next (s.restoreComplete job)
def execJobResumed (job : Nat) (s : State) : Host.Outcome State Fault Refusal := .next (s.jobResumed job)

def execChannelWatchdog (die : Fin 2) (offer : Offer) (receiver : UnitRef) (job : Option Nat) (s : State) :
    Host.Outcome State Fault Refusal :=
  .next (s.channelExpired die.val offer receiver job).settle

def execHcLockstepDivergence (n : Fin 32) (s : State) : Host.Outcome State Fault Refusal := .next (s.lockstepHc n.val).settle
def execStarterLockstep (s : State) : Host.Outcome State Fault Refusal := .next s.lockstepSt

def execBackgroundSelfTest (heat : Fin 104) (passed : Bool) (s : State) : Host.Outcome State Fault Refusal :=
  .next (s.spareTested heat.val passed)

def execUnitSelfTest (port : Fin 7) (unit : UnitRef) (passed partnerPassed : Bool) (s : State) : Host.Outcome State Fault Refusal :=
  .next (s.unitTested port.val unit passed partnerPassed).settle

end Sys2Proof.Machine
end

