-- ==== Sys2Proof/Machine/Pair.lean ====
section
/-! DEFINITION. The pair (R338 to R342, R400 to R404), position discovery (R335, R336), STARTER packets (R329), relayed frames
(R511), and the commands pair.mode and pair.detach (R482). -/

namespace Sys2Proof.Machine

/-- What a PAIRCTL packet says (its layout is DESIGN CHOICE, log 22). -/
inductive PairKind where
  | join | mode | detach | reset | confirm
  deriving DecidableEq, Repr

def PairKind.code : PairKind → Nat
  | .join => 0 | .mode => 1 | .detach => 2 | .reset => 3 | .confirm => 4

def PairKind.ofCode (c : Nat) : Option PairKind := [PairKind.join, .mode, .detach, .reset, .confirm][c]?

def PairMode.ofCode (c : Nat) : Option PairMode := [PairMode.shadow, .mirror, .unpaired][c]?

/-- Bytes of a default shadow region: 12 GiB at the top of the stack's populated memory (R401, R482). DEDUCED, log 82. -/
def defaultRegion (st : Nat) : Range := ⟨st * stackStride + stackBytes - 0x3_0000_0000, 0x3_0000_0000⟩

namespace State

/-! ### PAIRCTL (R400, R342) -/

/-- DESIGN CHOICE, log 22. -/
def sendPairctl (s : State) (k : PairKind) : State :=
  s.send 6 (s.mkPacket 6 .pairctl 0 0 0 0 0 0 0 (toLe 1 k.code ++ toLe 1 s.pair.own.code ++ List.replicate 6 0 ++ toLe 8 s.serial.toNat))

/-- A mode takes effect when both devices have asked for it; Aimucor posts PAIR_EVENT with cause 3 (R400, R482).
DEDUCED, log 82. -/
def settleMode (s : State) : State :=
  if s.pair.joined ∧ s.pair.twin = some s.pair.own ∧ s.pair.own ≠ .unpaired ∧ s.pair.mode ≠ s.pair.own then
    ({ s with pair := { s.pair with mode := s.pair.own } } : State).postDevice .pairEvent (toLe 1 3 ++ toLe 1 s.pair.own.code)
  else s

/-- The twin joins: shadow regions are set up, and heartbeats are expected from now. DEDUCED, log 82. -/
def joinTwin (s : State) (serial : W64) (m : Option PairMode) : State :=
  let s1 : State := { s with
    shadowRegions := if s.shadowRegions.isEmpty then (List.range 8).map defaultRegion else s.shadowRegions
    pair := { s.pair with joined := true, twinSerial := serial, twin := m, heardAt := some s.now } }
  (if s.pair.joined then s1 else s1.sendPairctl .join).settleMode

/-- The pair is undone on this device: UNPAIRED (R400, R482). -/
def unpair (s : State) : State :=
  { s with pair := { s.pair with mode := .unpaired, own := .unpaired, twin := none, joined := false, heardAt := none } }

/-- A PAIRCTL packet from the device at the other end of the pair port; a reset has a row of its own. -/
def pairctlIn (s : State) (k : Packet) : State :=
  let serial : W64 := BitVec.ofNat 64 (leNat ((k.payload.drop 8).take 8))
  let m := PairMode.ofCode (leNat ((k.payload.drop 1).take 1))
  if serial ≠ (s.port 6).partnerId then s
  else
    match PairKind.ofCode (leNat (k.payload.take 1)) with
    | some .join => s.joinTwin serial m
    | some .mode => if s.pair.joined then ({ s with pair := { s.pair with twin := m } } : State).settleMode else s
    | some .detach => if s.pair.joined then s.unpair.sendPairctl .confirm else s
    | some .confirm =>
      match s.pair.detach with
      | some (mb, _) => (({ s with pair := { s.pair with detach := none } } : State).unpair).finishOk mb []
      | none => s
    | _ => s

/-- PAIRCTL_RESET: from the joined twin, at most once in any 10 s (R342). -/
def pairReset (s : State) (k : Packet) : State :=
  let serial : W64 := BitVec.ofNat 64 (leNat ((k.payload.drop 8).take 8))
  let due : Bool := match s.pair.resetAt with
    | some t => decide (1000000000 < s.now - t)
    | none => true
  if PairKind.ofCode (leNat (k.payload.take 1)) = some .reset ∧ s.pair.joined ∧ serial = s.pair.twinSerial ∧ due ∧ s.inputs.resetN then
    ({ s with pair := { s.pair with resetAt := some s.now } } : State).requestReset 2
  else s

/-- A packet of the pair port passes check 1; all but PAIRCTL must come from the joined twin (R330). -/
def onPair (s : State) (k : Packet) (needsTwin : Bool) (go : State → State) : State :=
  let s0 := s.freeCredits 6 k
  match s.hopOne 6 k with
  | some m => s0.hopFail 6 k m
  | none => if needsTwin && !s.pair.joined then s0.hopFail 6 k .hopCheck else go s0

/-! ### Heartbeats (R338, R339, R404) -/

/-- The next job after the one that the last BEAT named, in ascending ID with wrap-around. -/
def nextBeatJob (s : State) : Option Job :=
  match s.pair.beatJob with
  | some b => ((s.jobs.find? fun j => decide (b < j.id)).orElse fun _ => s.jobs.head?)
  | none => s.jobs.head?

/-- The 32 bytes of a BEAT. -/
def beatBytes (s : State) (j : Option Job) : List Byte :=
  toLe 1 s.dev.code ++ toLe 1 s.pair.mode.code ++ toLe 2 s.jobs.length ++ toLe 4 0 ++
    match j with
    | some x => toLe 2 (0x8000 + x.id) ++ toLe 6 0 ++ toLe 8 x.step ++ toLe 8 x.restorePoint
    | none => List.replicate 24 0

/-- BEAT_SEND: every 10,000 cycles while the twin is joined and the pair port UP. -/
def beatOut (s : State) : State :=
  if s.pair.joined ∧ (s.port 6).state = .up ∧ s.power.thermTripN ∧ !s.starter.stopped ∧ 10000 ≤ s.now - s.pair.beatAt then
    let j := s.nextBeatJob
    ({ s with pair := { s.pair with beat := s.pair.beat + 1, beatAt := s.now, beatJob := j.map Job.id } } : State).send 6
      (s.mkPacket 6 .beat 0 0 (s.pair.beat % 2 ^ 32) 0 0 0 0 (s.beatBytes j))
  else s

/-- A BEAT: the count since the last valid one starts again, and the entry of its job is kept. -/
def beatIn (s : State) (k : Packet) : State :=
  let word (o n : Nat) : Nat := leNat ((k.payload.drop o).take n)
  let entry := word 8 2
  let js := if bitAt entry 15 then
      insertBy (fun e => e.1) (entry % 1024, word 0x10 8, word 0x18 8) (s.pair.twinJobs.filter fun e => e.1 != entry % 1024)
    else s.pair.twinJobs
  { s with pair := { s.pair with heardAt := some s.now, twinState := word 0 1, twinJobs := js } }

/-- What heartbeat loss says of one job of the twin: a job of this device that has the twin as a member is halted; the job's
other devices hear a fault notice over every UP partner port, and what this device can restore for the twin (R405 to R407).
DEDUCED, log 84. -/
def loseTwinOf (s : State) (job : Nat) : State :=
  let info : FaultInfo :=
    { mech := Mech.heartbeat.code, cls := UnitClass.hub.code, job := some job, serial := some s.pair.twinSerial }
  if s.groups.any fun g => g.job == job && g.serials.contains s.pair.twinSerial then s.detect false info
  else
    let f := { info with outcome := .restarts }
    let rec_ := s.faultRecord f
    let s1 := s.recordFault f
    let s2 := s1.notify s1.upPartners job .fault s1.serial s1.faultsEver 0 rec_
    ({ s2 with notices := s2.notices + 1 } : State).notify s2.upPartners job .answer s2.serial (s2.notices + 1) s2.pair.twinSerial.toNat
      ((s2.twinSteps job).flatMap (toLe 8))

/-- HEARTBEAT_LOSS: a count of 80,001 cycles since the last valid BEAT. DEDUCED, log 84. -/
def heartbeatLost (s : State) : State :=
  match s.pair.heardAt with
  | none => s
  | some t =>
    if !s.pair.joined || decide (s.now - t ≤ 80000) then s
    else
      let js := s.pair.twinJobs.map fun e => e.1
      let s1 := if js.isEmpty then
          s.recordFault { mech := Mech.heartbeat.code, cls := UnitClass.hub.code, serial := some s.pair.twinSerial }
        else js.foldl loseTwinOf s
      let s2 := if (s1.port 6).state = .up then s1.sendPairctl .reset else s1
      ({ s2 with pair := { s2.pair with heardAt := none } } : State).pairEvent 0 true

/-! ### DIGEST (R402, R403) -/

/-- The twin's digest of a training step, compared with this device's where that is formed. DEDUCED, log 85. -/
def digestIn (s : State) (k : Packet) : State :=
  match s.job? k.job.toNat with
  | none => s
  | some j =>
    let step := j.step / 2 ^ 32 * 2 ^ 32 + k.bucket.toNat
    let d : W64 := BitVec.ofNat 64 (leNat (k.payload.take 8))
    let s1 := s.modJob j.id fun x => { x with twinDigests := (x.twinDigests.filter fun e => e.1 != step) ++ [(step, d)] }
    match s1.job? j.id with
    | some j1 => if s1.mirrorState j1 = .differ then s1.mirrorDiffers j1 else s1
    | none => s1

/-! ### RELAY (R511) -/

/-- The offset of the UDP payload of an Ethernet frame: one VLAN tag at most, IPv4 or IPv6. -/
def udpAt (f : List Byte) : Option Nat :=
  let be (o : Nat) : Nat := leNat (((f.drop o).take 2).reverse)
  let l3 := if be 12 = 0x8100 then 18 else 14
  match be (l3 - 2) with
  | 0x0800 => some (l3 + 4 * (leNat ((f.drop l3).take 1) % 16) + 8)
  | 0x86DD => some (l3 + 48)
  | _ => none

/-- A relayed frame: one of the twin's sessions leaves on the port whose MAC address it carries; a datagram for this device is
handled by the row of its type. -/
def relayIn (s : State) (k : Packet) : State :=
  let f := k.payload
  match udpAt f with
  | none => s
  | some o =>
    let serial : W64 := BitVec.ofNat 64 (leNat ((f.drop (o + 8)).take 8))
    let src := leNat (((f.drop 6).take 6).reverse)
    match (if serial = s.pair.twinSerial then (List.range 8).find? fun e => macOf e == src else none) with
    | some e =>
      if (s.ethPort e).up then
        ({ s with out := s.out ++ [.frame e f] } : State).modEth e fun x => { x with txFrames := x.txFrames + 1 }
      else s
    | none => s

/-! ### STARTER packets (R329) -/

/-- A request enters the mailbox of its port and rings it; a response ends the request that is outstanding.
DESIGN CHOICE, log 66. -/
def starterIn (s : State) (p : Nat) (k : Packet) : State :=
  let m := if p = 6 then 48 else 49 + p
  if k.first.getLsbD 0 then
    match (s.port p).starterReq with
    | some (n, _) => if n = k.bucket.toNat then (s.modPort p fun x => { x with starterReq := none }).answer .ok k.payload else s
    | none => s
  else if (s.mbox m).busy then s.ringMailbox m
  else
    ((s.mboxAreaWrite m 0 (k.payload.take 4096)).ringMailbox m).modPort p fun x => { x with starterIn := k.bucket.toNat }

/-- This device's Starter sends a request on a port that is UP, where none is outstanding on it (R329). DESIGN CHOICE, log 66. -/
def starterSends (s : State) (p : Nat) (msg : List Byte) : State :=
  let x := s.port p
  if x.state ≠ .up ∨ x.starterReq.isSome ∨ s.starter.stopped then s
  else
    (s.setPort p { x with starterReq := some (x.starterNext, s.now), starterNext := (x.starterNext + 1) % 2 ^ 32 }).sendStarter p
      x.starterNext false msg

/-- STARTER_REQUEST_TIMEOUT: a request without a response within 100 ms ends with FAILED, and so does a pair.detach that the
twin does not confirm (R329, R482). DESIGN CHOICE, log 66; DEDUCED, log 83. -/
def starterTimeout (s : State) (p : Nat) : State :=
  let s1 := match (s.port p).starterReq with
    | some (_, t) =>
      if 10000000 < s.now - t then (s.modPort p fun x => { x with starterReq := none }).answer .failed [] else s
    | none => s
  match s1.pair.detach with
  | some (m, t) =>
    if p = 6 ∧ 10000000 < s1.now - t then
      (({ s1 with pair := { s1.pair with detach := none } } : State).unpair).respond m .failed 0 []
    else s1
  | none => s1

/-! ### Position discovery (R335, R336) -/

/-- The 32 bytes of a TOPO packet (layout: DESIGN CHOICE, log 22); an infinite component is all ones. -/
def topoBytes (t : Topo) : List Byte :=
  toLe 8 t.origin.toNat ++ (t.c.flatMap fun x => toLe 2 (x.getD 0xFFFF)) ++ (t.size.flatMap fun x => toLe 2 x) ++
    toLe 1 (if t.declared then 1 else 0)

/-- The torus links that are UP. -/
def torusPorts (s : State) : List Nat := (List.range 6).filter fun p => (s.port p).state == .up && (s.port p).torus

/-- Send the device's state on a list of ports. -/
def sendTopo (s : State) (ps : List Nat) : State :=
  ps.foldl (fun s p => s.send p (s.mkPacket p .topo 0 0 0 0 0 0 0 (topoBytes s.topo))) s

/-- Send it on every torus link. -/
def topoOut (s : State) : State :=
  ({ s with topo := { s.topo with sentAt := s.now } } : State).sendTopo s.torusPorts

def minInf (a b : Option Nat) : Option Nat :=
  match a, b with
  | some x, some y => some (min x y)
  | some x, none => some x
  | none, y => y

/-- The next state of the procedure on TOPO(o, c', size', decl') received on port p. DEDUCED, log 86. -/
def topoStep (t : Topo) (p : Nat) (o : W64) (c' : List (Option Nat)) (size' : List Nat) (decl' : Bool) : Topo :=
  if t.declared then t
  else
    let bump (d : Nat) : List (Option Nat) := (List.range 3).map fun i => (c'.getD i none).map fun x => if i = d then x + 1 else x
    let cand : Option (List (Option Nat)) := if 3 ≤ p ∧ p < 6 then some (bump (p - 3)) else none
    let adopt := (decl' && o != t.origin) || decide (o.toNat < t.origin.toNat)
    let t1 : Topo :=
      if adopt then { t with origin := o, size := size', c := cand.getD [none, none, none] }
      else if o = t.origin then
        let c := match cand with
          | some x => (List.range 3).map fun i => minInf (t.c.getD i none) (x.getD i none)
          | none => t.c
        { t with
          c := c
          size := (List.range 3).map fun i =>
            max (max (t.size.getD i 1) (size'.getD i 1)) (match c.getD i none with
              | some x => x + 1
              | none => 0) }
      else t
    if decl' && o == t1.origin then { t1 with declared := true, size := size' } else t1

/-- A TOPO packet on a torus link; it passes check 1 without the coordinates that it serves to find (DESIGN CHOICE, log 22).
DEDUCED, log 59. -/
def topoIn (s : State) (p : Nat) (k : Packet) : State :=
  let s0 := s.freeCredits p k
  if Pkt.crc k ≠ k.pcrc then s0.hopFail p k .pcrc
  else if PType.vcOn .topo (p == 6) ≠ some k.vc.toNat then s0.hopFail p k .hopCheck
  else if !(s.port p).torus then s0
  else
    let word (o n : Nat) : Nat := leNat ((k.payload.drop o).take n)
    let c' := (List.range 3).map fun i => if word (8 + 2 * i) 2 = 0xFFFF then none else some (word (8 + 2 * i) 2)
    let size' := (List.range 3).map fun i => word (14 + 2 * i) 2
    let decl' := word 20 1 == 1
    let whole := c'.all Option.isSome
    let s1 := s0.modPort p fun x =>
      { x with
        partner := if whole then coordBits (c'.map fun v => v.getD 0) else x.partner, partnerValid := whole && decl' }
    let t := topoStep s1.topo p (BitVec.ofNat 64 (word 0 8)) c' size' decl'
    if t = s1.topo then s1 else ({ s1 with topo := { t with changedAt := s.now } } : State).topoOut

/-- TOPO_SEND: every 100,000 cycles. -/
def topoAgain (s : State) : State := if 100000 ≤ s.now - s.topo.sentAt then s.topoOut else s

/-- What the neighbour on P0, P1 or P2 must report. -/
def topoNext (t : Topo) (d : Nat) : BitVec 12 :=
  coordBits ((List.range 3).map fun i =>
    let x := (t.c.getD i none).getD 0
    if i = d then (x + 1) % max 1 (t.size.getD i 1) else x)

/-- The first port whose check fails: a neighbour that reports another place, or a component not below its size (R336).
DEDUCED, log 86. -/
def topoConflict (s : State) (t : Topo) : Option Nat :=
  (List.range 3).find? fun d =>
    decide (t.size.getD d 1 ≤ (t.c.getD d none).getD 0) ||
      (s.torusPorts.contains d && (s.port d).partner != topoNext t d)

/-- TOPO_DECLARE: after its ports have come up (event 8 of R545), unchanged for 100 ms with every component finite, the device
declares, and checks its torus links. DEDUCED, log 86. -/
def topoDeclared (s : State) : State :=
  let t := s.topo
  if !s.power.links ∨ t.checked ∨ !(t.c.all Option.isSome) ∨ s.now - t.changedAt < 10000000 then s
  else
    let bad := s.topoConflict t
    let s1 : State := { s with topo := { t with declared := true, checked := true, valid := bad.isNone } }
    let s2 := if t.declared then s1 else s1.topoOut
    match bad with
    | some p => s2.postDevice .topoConflict (toLe 1 p)
    | none => s2.postDevice .topoDeclared (toLe 8 (s2.coordReg (s2.port 0)))

/-! ### A port comes up (R332) -/

/-- LINK_UP: the pair port joins the twin, a torus link starts position discovery. -/
def linkUp (s : State) (p : Nat) : State :=
  let s1 := s.linkIsUp p
  if (s.port p).state = .up ∨ (s1.port p).state ≠ .up then s1
  else if p = 6 then s1.sendPairctl .join
  else
    let s2 : State := { s1 with topo := { s1.topo with changedAt := s1.now } }
    if (s2.port p).torus then s2.sendTopo [p] else s2

/-! ### pair.mode and pair.detach (R482) -/

/-- The shadow regions that the request names; a length of 0 is the default. -/
def argRegions (s : State) (m : Nat) : List Range :=
  (List.range 8).map fun e =>
    let r : Range := ⟨s.arg m (8 + 16 * e) 8, s.arg m (16 + 16 * e) 8⟩
    if r.len = 0 then defaultRegion e else r

/-- Whether a region no longer holds what the twin's generations take of the old one (DESIGN CHOICE, log 41). -/
def regionLoses (s : State) (e : Nat) (new : Range) : Bool :=
  let used := s.shadowUsed e
  match s.shadowRegions.find? fun r => stackOf r.base == e with
  | some old => used != 0 && (decide (old.base < new.base) || decide (new.base + new.len < old.base + used))
  | none => false

/-- DESIGN CHOICE, log 41. -/
def pairModeFails (s : State) (m : Nat) : List Deny :=
  let mode := PairMode.ofCode (s.arg m 0 1)
  let rs := s.argRegions m
  let change := s.pair.mode != .unpaired && mode != some s.pair.mode
  deny (decide (1 < s.arg m 0 1)) .badOperand 0 ++ deny (s.arg m 1 7 != 0) .badOperand 1 ++
    (rs.zipIdx.flatMap fun r =>
      deny (!granular r.1 || stackOf r.1.base != r.2) .badOperand (8 + 16 * r.2) ++
        deny (s.regionLoses r.2 r.1) .badState (8 + 16 * r.2)) ++
    deny (change && (!s.jobs.isEmpty || !s.pair.twinJobs.isEmpty)) .badState 0

/-- pair.mode: the request is recorded and sent to the twin. -/
def setPairMode (s : State) (m : Nat) : State :=
  let s1 : State := { s with
    shadowRegions := s.argRegions m
    pair := { s.pair with own := (PairMode.ofCode (s.arg m 0 1)).getD .shadow } }
  let s2 := if (s1.port 6).state = .up then s1.sendPairctl (if s1.pair.joined then .mode else .join) else s1
  s2.settleMode.finishOk m []

/-- pair.detach: the twin hears of it, its shadows are discarded, and the device is UNPAIRED; the response waits for the twin.
DEDUCED, log 83. -/
def pairDetach (s : State) (m : Nat) : State :=
  let s1 := s.sendPairctl .detach
  { s1 with
    shadows := [], shadowRegions := []
    pair := { s1.pair with mode := .unpaired, own := .unpaired, twin := none, detach := some (m, s1.now) } }

end State

/-! ### The rows -/

def execLinkUp (p : Fin 7) (s : State) : Host.Outcome State Fault Refusal := .next (s.linkUp p.val)

def execTopoPacket (p : Fin 7) (k : Packet) (s : State) : Host.Outcome State Fault Refusal :=
  State.onPacket [.topo] p.val k (fun s => s.topoIn p.val k) s

def execTopoSend (s : State) : Host.Outcome State Fault Refusal := .next s.topoAgain
def execTopoDeclare (s : State) : Host.Outcome State Fault Refusal := .next s.topoDeclared

/-- STARTER (R329): a packet arrives, or this device's Starter sends a request. -/
def execStarterPacket (p : Fin 7) (m : StarterMove) (s : State) : Host.Outcome State Fault Refusal :=
  match m with
  | .arrives k =>
    State.onPacket [.starter] p.val k (fun s =>
      if p = 6 then s.onPair k true fun s => s.starterIn 6 k
      else
        match s.hopOne p.val k with
        | some m => (s.freeCredits p.val k).hopFail p.val k m
        | none => (s.freeCredits p.val k).starterIn p.val k) s
  | .sends msg => if !m.wf then .fault .illFormed else .next (s.starterSends p.val msg)

def execStarterRequestTimeout (p : Fin 7) (s : State) : Host.Outcome State Fault Refusal := .next (s.starterTimeout p.val)

def execBeatPacket (k : Packet) (s : State) : Host.Outcome State Fault Refusal :=
  State.onPacket [.beat] 6 k (fun s => s.onPair k true fun s => s.beatIn k) s

def execBeatSend (s : State) : Host.Outcome State Fault Refusal := .next s.beatOut
def execHeartbeatLoss (s : State) : Host.Outcome State Fault Refusal := .next s.heartbeatLost.settle

def execShadowPacket (k : Packet) (s : State) : Host.Outcome State Fault Refusal :=
  State.onPacket [.shadow] 6 k (fun s => s.onPair k true fun s => s.shadowIn k) s

def execDigestPacket (k : Packet) (s : State) : Host.Outcome State Fault Refusal :=
  State.onPacket [.digest] 6 k (fun s => s.onPair k true fun s => s.digestIn k) s

def execRelayPacket (k : Packet) (s : State) : Host.Outcome State Fault Refusal :=
  State.onPacket [.relay] 6 k (fun s => s.onPair k true fun s => s.relayIn k) s

def execPairctlPacket (k : Packet) (s : State) : Host.Outcome State Fault Refusal :=
  State.onPacket [.pairctl] 6 k (fun s => s.onPair k false fun s => s.pairctlIn k) s

def execPairctlReset (k : Packet) (s : State) : Host.Outcome State Fault Refusal :=
  State.onPacket [.pairctl] 6 k (fun s => s.onPair k true fun s => s.pairReset k) s

def execPairMode (m : Fin 64) (s : State) : Host.Outcome State Fault Refusal :=
  .next (s.command { code := 0x701, auth := [.s, .f, .p] } m.val 0x88 (s.pairModeFails m.val) (s.setPairMode m.val))

/-- PAIR_DETACH: one that another pair.detach precedes waits its turn (R468). DEDUCED, log 83. -/
def execPairDetach (m : Fin 64) (s : State) : Host.Outcome State Fault Refusal :=
  .next (if s.pair.detach.isSome then s
    else s.command { code := 0x702, auth := [.s, .f, .p] } m.val 0 [] (s.pairDetach m.val))

end Sys2Proof.Machine
end

