-- ==== Sys2Proof/Machine/FloatOps.lean ====
section
/-! DEFINITION. IEEE 754-2019 operations of the host cores on bit patterns, with the RISC-V special results and
exception flags (R48, R428, R451). -/

namespace Sys2Proof.Machine

/-- A result pattern with the flags it raises. -/
abbrev FOut := Nat × FFlags

namespace Ieee

def f16 : FloatSpec := (Fmt.spec .fp16).getD f32
def bf16 : FloatSpec := (Fmt.spec .bf16).getD f32

/-- The RISC-V rounding modes by code; 5 to 7 are reserved. -/
def modeOf (c : Nat) : Option RMode :=
  match c with
  | 0 => some .rne
  | 1 => some .rtz
  | 2 => some .rdn
  | 3 => some .rup
  | 4 => some .rmm
  | _ => none

def invalidIf (b : Bool) : FFlags := { nv := b }

/-- Round a value and write it. -/
def put (fs : FloatSpec) (mode : RMode) (x : Num) (fl : FFlags) : FOut :=
  let (y, f) := ieeeRound fs mode x
  (fs.encode y, f.or fl)

/-- The exact sum of several terms; an exact zero has the terms' common sign, or the sign of the mode. -/
def exactSum (mode : RMode) (ts : List Num) : Num :=
  let t := ts.foldl Num.add (.fin true 0 0)
  if t.isZero then
    (if ts.all fun x => x.isZero && x.sign then .fin true 0 0
    else if ts.all fun x => x.isZero && !x.sign then .fin false 0 0
    else .fin (mode == .rdn) 0 0)
  else t

/-- Whether a product is infinity times zero. -/
def infZero (a b : Num) : Bool := (a.isInf && b.isZero) || (a.isZero && b.isInf)

/-- The sum of products and an addend, rounded once. -/
def sumOf (src dst : FloatSpec) (mode : RMode) (ps : List (Nat × Nat × Bool)) (c : Nat) (negC : Bool) : FOut :=
  let terms := ps.map fun p =>
    let (x, sx) := ieeeRead src p.1
    let (y, sy) := ieeeRead src p.2.1
    let m := x.mul y
    (if p.2.2 then m.neg else m, sx || sy || infZero x y)
  let (z, sz) := ieeeRead dst c
  let z := if negC then z.neg else z
  let vals := terms.map (·.1) ++ [z]
  let r := exactSum mode vals
  let nv := sz || terms.any (·.2) || (r.isNaN && !(vals.any Num.isNaN))
  put dst mode r (invalidIf nv)

def add (fs : FloatSpec) (mode : RMode) (a b : Nat) (negB : Bool) : FOut :=
  let (x, sx) := ieeeRead fs a
  let (y, sy) := ieeeRead fs b
  let r := exactSum mode [x, if negB then y.neg else y]
  put fs mode r (invalidIf (sx || sy || (r.isNaN && !x.isNaN && !y.isNaN)))

/-- A product, from one format into another. -/
def mul (src dst : FloatSpec) (mode : RMode) (a b : Nat) : FOut :=
  let (x, sx) := ieeeRead src a
  let (y, sy) := ieeeRead src b
  put dst mode (x.mul y) (invalidIf (sx || sy || infZero x y))

def div (fs : FloatSpec) (mode : RMode) (a b : Nat) : FOut :=
  let (x, sx) := ieeeRead fs a
  let (y, sy) := ieeeRead fs b
  let r := x.div y
  put fs mode r
    { nv := sx || sy || (r.isNaN && !x.isNaN && !y.isNaN), dz := y.isZero && x.isFinite && !x.isZero }

def sqrt (fs : FloatSpec) (mode : RMode) (a : Nat) : FOut :=
  let (x, sx) := ieeeRead fs a
  let r := x.sqrt
  put fs mode r (invalidIf (sx || (r.isNaN && !x.isNaN)))

/-- a × b + c, with the product or the addend negated. -/
def fma (fs : FloatSpec) (mode : RMode) (a b c : Nat) (negP negC : Bool) : FOut :=
  sumOf fs fs mode [(a, b, negP)] c negC

/-- Minimum and maximum: a NaN yields to a number, −0 is below +0. -/
def minMax (fs : FloatSpec) (max : Bool) (a b : Nat) : FOut :=
  let (x, sx) := ieeeRead fs a
  let (y, sy) := ieeeRead fs b
  let fl := invalidIf (sx || sy)
  if x.isNaN && y.isNaN then (fs.nanBits, fl)
  else if x.isNaN then (b, fl)
  else if y.isNaN then (a, fl)
  else
    let less := x.lt y || (x.eqv y && x.sign && !y.sign)
    (if less != max then a else b, fl)

def signBit (fs : FloatSpec) : Nat := fs.expBits + fs.frac

/-- Sign injection: 0 the sign of b, 1 its complement, 2 the exclusive or. -/
def sgnj (fs : FloatSpec) (kind a b : Nat) : Nat :=
  let sa := a.testBit (signBit fs)
  let sb := b.testBit (signBit fs)
  let s := if kind = 0 then sb else if kind = 1 then !sb else sa != sb
  a % 2 ^ signBit fs + (if s then 2 ^ signBit fs else 0)

/-- Quiet equality, and the signalling comparisons. -/
def eq (fs : FloatSpec) (a b : Nat) : Bool × FFlags :=
  let (x, sx) := ieeeRead fs a
  let (y, sy) := ieeeRead fs b
  (x.eqv y, invalidIf (sx || sy))

def lt (fs : FloatSpec) (a b : Nat) : Bool × FFlags :=
  let x := (ieeeRead fs a).1
  let y := (ieeeRead fs b).1
  (x.lt y, invalidIf (x.isNaN || y.isNaN))

def le (fs : FloatSpec) (a b : Nat) : Bool × FFlags :=
  let x := (ieeeRead fs a).1
  let y := (ieeeRead fs b).1
  (x.le y, invalidIf (x.isNaN || y.isNaN))

/-- Either operand a NaN, quietly (R457). -/
def unordered (fs : FloatSpec) (a b : Nat) : Bool × FFlags :=
  let (x, sx) := ieeeRead fs a
  let (y, sy) := ieeeRead fs b
  (x.isNaN || y.isNaN, invalidIf (sx || sy))

/-- FCLASS. -/
def classify (fs : FloatSpec) (a : Nat) : Nat :=
  let (x, sn) := ieeeRead fs a
  let neg := a.testBit (signBit fs)
  match x with
  | .nan => if sn then 2 ^ 8 else 2 ^ 9
  | .inf n => if n then 2 ^ 0 else 2 ^ 7
  | .fin _ m _ =>
    if m = 0 then (if neg then 2 ^ 3 else 2 ^ 4)
    else if fs.subnormal a then (if neg then 2 ^ 2 else 2 ^ 5)
    else (if neg then 2 ^ 1 else 2 ^ 6)

/-- Between floating-point formats. -/
def cvt (src dst : FloatSpec) (mode : RMode) (a : Nat) : FOut :=
  let (x, sn) := ieeeRead src a
  put dst mode x (invalidIf sn)

/-- The range of an integer type. -/
def intRange (signed : Bool) (bits : Nat) : Int × Int :=
  if signed then (-((2 ^ (bits - 1) : Nat) : Int), ((2 ^ (bits - 1) : Nat) : Int) - 1)
  else (0, ((2 ^ bits : Nat) : Int) - 1)

/-- To an integer, saturating: the integer's bits. -/
def toInt (src : FloatSpec) (mode : RMode) (signed : Bool) (bits : Nat) (a : Nat) : FOut :=
  let (lo, hi) := intRange signed bits
  match (ieeeRead src a).1 with
  | .nan => (unsignedOf bits hi, .invalid)
  | .inf n => (unsignedOf bits (if n then lo else hi), .invalid)
  | .fin s m e =>
    let r := roundInt mode 0 s m e
    if r < lo then (unsignedOf bits lo, .invalid)
    else if hi < r then (unsignedOf bits hi, .invalid)
    else (unsignedOf bits r, { nx := cmpMag r.natAbs 0 m e != .eq })

/-- From an integer. -/
def ofInt (dst : FloatSpec) (mode : RMode) (i : Int) : FOut := put dst mode (.ofInt i) {}

end Ieee

end Sys2Proof.Machine
end

