-- ==== Sys2Proof/Machine/Scalar.lean ====
section
/-! DEFINITION. The scalar instructions of a host core: RV64GC with Zba and Zbb (R425, R428), by their encodings in the
RISC-V specifications (PRESUMED, log 2). -/

namespace Sys2Proof.Machine

namespace Rv

/-- The fields of a 32-bit word. -/
def rd (w : Nat) : Nat := bitsAt w 7 5
def f3 (w : Nat) : Nat := bitsAt w 12 3
def rs1 (w : Nat) : Nat := bitsAt w 15 5
def rs2 (w : Nat) : Nat := bitsAt w 20 5
def f7 (w : Nat) : Nat := bitsAt w 25 7
def csrNo (w : Nat) : Nat := bitsAt w 20 12

/-- Immediates, sign-extended. -/
def immI (w : Nat) : W64 := BitVec.ofInt 64 (signedOf 12 (bitsAt w 20 12))
def immS (w : Nat) : W64 := BitVec.ofInt 64 (signedOf 12 (bitsAt w 25 7 <<< 5 ||| bitsAt w 7 5))
def immB (w : Nat) : W64 :=
  BitVec.ofInt 64 (signedOf 13 (bitsAt w 31 1 <<< 12 ||| bitsAt w 7 1 <<< 11 ||| bitsAt w 25 6 <<< 5 ||| bitsAt w 8 4 <<< 1))
def immU (w : Nat) : W64 := BitVec.ofInt 64 (signedOf 32 (w / 4096 * 4096))
def immJ (w : Nat) : W64 :=
  BitVec.ofInt 64 (signedOf 21
    (bitsAt w 31 1 <<< 20 ||| bitsAt w 12 8 <<< 12 ||| bitsAt w 20 1 <<< 11 ||| bitsAt w 21 10 <<< 1))

/-! ### Integer operations -/

/-- A 32-bit result, sign-extended. -/
def sext32 (v : Nat) : W64 := BitVec.ofInt 64 (signedOf 32 v)

def clz (bits v : Nat) : Nat := if v = 0 then bits else bits - 1 - v.log2
def ctz (bits v : Nat) : Nat := ((List.range bits).find? fun i => v.testBit i).getD bits
def popcount (bits v : Nat) : Nat := ((List.range bits).filter fun i => v.testBit i).length

def rotr (bits v k : Nat) : Nat := ((v >>> (k % bits)) ||| (v <<< (bits - k % bits))) % 2 ^ bits

/-- Bytes in the other order, and bytes made all ones where any bit is set. -/
def rev8 (v : W64) : Nat := leNat (toLe 8 v.toNat).reverse
def orcb (v : W64) : Nat := leNat ((toLe 8 v.toNat).map fun b => if b = 0 then 0 else 0xFF)

def mulh (signedA signedB : Bool) (a b : W64) : W64 :=
  let x : Int := if signedA then a.toInt else a.toNat
  let y : Int := if signedB then b.toInt else b.toNat
  BitVec.ofInt 64 (shiftFloor (x * y) (-64))

/-- Division and remainder of M: by zero all ones and the dividend; overflow wraps. -/
def div (bits a b : Nat) : Nat :=
  let x := signedOf bits a
  let y := signedOf bits b
  if y = 0 then 2 ^ bits - 1 else unsignedOf bits (Int.tdiv x y)
def divu (bits a b : Nat) : Nat := if b = 0 then 2 ^ bits - 1 else a / b
def rem (bits a b : Nat) : Nat :=
  let x := signedOf bits a
  let y := signedOf bits b
  if y = 0 then a else unsignedOf bits (x - y * Int.tdiv x y)
def remu (a b : Nat) : Nat := if b = 0 then a else a % b

def ofBool (b : Bool) : W64 := if b then 1 else 0

/-- OP (0x33): funct7, funct3. -/
def op (f7 f3 : Nat) (a b : W64) : Option W64 :=
  let sh := b.toNat % 64
  match f7, f3 with
  | 0x00, 0 => some (a + b)
  | 0x20, 0 => some (a - b)
  | 0x00, 1 => some (a <<< sh)
  | 0x00, 2 => some (ofBool (a.toInt < b.toInt))
  | 0x00, 3 => some (ofBool (a.toNat < b.toNat))
  | 0x00, 4 => some (a ^^^ b)
  | 0x00, 5 => some (a >>> sh)
  | 0x20, 5 => some (a.sshiftRight sh)
  | 0x00, 6 => some (a ||| b)
  | 0x00, 7 => some (a &&& b)
  | 0x01, 0 => some (a * b)
  | 0x01, 1 => some (mulh true true a b)
  | 0x01, 2 => some (mulh true false a b)
  | 0x01, 3 => some (mulh false false a b)
  | 0x01, 4 => some (BitVec.ofNat 64 (div 64 a.toNat b.toNat))
  | 0x01, 5 => some (BitVec.ofNat 64 (divu 64 a.toNat b.toNat))
  | 0x01, 6 => some (BitVec.ofNat 64 (rem 64 a.toNat b.toNat))
  | 0x01, 7 => some (BitVec.ofNat 64 (remu a.toNat b.toNat))
  | 0x10, 2 => some (b + (a <<< 1))
  | 0x10, 4 => some (b + (a <<< 2))
  | 0x10, 6 => some (b + (a <<< 3))
  | 0x20, 4 => some (~~~(a ^^^ b))
  | 0x20, 6 => some (a ||| ~~~b)
  | 0x20, 7 => some (a &&& ~~~b)
  | 0x05, 4 => some (if b.toInt < a.toInt then b else a)
  | 0x05, 5 => some (if b.toNat < a.toNat then b else a)
  | 0x05, 6 => some (if a.toInt < b.toInt then b else a)
  | 0x05, 7 => some (if a.toNat < b.toNat then b else a)
  | 0x30, 1 => some (BitVec.ofNat 64 (rotr 64 a.toNat (64 - sh)))
  | 0x30, 5 => some (BitVec.ofNat 64 (rotr 64 a.toNat sh))
  | _, _ => none

/-- OP-32 (0x3B). -/
def op32 (f7 f3 rs2 : Nat) (a b : W64) : Option W64 :=
  let x := a.toNat % 2 ^ 32
  let y := b.toNat % 2 ^ 32
  let sh := b.toNat % 32
  match f7, f3 with
  | 0x00, 0 => some (sext32 (x + y))
  | 0x20, 0 => some (sext32 (x + 2 ^ 32 - y))
  | 0x00, 1 => some (sext32 (x <<< sh))
  | 0x00, 5 => some (sext32 (x >>> sh))
  | 0x20, 5 => some (BitVec.ofInt 64 (shiftFloor (signedOf 32 x) (-(sh : Int))))
  | 0x01, 0 => some (sext32 (x * y))
  | 0x01, 4 => some (sext32 (div 32 x y))
  | 0x01, 5 => some (sext32 (divu 32 x y))
  | 0x01, 6 => some (sext32 (rem 32 x y))
  | 0x01, 7 => some (sext32 (remu x y))
  | 0x04, 0 => some (b + BitVec.ofNat 64 x)
  | 0x04, 4 => if rs2 = 0 then some (BitVec.ofNat 64 (x % 2 ^ 16)) else none
  | 0x10, 2 => some (b + BitVec.ofNat 64 (x * 2))
  | 0x10, 4 => some (b + BitVec.ofNat 64 (x * 4))
  | 0x10, 6 => some (b + BitVec.ofNat 64 (x * 8))
  | 0x30, 1 => some (sext32 (rotr 32 x (32 - sh)))
  | 0x30, 5 => some (sext32 (rotr 32 x sh))
  | _, _ => none

/-- OP-IMM (0x13). -/
def opImm (w : Nat) (a : W64) : Option W64 :=
  let i := immI w
  let sh := bitsAt w 20 6
  let f6 := bitsAt w 26 6
  match f3 w with
  | 0 => some (a + i)
  | 2 => some (ofBool (a.toInt < i.toInt))
  | 3 => some (ofBool (a.toNat < i.toNat))
  | 4 => some (a ^^^ i)
  | 6 => some (a ||| i)
  | 7 => some (a &&& i)
  | 1 =>
    if f6 = 0 then some (a <<< sh)
    else
      match csrNo w with
      | 0x600 => some (BitVec.ofNat 64 (clz 64 a.toNat))
      | 0x601 => some (BitVec.ofNat 64 (ctz 64 a.toNat))
      | 0x602 => some (BitVec.ofNat 64 (popcount 64 a.toNat))
      | 0x604 => some (BitVec.ofInt 64 (signedOf 8 a.toNat))
      | 0x605 => some (BitVec.ofInt 64 (signedOf 16 a.toNat))
      | _ => none
  | _ =>
    if f6 = 0 then some (a >>> sh)
    else if f6 = 0x10 then some (a.sshiftRight sh)
    else if f6 = 0x18 then some (BitVec.ofNat 64 (rotr 64 a.toNat sh))
    else if csrNo w = 0x287 then some (BitVec.ofNat 64 (orcb a))
    else if csrNo w = 0x6B8 then some (BitVec.ofNat 64 (rev8 a))
    else none

/-- OP-IMM-32 (0x1B). -/
def opImm32 (w : Nat) (a : W64) : Option W64 :=
  let x := a.toNat % 2 ^ 32
  let sh := rs2 w
  match f3 w with
  | 0 => some (sext32 (a + immI w).toNat)
  | 1 =>
    if f7 w = 0 then some (sext32 (x <<< sh))
    else if bitsAt w 26 6 = 2 then some (BitVec.ofNat 64 (x <<< bitsAt w 20 6))
    else
      match csrNo w with
      | 0x600 => some (BitVec.ofNat 64 (clz 32 x))
      | 0x601 => some (BitVec.ofNat 64 (ctz 32 x))
      | 0x602 => some (BitVec.ofNat 64 (popcount 32 x))
      | _ => none
  | 5 =>
    if f7 w = 0 then some (sext32 (x >>> sh))
    else if f7 w = 0x20 then some (BitVec.ofInt 64 (shiftFloor (signedOf 32 x) (-(sh : Int))))
    else if f7 w = 0x30 then some (sext32 (rotr 32 x sh))
    else none
  | _ => none

/-- Branch conditions. -/
def branch (f3 : Nat) (a b : W64) : Option Bool :=
  match f3 with
  | 0 => some (a == b)
  | 1 => some (a != b)
  | 4 => some (decide (a.toInt < b.toInt))
  | 5 => some (decide (b.toInt ≤ a.toInt))
  | 6 => some (decide (a.toNat < b.toNat))
  | 7 => some (decide (b.toNat ≤ a.toNat))
  | _ => none

end Rv

/-! ### Loads, stores and system instructions -/

namespace Scalar

open Rv

/-- Sizes and extensions of loads: bytes, signed. -/
def loadKind (f3 : Nat) : Option (Nat × Bool) :=
  match f3 with
  | 0 => some (1, true) | 1 => some (2, true) | 2 => some (4, true) | 3 => some (8, true)
  | 4 => some (1, false) | 5 => some (2, false) | 6 => some (4, false)
  | _ => none

def loadI (hc : Fin 32) (w : Nat) (s : State) : IRes :=
  let c := s.core hc.val
  match loadKind (f3 w) with
  | none => illegal s w
  | some (n, signed) =>
    let va := c.reg (rs1 w) + immI w
    match Mmu.load s hc false va.toNat n with
    | .trap cause s1 => .trap s1 cause va
    | .ok v s1 => withReg s1 hc.val (rd w) (if signed then Amo.extend n v else BitVec.ofNat 64 v)

def storeI (hc : Fin 32) (w : Nat) (s : State) : IRes :=
  let c := s.core hc.val
  if 4 ≤ f3 w then illegal s w
  else
    let n := 2 ^ f3 w
    let va := c.reg (rs1 w) + immS w
    match Mmu.store s hc false va.toNat n ((c.reg (rs2 w)).toNat % 2 ^ (8 * n)) with
    | .trap cause s1 => .trap s1 cause va
    | .ok _ s1 => .done s1

/-- CSR instructions: the write that an instruction makes, if any. -/
def csrI (hc : Fin 32) (w : Nat) (s : State) : IRes :=
  let c := s.core hc.val
  let src := if 4 ≤ f3 w then BitVec.ofNat 64 (rs1 w) else c.reg (rs1 w)
  let wr : Option (W64 → W64) :=
    match f3 w % 4 with
    | 1 => some fun _ => src
    | 2 => if rs1 w = 0 then none else some fun o => o ||| src
    | _ => if rs1 w = 0 then none else some fun o => o &&& ~~~src
  match Csr.access s hc.val (csrNo w) wr with
  | none => illegal s w
  | some (old, s1) => withReg s1 hc.val (rd w) old

/-- ECALL, EBREAK, returns, WFI and SFENCE.VMA. -/
def system (hc : Fin 32) (w : Nat) (s : State) : IRes :=
  let n := hc.val
  let c := s.core n
  let ms := c.csr.mstatus
  if f3 w ≠ 0 then (if f3 w = 4 then illegal s w else csrI hc w s)
  else if bitsAt w 25 7 = 0x09 ∧ rd w = 0 then
    (if c.mode = .u ∨ (c.mode = .s ∧ ms.getLsbD 20) then illegal s w else .done s)
  else if rd w ≠ 0 ∨ rs1 w ≠ 0 then illegal s w
  else
    match csrNo w with
    | 0x000 => .trap s (match c.mode with
        | .u => 8
        | .s => 9
        | .m => 11) 0
    | 0x001 => .trap s 3 c.pc
    | 0x102 =>
      if c.mode = .u ∨ (c.mode = .s ∧ ms.getLsbD 22) then illegal s w else .ret (s.modCore n State.leaveS) c.pc
    | 0x302 => if c.mode = .m then .ret (s.modCore n State.leaveM) c.pc else illegal s w
    | 0x105 =>
      if c.mode != .m && (c.mode == .u || ms.getLsbD 21) then illegal s w
      else if s.mipOf n &&& c.csr.mie.toNat ≠ 0 then .done s
      else .wait s
    | _ => illegal s w

/-- FENCE, FENCE.I and the cache-block operations (0x0F). -/
def miscMem (hc : Fin 32) (w : Nat) (s : State) : IRes :=
  match f3 w with
  | 0 => fenceInstr s
  | 1 => .done s
  | 2 =>
    if rd w ≠ 0 then illegal s w
    else
      match csrNo w with
      | 0 => Cbo.body hc .inval (rs1 w) w s
      | 1 => Cbo.body hc .clean (rs1 w) w s
      | 2 => Cbo.body hc .flush (rs1 w) w s
      | 4 => Cbo.body hc .zero (rs1 w) w s
      | _ => illegal s w
  | _ => illegal s w

/-- AMO (0x2F). -/
def amoOp (f5 : Nat) : Option AmoOp :=
  match f5 with
  | 0x00 => some .add | 0x01 => some .swap | 0x04 => some .xor | 0x08 => some .or | 0x0C => some .and
  | 0x10 => some .min | 0x14 => some .max | 0x18 => some .minu | 0x1C => some .maxu
  | _ => none

def amo (hc : Fin 32) (w : Nat) (s : State) : IRes :=
  if f3 w ≠ 2 ∧ f3 w ≠ 3 then illegal s w
  else
    let d := f3 w == 3
    let f5 := bitsAt w 27 5
    if f5 = 2 then (if rs2 w = 0 then Amo.lr hc d (rd w) (rs1 w) s else illegal s w)
    else if f5 = 3 then Amo.sc hc d (rd w) (rs1 w) (rs2 w) s
    else
      match amoOp f5 with
      | some o => Amo.body hc o d (rd w) (rs1 w) (rs2 w) s
      | none => illegal s w

/-! ### Floating point (R428) -/

/-- The format of the fmt field: 0 single, 1 double. -/
def fmtOf (f : Nat) : Option FloatSpec :=
  match f with
  | 0 => some f32
  | 1 => some f64
  | _ => none

/-- An operand, NaN-unboxed. -/
def fget (c : HostCore) (double : Bool) (i : Nat) : Nat :=
  let v := (c.freg i).toNat
  if double then v else if v >>> 32 = 0xFFFF_FFFF then v % 2 ^ 32 else f32.nanBits

/-- Write a result, NaN-boxed. -/
def fput (s : State) (n : Nat) (double : Bool) (i : Nat) (r : FOut) : IRes :=
  let v := if double then r.1 else 0xFFFF_FFFF <<< 32 ||| r.1
  .done (s.modCore n fun c => (c.setFreg i (BitVec.ofNat 64 v)).accrue r.2.code)

/-- An integer result with its flags. -/
def xput (s : State) (n : Nat) (i : Nat) (v : W64) (fl : FFlags) : IRes :=
  .done (s.modCore n fun c => (c.setReg i v).accrue fl.code)

/-- The rounding mode of an instruction: 7 takes `frm`. -/
def rmOf (c : HostCore) (rm : Nat) : Option RMode := Ieee.modeOf (if rm = 7 then c.frm else rm)

def loadF (hc : Fin 32) (w : Nat) (s : State) : IRes :=
  let c := s.core hc.val
  if !c.fpOn || (f3 w != 2 && f3 w != 3) then illegal s w
  else
    let d := f3 w == 3
    let va := c.reg (rs1 w) + immI w
    match Mmu.load s hc false va.toNat (if d then 8 else 4) with
    | .trap cause s1 => .trap s1 cause va
    | .ok v s1 => fput s1 hc.val d (rd w) (v, {})

def storeF (hc : Fin 32) (w : Nat) (s : State) : IRes :=
  let c := s.core hc.val
  if !c.fpOn || (f3 w != 2 && f3 w != 3) then illegal s w
  else
    let n := if f3 w = 3 then 8 else 4
    let va := c.reg (rs1 w) + immS w
    match Mmu.store s hc false va.toNat n ((c.freg (rs2 w)).toNat % 2 ^ (8 * n)) with
    | .trap cause s1 => .trap s1 cause va
    | .ok _ s1 => .done s1

/-- FMADD, FMSUB, FNMSUB, FNMADD. -/
def fmadd (hc : Fin 32) (w : Nat) (negP negC : Bool) (s : State) : IRes :=
  let c := s.core hc.val
  match fmtOf (bitsAt w 25 2), rmOf c (f3 w) with
  | some fs, some mode =>
    let d := bitsAt w 25 2 == 1
    if !c.fpOn then illegal s w
    else fput s hc.val d (rd w)
      (Ieee.fma fs mode (fget c d (rs1 w)) (fget c d (rs2 w)) (fget c d (bitsAt w 27 5)) negP negC)
  | _, _ => illegal s w

/-- The integer type of a conversion: signed, bits. -/
def cvtInt (rs2 : Nat) : Option (Bool × Nat) :=
  match rs2 with
  | 0 => some (true, 32) | 1 => some (false, 32) | 2 => some (true, 64) | 3 => some (false, 64)
  | _ => none

/-- The value of an integer operand of a conversion. -/
def intOf (signed : Bool) (bits : Nat) (v : W64) : Int :=
  if signed then signedOf bits v.toNat else ((v.toNat % 2 ^ bits : Nat) : Int)

/-- OP-FP (0x53) where FS is on: funct5 selects. -/
def opFp (hc : Fin 32) (w : Nat) (fs : FloatSpec) (d : Bool) (s : State) : IRes :=
  let n := hc.val
  let c := s.core n
  let a := fget c d (rs1 w)
  let b := fget c d (rs2 w)
  let rounded (f : RMode → FOut) : IRes :=
    match rmOf c (f3 w) with
    | some m => fput s n d (rd w) (f m)
    | none => illegal s w
  let plain (r : FOut) : IRes := fput s n d (rd w) r
  match bitsAt w 27 5 with
  | 0x00 => rounded fun m => Ieee.add fs m a b false
  | 0x01 => rounded fun m => Ieee.add fs m a b true
  | 0x02 => rounded fun m => Ieee.mul fs fs m a b
  | 0x03 => rounded fun m => Ieee.div fs m a b
  | 0x0B => if rs2 w = 0 then rounded fun m => Ieee.sqrt fs m a else illegal s w
  | 0x04 => if f3 w < 3 then plain (Ieee.sgnj fs (f3 w) a b, {}) else illegal s w
  | 0x05 => if f3 w < 2 then plain (Ieee.minMax fs (f3 w == 1) a b) else illegal s w
  | 0x08 =>
    match rmOf c (f3 w), rs2 w, d with
    | some m, 1, false => fput s n false (rd w) (Ieee.cvt f64 f32 m (fget c true (rs1 w)))
    | some m, 0, true => fput s n true (rd w) (Ieee.cvt f32 f64 m (fget c false (rs1 w)))
    | _, _, _ => illegal s w
  | 0x14 =>
    let cmp (r : Bool × FFlags) : IRes := xput s n (rd w) (ofBool r.1) r.2
    match f3 w with
    | 0 => cmp (Ieee.le fs a b)
    | 1 => cmp (Ieee.lt fs a b)
    | 2 => cmp (Ieee.eq fs a b)
    | _ => illegal s w
  | 0x18 =>
    match rmOf c (f3 w), cvtInt (rs2 w) with
    | some m, some (sg, bits) =>
      let r := Ieee.toInt fs m sg bits a
      xput s n (rd w) (if bits = 32 then sext32 r.1 else BitVec.ofNat 64 r.1) r.2
    | _, _ => illegal s w
  | 0x1A =>
    match rmOf c (f3 w), cvtInt (rs2 w) with
    | some m, some (sg, bits) => plain (Ieee.ofInt fs m (intOf sg bits (c.reg (rs1 w))))
    | _, _ => illegal s w
  | 0x1C =>
    if rs2 w ≠ 0 then illegal s w
    else if f3 w = 0 then
      xput s n (rd w) (if d then c.freg (rs1 w) else sext32 ((c.freg (rs1 w)).toNat)) {}
    else if f3 w = 1 then xput s n (rd w) (BitVec.ofNat 64 (Ieee.classify fs a)) {}
    else illegal s w
  | 0x1E =>
    if rs2 w = 0 ∧ f3 w = 0 then plain ((c.reg (rs1 w)).toNat % 2 ^ (if d then 64 else 32), {}) else illegal s w
  | _ => illegal s w

def fp (hc : Fin 32) (w : Nat) (s : State) : IRes :=
  match fmtOf (bitsAt w 25 2) with
  | some fs => if (s.core hc.val).fpOn then opFp hc w fs (bitsAt w 25 2 == 1) s else illegal s w
  | none => illegal s w

/-! ### The 32-bit encodings -/

def orIllegal (s : State) (n w : Nat) (r : Option W64) : IRes :=
  match r with
  | some v => withReg s n (rd w) v
  | none => illegal s w

/-- One 32-bit instruction; `len` is 2 where it stands for a compressed one. PRESUMED, log 2. -/
def run32 (svx : Fin 32 → Nat → State → IRes) (hc : Fin 32) (w len : Nat) (s : State) : IRes :=
  let n := hc.val
  let c := s.core n
  let a := c.reg (rs1 w)
  let b := c.reg (rs2 w)
  let link := c.pc + BitVec.ofNat 64 len
  match w % 128 with
  | 0x37 => withReg s n (rd w) (immU w)
  | 0x17 => withReg s n (rd w) (c.pc + immU w)
  | 0x6F => .jump (s.modCore n fun c => c.setReg (rd w) link) (c.pc + immJ w)
  | 0x67 =>
    if f3 w = 0 then .jump (s.modCore n fun c => c.setReg (rd w) link) ((a + immI w) &&& ~~~1) else illegal s w
  | 0x63 =>
    match branch (f3 w) a b with
    | some true => .jump s (c.pc + immB w)
    | some false => .done s
    | none => illegal s w
  | 0x03 => loadI hc w s
  | 0x23 => storeI hc w s
  | 0x13 => orIllegal s n w (opImm w a)
  | 0x1B => orIllegal s n w (opImm32 w a)
  | 0x33 => orIllegal s n w (op (f7 w) (f3 w) a b)
  | 0x3B => orIllegal s n w (op32 (f7 w) (f3 w) (rs2 w) a b)
  | 0x0F => miscMem hc w s
  | 0x73 => system hc w s
  | 0x2F => amo hc w s
  | 0x07 => loadF hc w s
  | 0x27 => storeF hc w s
  | 0x43 => fmadd hc w false false s
  | 0x47 => fmadd hc w false true s
  | 0x4B => fmadd hc w true false s
  | 0x4F => fmadd hc w true true s
  | 0x53 => fp hc w s
  | 0x0B | 0x2B | 0x5B | 0x7B => svx hc w s
  | _ => illegal s w

/-! ### The compressed encodings -/

/-- Words in the formats of the base. -/
def mkI (opc rd f3 rs1 : Nat) (imm : Int) : Nat := unsignedOf 12 imm <<< 20 ||| rs1 <<< 15 ||| f3 <<< 12 ||| rd <<< 7 ||| opc
def mkR (opc rd f3 rs1 rs2 f7 : Nat) : Nat := f7 <<< 25 ||| rs2 <<< 20 ||| rs1 <<< 15 ||| f3 <<< 12 ||| rd <<< 7 ||| opc
def mkS (opc f3 rs1 rs2 imm : Nat) : Nat :=
  bitsAt imm 5 7 <<< 25 ||| rs2 <<< 20 ||| rs1 <<< 15 ||| f3 <<< 12 ||| bitsAt imm 0 5 <<< 7 ||| opc
def mkU (opc rd : Nat) (imm : Int) : Nat := unsignedOf 20 imm <<< 12 ||| rd <<< 7 ||| opc
def mkJ (rd : Nat) (imm : Int) : Nat :=
  let i := unsignedOf 21 imm
  bitsAt i 20 1 <<< 31 ||| bitsAt i 1 10 <<< 21 ||| bitsAt i 11 1 <<< 20 ||| bitsAt i 12 8 <<< 12 ||| rd <<< 7 ||| 0x6F
def mkB (f3 rs1 : Nat) (imm : Int) : Nat :=
  let i := unsignedOf 13 imm
  bitsAt i 12 1 <<< 31 ||| bitsAt i 5 6 <<< 25 ||| rs1 <<< 15 ||| f3 <<< 12 ||| bitsAt i 1 4 <<< 8 |||
    bitsAt i 11 1 <<< 7 ||| 0x63

/-- The 32-bit word that a compressed one stands for; none where it is reserved. -/
def expand (h : Nat) : Option Nat :=
  let r (at_ : Nat) : Nat := 8 + bitsAt h at_ 3
  let rd := bitsAt h 7 5
  let rs2 := bitsAt h 2 5
  let imm6 := signedOf 6 (bitsAt h 12 1 <<< 5 ||| bitsAt h 2 5)
  let sh := bitsAt h 12 1 <<< 5 ||| bitsAt h 2 5
  let lw := bitsAt h 5 1 <<< 6 ||| bitsAt h 10 3 <<< 3 ||| bitsAt h 6 1 <<< 2
  let ld := bitsAt h 5 2 <<< 6 ||| bitsAt h 10 3 <<< 3
  let jt := signedOf 12 (bitsAt h 12 1 <<< 11 ||| bitsAt h 8 1 <<< 10 ||| bitsAt h 9 2 <<< 8 ||| bitsAt h 6 1 <<< 7 |||
    bitsAt h 7 1 <<< 6 ||| bitsAt h 2 1 <<< 5 ||| bitsAt h 11 1 <<< 4 ||| bitsAt h 3 3 <<< 1)
  let bt := signedOf 9 (bitsAt h 12 1 <<< 8 ||| bitsAt h 5 2 <<< 6 ||| bitsAt h 2 1 <<< 5 ||| bitsAt h 10 2 <<< 3 |||
    bitsAt h 3 2 <<< 1)
  let lwsp := bitsAt h 2 2 <<< 6 ||| bitsAt h 12 1 <<< 5 ||| bitsAt h 4 3 <<< 2
  let ldsp := bitsAt h 2 3 <<< 6 ||| bitsAt h 12 1 <<< 5 ||| bitsAt h 5 2 <<< 3
  let swsp := bitsAt h 7 2 <<< 6 ||| bitsAt h 9 4 <<< 2
  let sdsp := bitsAt h 7 3 <<< 6 ||| bitsAt h 10 3 <<< 3
  match h % 4, bitsAt h 13 3 with
  | 0, 0 =>
    let i := bitsAt h 7 4 <<< 6 ||| bitsAt h 11 2 <<< 4 ||| bitsAt h 5 1 <<< 3 ||| bitsAt h 6 1 <<< 2
    if i = 0 then none else some (mkI 0x13 (r 2) 0 2 i)
  | 0, 1 => some (mkI 0x07 (r 2) 3 (r 7) ld)
  | 0, 2 => some (mkI 0x03 (r 2) 2 (r 7) lw)
  | 0, 3 => some (mkI 0x03 (r 2) 3 (r 7) ld)
  | 0, 5 => some (mkS 0x27 3 (r 7) (r 2) ld)
  | 0, 6 => some (mkS 0x23 2 (r 7) (r 2) lw)
  | 0, 7 => some (mkS 0x23 3 (r 7) (r 2) ld)
  | 1, 0 => some (mkI 0x13 rd 0 rd imm6)
  | 1, 1 => if rd = 0 then none else some (mkI 0x1B rd 0 rd imm6)
  | 1, 2 => some (mkI 0x13 rd 0 0 imm6)
  | 1, 3 =>
    if rd = 2 then
      let i := signedOf 10 (bitsAt h 12 1 <<< 9 ||| bitsAt h 3 2 <<< 7 ||| bitsAt h 5 1 <<< 6 ||| bitsAt h 2 1 <<< 5 |||
        bitsAt h 6 1 <<< 4)
      if i = 0 then none else some (mkI 0x13 2 0 2 i)
    else if imm6 = 0 then none else some (mkU 0x37 rd imm6)
  | 1, 4 =>
    match bitsAt h 10 2 with
    | 0 => some (mkI 0x13 (r 7) 5 (r 7) sh)
    | 1 => some (mkI 0x13 (r 7) 5 (r 7) (0x400 + sh))
    | 2 => some (mkI 0x13 (r 7) 7 (r 7) imm6)
    | _ =>
      match bitsAt h 12 1, bitsAt h 5 2 with
      | 0, 0 => some (mkR 0x33 (r 7) 0 (r 7) (r 2) 0x20)
      | 0, 1 => some (mkR 0x33 (r 7) 4 (r 7) (r 2) 0)
      | 0, 2 => some (mkR 0x33 (r 7) 6 (r 7) (r 2) 0)
      | 0, _ => some (mkR 0x33 (r 7) 7 (r 7) (r 2) 0)
      | _, 0 => some (mkR 0x3B (r 7) 0 (r 7) (r 2) 0x20)
      | _, 1 => some (mkR 0x3B (r 7) 0 (r 7) (r 2) 0)
      | _, _ => none
  | 1, 5 => some (mkJ 0 jt)
  | 1, 6 => some (mkB 0 (r 7) bt)
  | 1, 7 => some (mkB 1 (r 7) bt)
  | 2, 0 => some (mkI 0x13 rd 1 rd sh)
  | 2, 1 => some (mkI 0x07 rd 3 2 ldsp)
  | 2, 2 => if rd = 0 then none else some (mkI 0x03 rd 2 2 lwsp)
  | 2, 3 => if rd = 0 then none else some (mkI 0x03 rd 3 2 ldsp)
  | 2, 4 =>
    if bitsAt h 12 1 = 0 then
      (if rs2 = 0 then (if rd = 0 then none else some (mkI 0x67 0 0 rd 0)) else some (mkR 0x33 rd 0 0 rs2 0))
    else if rs2 = 0 then (if rd = 0 then some 0x00100073 else some (mkI 0x67 1 0 rd 0))
    else some (mkR 0x33 rd 0 rd rs2 0)
  | 2, 5 => some (mkS 0x27 3 2 rs2 sdsp)
  | 2, 6 => some (mkS 0x23 2 2 rs2 swsp)
  | 2, 7 => some (mkS 0x23 3 2 rs2 sdsp)
  | _, _ => none

/-- An instruction word: its length, and its meaning. -/
def length (w : Nat) : Nat := if w % 4 = 3 then 4 else 2

def run (svx : Fin 32 → Nat → State → IRes) (hc : Fin 32) (w : Nat) (s : State) : IRes :=
  if w % 4 = 3 then run32 svx hc w 4 s
  else
    match expand (w % 2 ^ 16) with
    | some x =>
      match run32 svx hc x 2 s with
      | .trap s1 2 _ => illegal s1 (w % 2 ^ 16)
      | r => r
    | none => illegal s (w % 2 ^ 16)

/-- Whether a word has one of the four custom major opcodes of SVX (R452). -/
def isSvx (w : Nat) : Bool := [0x0B, 0x2B, 0x5B, 0x7B].contains (w % 128)

end Scalar

end Sys2Proof.Machine
end

