-- ==== Sys2Proof/Machine/Svx.lean ====
section
/-! DEFINITION. SVX, the vector extension of the host cores (R445 to R459). -/

namespace Sys2Proof.Machine

namespace Svx

/-- The element size of a code, in bits, and the elements of a register (R447, R452). -/
def bits (sz : Nat) : Nat := 8 <<< sz
def count (s : Nat) : Nat := 1024 / s

/-- The floating-point format of a code; 0 is reserved. -/
def spec (sz : Nat) : Option FloatSpec :=
  match sz with
  | 1 => some Ieee.f16
  | 2 => some f32
  | 3 => some f64
  | _ => none

/-- Element e of a register at size s. -/
def elem (v : VReg) (s e : Nat) : Nat := bitsAt v.toNat (s * e) s

/-- A register from its elements at size s, element 0 first. -/
def pack (s : Nat) (vs : List Nat) : VReg := BitVec.ofNat 1024 (vs.foldr (fun x acc => x % 2 ^ s + 2 ^ s * acc) 0)

/-- A predicate from its bits, bit 0 first. -/
def packP (bs : List Bool) : PReg := BitVec.ofNat 128 (bs.foldr (fun b acc => bit b 0 + 2 * acc) 0)

/-- Write y_d: SVX becomes Dirty (R449). -/
def putV (c : HostCore) (d : Nat) (v : VReg) : HostCore :=
  let c1 := c.setVreg d v
  { c1 with csr := { c1.csr with svxcsr := 3 } }

/-- Write q_d. -/
def putP (c : HostCore) (d : Nat) (v : PReg) : HostCore :=
  let c1 := c.setPreg d v
  { c1 with csr := { c1.csr with svxcsr := 3 } }

/-- Write the active elements of y_d with what `f` gives, and accrue its flags (R448, R451). -/
def mapElems (c : HostCore) (q d s : Nat) (f : Nat → FOut) : HostCore :=
  let p := c.preg q
  let old := c.vreg d
  let rs := (List.range (count s)).map fun e => if p.getLsbD e then f e else (elem old s e, {})
  (putV c d (pack s (rs.map (·.1)))).accrue (rs.foldl (fun (a : FFlags) r => a.or r.2) {}).code

/-- The word of an SVX instruction. -/
def word (opc funct : Nat) (f : SvxFields) : Nat :=
  funct <<< 27 ||| f.sz.toNat <<< 25 ||| f.b.toNat <<< 20 ||| f.a.toNat <<< 15 ||| f.q.toNat <<< 12 ||| f.d.toNat <<< 7 ||| opc

/-- An instruction that is not a memory access: illegal while SVX is Off, while svxstart is not 0, and where its own
conditions fail (R449, R450, R459). -/
def op (hc : Fin 32) (w : Nat) (f : HostCore → Option HostCore) (s : State) : IRes :=
  let c := s.core hc.val
  if !c.svxOn || c.csr.svxstart != 0 then illegal s w
  else
    match f c with
    | some c1 => .done (s.setCore hc.val c1)
    | none => illegal s w

/-! ### VA (R453) -/

/-- The integer operations by function code. -/
def intOp (k s x y : Nat) : Option Nat :=
  let sh := y % s
  match k with
  | 0x00 => some (x + y)
  | 0x01 => some (x + 2 ^ s - y)
  | 0x02 => some (x * y)
  | 0x03 => some (if signedOf s y < signedOf s x then y else x)
  | 0x04 => some (if signedOf s x < signedOf s y then y else x)
  | 0x05 => some (x &&& y)
  | 0x06 => some (x ||| y)
  | 0x07 => some (x ^^^ y)
  | 0x08 => some (x <<< sh)
  | 0x09 => some (x >>> sh)
  | 0x0A => some (unsignedOf s (shiftFloor (signedOf s x) (-(sh : Int))))
  | 0x0B => some (min x y)
  | 0x0C => some (max x y)
  | _ => none

/-- The floating-point operations by function code; none where the mode is needed and reserved. DESIGN CHOICE, log 122. -/
def floatOp (k : Nat) (fs : FloatSpec) (mode : Option RMode) (x y : Nat) : Option FOut :=
  match k with
  | 0x10 => mode.map fun m => Ieee.add fs m x y false
  | 0x11 => mode.map fun m => Ieee.add fs m x y true
  | 0x12 => mode.map fun m => Ieee.mul fs fs m x y
  | 0x13 => mode.map fun m => Ieee.div fs m x y
  | 0x14 => some (Ieee.minMax fs false x y)
  | 0x15 => some (Ieee.minMax fs true x y)
  | 0x16 => mode.map fun m => Ieee.sqrt fs m x
  | 0x17 => some (Ieee.sgnj fs 0 x y, {})
  | 0x18 => some (Ieee.sgnj fs 1 x y, {})
  | 0x19 => some (Ieee.sgnj fs 2 x y, {})
  | _ => none

def modeOf (c : HostCore) : Option RMode := Ieee.modeOf c.frm

def vaInt (k : Nat) (f : SvxFields) (c : HostCore) : Option HostCore :=
  let s := bits f.sz.toNat
  if (intOp k s 0 0).isNone then none
  else some (mapElems c f.q.toNat f.d.toNat s fun e =>
    ((intOp k s (elem (c.vreg f.a.toNat) s e) (elem (c.vreg f.b.toNat) s e)).getD 0, {}))

def vaFloat (k : Nat) (f : SvxFields) (c : HostCore) : Option HostCore :=
  match spec f.sz.toNat with
  | none => none
  | some fs =>
    let s := bits f.sz.toNat
    if (floatOp k fs (modeOf c) 0 0).isNone || (k == 0x16 && f.b != 0) then none
    else some (mapElems c f.q.toNat f.d.toNat s fun e =>
      (floatOp k fs (modeOf c) (elem (c.vreg f.a.toNat) s e) (elem (c.vreg f.b.toNat) s e)).getD (0, {}))

/-- SEL writes every element (R448). -/
def sel (f : SvxFields) (c : HostCore) : Option HostCore :=
  let s := bits f.sz.toNat
  let p := c.preg f.q.toNat
  some (putV c f.d.toNat (pack s ((List.range (count s)).map fun e =>
    elem (c.vreg (if p.getLsbD e then f.a.toNat else f.b.toNat)) s e)))

/-! ### VR (R454) -/

/-- FMA and FNMA. -/
def fma (neg : Bool) (f : SvxFields) (c : HostCore) : Option HostCore :=
  match spec f.sz.toNat, modeOf c with
  | some fs, some m =>
    let s := bits f.sz.toNat
    some (mapElems c f.q.toNat f.d.toNat s fun e =>
      Ieee.fma fs m (elem (c.vreg f.a.toNat) s e) (elem (c.vreg f.b.toNat) s e) (elem (c.vreg f.d.toNat) s e) neg false)
  | _, _ => none

def ima (f : SvxFields) (c : HostCore) : Option HostCore :=
  let s := bits f.sz.toNat
  some (mapElems c f.q.toNat f.d.toNat s fun e =>
    (elem (c.vreg f.d.toNat) s e + elem (c.vreg f.a.toNat) s e * elem (c.vreg f.b.toNat) s e, {}))

/-- The source element of destination element e in a widening operation. -/
def wide (h : Bool) (s e : Nat) : Nat := e + (if h then count (2 * s) else 0)

/-- FWMUL and FWMA: sources at FP16 or FP32. -/
def fwide (acc h : Bool) (f : SvxFields) (c : HostCore) : Option HostCore :=
  if f.sz.toNat = 0 ∨ f.sz.toNat = 3 then none
  else
    match spec f.sz.toNat, spec (f.sz.toNat + 1), modeOf c with
    | some src, some dst, some m =>
      let s := bits f.sz.toNat
      some (mapElems c f.q.toNat f.d.toNat (2 * s) fun e =>
        let x := elem (c.vreg f.a.toNat) s (wide h s e)
        let y := elem (c.vreg f.b.toNat) s (wide h s e)
        if acc then Ieee.sumOf src dst m [(x, y, false)] (elem (c.vreg f.d.toNat) (2 * s) e) false
        else Ieee.mul src dst m x y)
    | _, _, _ => none

/-- IWMUL and IWMA. -/
def iwide (acc h : Bool) (f : SvxFields) (c : HostCore) : Option HostCore :=
  if f.sz.toNat = 3 then none
  else
    let s := bits f.sz.toNat
    some (mapElems c f.q.toNat f.d.toNat (2 * s) fun e =>
      let x := signedOf s (elem (c.vreg f.a.toNat) s (wide h s e))
      let y := signedOf s (elem (c.vreg f.b.toNat) s (wide h s e))
      (unsignedOf (2 * s) (x * y + (if acc then (elem (c.vreg f.d.toNat) (2 * s) e : Int) else 0)), {}))

/-- The formats of FDOT by sz. -/
def dotFormats (sz : Nat) : Option (FloatSpec × Nat × FloatSpec) :=
  match sz with
  | 0 => some (Ieee.bf16, 16, f32)
  | 1 => some (Ieee.f16, 16, f32)
  | 2 => some (f32, 32, f64)
  | _ => none

def fdot (f : SvxFields) (c : HostCore) : Option HostCore :=
  match dotFormats f.sz.toNat, modeOf c with
  | some (src, s, dst), some m =>
    let x (e : Nat) : Nat := elem (c.vreg f.a.toNat) s e
    let y (e : Nat) : Nat := elem (c.vreg f.b.toNat) s e
    some (mapElems c f.q.toNat f.d.toNat (2 * s) fun e =>
      Ieee.sumOf src dst m [(x (2 * e), y (2 * e), false), (x (2 * e + 1), y (2 * e + 1), false)]
        (elem (c.vreg f.d.toNat) (2 * s) e) false)
  | _, _ => none

/-- IDOT and IDOTU. -/
def idot (signed : Bool) (f : SvxFields) (c : HostCore) : Option HostCore :=
  if 1 < f.sz.toNat then none
  else
    let s := bits f.sz.toNat
    let v (r e : Nat) : Int := if signed then signedOf s (elem (c.vreg r) s e) else (elem (c.vreg r) s e : Int)
    some (mapElems c f.q.toNat f.d.toNat (4 * s) fun e =>
      let terms := (List.range 4).map fun t => v f.a.toNat (4 * e + t) * v f.b.toNat (4 * e + t)
      (unsignedOf (4 * s) ((elem (c.vreg f.d.toNat) (4 * s) e : Int) + terms.sum), {}))

/-! ### VM (R450, R455, R456) -/

/-- The address of field g of element e. -/
def addr (c : HostCore) (mop nf : Nat) (f : SvxFields) (e g : Nat) : W64 :=
  let s := bits f.sz.toNat
  let base := c.reg f.a.toNat
  match mop % 4 with
  | 0 => if mop = 0 ∨ mop = 4 then base + BitVec.ofNat 64 ((e * (nf + 1) + g) * (s / 8)) else base
  | 1 => base + BitVec.ofNat 64 e * c.reg f.b.toNat
  | 2 => base + BitVec.ofNat 64 (elem (c.vreg f.b.toNat) s e * (s / 8))
  | _ => base

/-- The element address of a form by mop: loads 0 VLD, 1 VLDS, 2 VLDX, 3 VLDR; stores 4 VST, 5 VSTS, 6 VSTX. -/
def formOk (mop nf : Nat) (f : SvxFields) : Bool :=
  decide (mop < 7) && (mop == 0 || mop == 4 || nf == 0) && decide (f.d.toNat + nf ≤ 31) &&
    (mop == 1 || mop == 2 || mop == 5 || mop == 6 || f.b == 0)

/-- Load the fields of one element: every access first, then the writes. -/
def loadElem (hc : Fin 32) (mop nf : Nat) (f : SvxFields) (e : Nat) (s : State) : MemRes (List Nat) × W64 :=
  let n := bits f.sz.toNat / 8
  (List.range (nf + 1)).foldl (fun acc g =>
    match acc with
    | (.ok vs s1, _) =>
      let a := addr (s1.core hc.val) mop nf f e g
      (match Mmu.load s1 hc true a.toNat n with
        | .ok v s2 => .ok (vs ++ [v]) s2
        | .trap cause s2 => .trap cause s2, a)
    | r => r) (.ok [] s, 0)

/-- Write field g of element e into y(d + g). -/
def putElem (sz d e : Nat) (c : HostCore) (g v : Nat) : HostCore :=
  let s := bits sz
  putV c (d + g) (pack s ((List.range (count s)).map fun k => if k = e then v else elem (c.vreg (d + g)) s k))

/-- Resolve the fields of one element of a store: the physical addresses and values. -/
def storeElem (hc : Fin 32) (mop nf : Nat) (f : SvxFields) (e : Nat) (s : State) : MemRes (List (Nat × Nat)) × W64 :=
  let n := bits f.sz.toNat / 8
  (List.range (nf + 1)).foldl (fun acc g =>
    match acc with
    | (.ok ws s1, _) =>
      let c := s1.core hc.val
      let a := addr c mop nf f e g
      (match Mmu.resolve s1 hc .store true a.toNat n with
        | .ok p s2 => .ok (ws ++ [(p, elem (c.vreg (f.d.toNat + g)) (bits f.sz.toNat) e)]) s2
        | .trap cause s2 => .trap cause s2, a)
    | r => r) (.ok [] s, 0)

/-- One element; the exception with its address, if one is raised. -/
def oneElem (hc : Fin 32) (mop nf : Nat) (f : SvxFields) (e : Nat) (s : State) : State × Option (Nat × W64) :=
  let n := hc.val
  if mop < 4 then
    match loadElem hc mop nf f e s with
    | (.ok vs s1, _) =>
      (s1.modCore n fun c => (List.range (nf + 1)).foldl (fun c g => putElem f.sz.toNat f.d.toNat e c g (vs.getD g 0)) c, none)
    | (.trap cause s1, a) => (s1, some (cause, a))
  else
    match storeElem hc mop nf f e s with
    | (.ok ws s1, _) =>
      (ws.foldl (fun s w => s.physWrite n w.1 (toLe (bits f.sz.toNat / 8) w.2)) s1, none)
    | (.trap cause s1, a) => (s1, some (cause, a))

def setStart (s : State) (n : Nat) (e : Nat) : State :=
  s.modCore n fun c => { c with csr := { c.csr with svxstart := BitVec.ofNat 64 e } }

/-- The elements from a list in order, until an exception: then svxstart names its element (R450). -/
def elems (hc : Fin 32) (mop nf : Nat) (f : SvxFields) (p : PReg) : List Nat → State → IRes
  | [], s => .done (setStart s hc.val 0)
  | e :: es, s =>
    if p.getLsbD e then
      match oneElem hc mop nf f e s with
      | (s1, none) => elems hc mop nf f p es s1
      | (s1, some (cause, a)) => .trap (setStart s1 hc.val e) cause a
    else elems hc mop nf f p es s

/-- A load or store. The index register is read before any element is written. -/
def mem (hc : Fin 32) (mop nf : Nat) (f : SvxFields) (w : Nat) (s : State) : IRes :=
  let c := s.core hc.val
  if !c.svxOn || !formOk mop nf f then illegal s w
  else
    let v := count (bits f.sz.toNat)
    let start := c.csr.svxstart.toNat
    elems hc mop nf f (c.preg f.q.toNat) (List.range' (min start v) (v - start)) s

def memWord (mop nf : Nat) (f : SvxFields) : Nat := word 0x5B (mop <<< 2 ||| nf) f

/-! ### VP (R457, R458) -/

/-- A predicate number in a five-bit field: its high bits are 0. -/
def predOk (x : BitVec 5) : Bool := decide (x.toNat < 8)

/-- The bits of a predicate result for the first n elements. -/
def predOf (n : Nat) (g : Nat → Bool) : PReg := packP ((List.range n).map g)

/-- Integer comparisons: 0 equal, 1 signed, 2 unsigned less. -/
def cmpInt (k : Nat) (f : SvxFields) (c : HostCore) : Option HostCore :=
  if !predOk f.d then none
  else
    let s := bits f.sz.toNat
    let p := c.preg f.q.toNat
    some (putP c f.d.toNat (predOf (count s) fun e =>
      let x := elem (c.vreg f.a.toNat) s e
      let y := elem (c.vreg f.b.toNat) s e
      p.getLsbD e && (match k with
        | 0 => x == y
        | 1 => decide (signedOf s x < signedOf s y)
        | _ => decide (x < y))))

/-- Floating-point comparisons: 3 quiet equal, 4 less, 5 less or equal, 6 unordered. -/
def floatCmp (k : Nat) (fs : FloatSpec) (x y : Nat) : Bool × FFlags :=
  match k with
  | 3 => Ieee.eq fs x y
  | 4 => Ieee.lt fs x y
  | 5 => Ieee.le fs x y
  | _ => Ieee.unordered fs x y

def cmpFloat (k : Nat) (f : SvxFields) (c : HostCore) : Option HostCore :=
  match spec f.sz.toNat with
  | none => none
  | some fs =>
    if !predOk f.d then none
    else
      let s := bits f.sz.toNat
      let p := c.preg f.q.toNat
      let rs := (List.range (count s)).map fun e =>
        if p.getLsbD e then floatCmp k fs (elem (c.vreg f.a.toNat) s e) (elem (c.vreg f.b.toNat) s e) else (false, {})
      some ((putP c f.d.toNat (packP (rs.map (·.1)))).accrue (rs.foldl (fun (a : FFlags) r => a.or r.2) {}).code)

def prange (f : SvxFields) (c : HostCore) : Option HostCore :=
  if !predOk f.d || f.q != 0 then none
  else some (putP c f.d.toNat (predOf (count (bits f.sz.toNat)) fun e =>
    decide ((c.reg f.a.toNat).toNat + e < (c.reg f.b.toNat).toNat)))

def plog (f : SvxFields) (c : HostCore) : Option HostCore :=
  if !predOk f.d || !predOk f.a || !predOk f.b || f.q != 0 then none
  else
    let x := c.preg f.a.toNat
    let y := c.preg f.b.toNat
    some (putP c f.d.toNat (match f.sz.toNat with
      | 0 => x &&& y
      | 1 => x ||| y
      | 2 => x ^^^ y
      | _ => x &&& ~~~y))

/-- The elements below V(s) set in both predicates. -/
def both (f : SvxFields) (c : HostCore) : List Nat :=
  (List.range (count (bits f.sz.toNat))).filter fun e => (c.preg f.a.toNat).getLsbD e && (c.preg f.q.toNat).getLsbD e

def pcnt (f : SvxFields) (c : HostCore) : Option HostCore :=
  if !predOk f.a || f.b != 0 then none
  else some (c.setReg f.d.toNat (BitVec.ofNat 64 (both f c).length))

def pfirst (f : SvxFields) (c : HostCore) : Option HostCore :=
  if !predOk f.a || f.b != 0 then none
  else some (c.setReg f.d.toNat (match (both f c).head? with
    | some e => BitVec.ofNat 64 e
    | none => BitVec.allOnes 64))

/-- PTOX and XTOP use b for the half k alone. -/
def halfOk (f : SvxFields) : Bool := decide (f.b.toNat < 2) && f.q == 0 && f.sz == 0

def ptox (f : SvxFields) (c : HostCore) : Option HostCore :=
  if !predOk f.a || !halfOk f then none
  else some (c.setReg f.d.toNat (BitVec.ofNat 64 (bitsAt (c.preg f.a.toNat).toNat (64 * f.b.toNat) 64)))

def xtop (f : SvxFields) (c : HostCore) : Option HostCore :=
  if !predOk f.d || !halfOk f then none
  else
    let old := (c.preg f.d.toNat).toNat
    let x := (c.reg f.a.toNat).toNat
    some (putP c f.d.toNat (BitVec.ofNat 128
      (if f.b = 0 then bitsAt old 64 64 <<< 64 ||| x else x <<< 64 ||| bitsAt old 0 64)))

def splat (f : SvxFields) (c : HostCore) : Option HostCore :=
  if f.b != 0 then none
  else
    let s := bits f.sz.toNat
    some (mapElems c f.q.toNat f.d.toNat s fun _ => ((c.reg f.a.toNat).toNat % 2 ^ s, {}))

def fsplat (f : SvxFields) (c : HostCore) : Option HostCore :=
  if f.b != 0 || f.sz == 0 then none
  else
    let s := bits f.sz.toNat
    some (mapElems c f.q.toNat f.d.toNat s fun _ => (elem (c.vreg f.a.toNat) s 0, {}))

def extr (f : SvxFields) (c : HostCore) : Option HostCore :=
  if f.q != 0 then none
  else
    let s := bits f.sz.toNat
    let i := (c.reg f.b.toNat).toNat
    some (c.setReg f.d.toNat
      (if i < count s then BitVec.ofInt 64 (signedOf s (elem (c.vreg f.a.toNat) s i)) else 0))

/-- INSR writes one element; an index outside the register has no effect (R457). DESIGN CHOICE, log 122. -/
def insr (f : SvxFields) (c : HostCore) : Option HostCore :=
  if f.q != 0 then none
  else
    let s := bits f.sz.toNat
    let i := (c.reg f.b.toNat).toNat
    if count s ≤ i then some c
    else
      some (putV c f.d.toNat (pack s ((List.range (count s)).map fun e =>
        if e = i then (c.reg f.a.toNat).toNat else elem (c.vreg f.d.toNat) s e)))

def idx (f : SvxFields) (c : HostCore) : Option HostCore :=
  if f.a != 0 || f.b != 0 then none
  else some (mapElems c f.q.toNat f.d.toNat (bits f.sz.toNat) fun e => (e, {}))

/-- The active elements of y_a at size s, ascending. -/
def active (f : SvxFields) (s : Nat) (c : HostCore) : List Nat :=
  ((List.range (count s)).filter fun e => (c.preg f.q.toNat).getLsbD e).map fun e => elem (c.vreg f.a.toNat) s e

def addv (f : SvxFields) (c : HostCore) : Option HostCore :=
  if f.b != 0 then none
  else
    let s := bits f.sz.toNat
    some (c.setReg f.d.toNat (BitVec.ofInt 64 ((active f s c).map (signedOf s)).sum))

/-- FADDV, FMAXV, FMINV: a scalar write of f_d, which `mstatus.FS` governs (R446, R449). DESIGN CHOICE, log 122. -/
def freduce (g : FloatSpec → Option RMode → Nat → Nat → Option FOut) (f : SvxFields) (c : HostCore) : Option HostCore :=
  match spec f.sz.toNat with
  | none => none
  | some fs =>
    let s := bits f.sz.toNat
    if f.b != 0 || !c.fpOn || (g fs (modeOf c) 0 0).isNone then none
    else
      let (t, fl) := (active f s c).foldl (fun (acc : Nat × FFlags) x =>
        let r := (g fs (modeOf c) acc.1 x).getD (acc.1, {})
        (r.1, acc.2.or r.2)) (elem (c.vreg f.d.toNat) s 0, {})
      let boxed := if s = 64 then t else (2 ^ (64 - s) - 1) <<< s ||| t
      some ((c.setFreg f.d.toNat (BitVec.ofNat 64 boxed)).accrue fl.code)

/-- Conversions to a wider format: source size, formats. -/
def widen (h : Bool) (s : Nat) (src dst : FloatSpec) (m : RMode) (f : SvxFields) (c : HostCore) : HostCore :=
  mapElems c f.q.toNat f.d.toNat (2 * s) fun e => Ieee.cvt src dst m (elem (c.vreg f.a.toNat) s (wide h s e))

/-- Conversions to a narrower format: one half of y_d is written; bit e of the predicate governs destination element e. -/
def narrow (h : Bool) (s : Nat) (src dst : FloatSpec) (m : RMode) (f : SvxFields) (c : HostCore) : HostCore :=
  let n := count s
  let p := c.preg f.q.toNat
  let lo := if h then n else 0
  let old := c.vreg f.d.toNat
  let rs := (List.range (count (s / 2))).map fun e =>
    if decide (lo ≤ e) && decide (e < lo + n) && p.getLsbD e then Ieee.cvt src dst m (elem (c.vreg f.a.toNat) s (e - lo))
    else (elem old (s / 2) e, {})
  (putV c f.d.toNat (pack (s / 2) (rs.map (·.1)))).accrue (rs.foldl (fun (a : FFlags) r => a.or r.2) {}).code

/-- Conversions between integers and floating point of one size: to float, signed. -/
def sameSize (toFloat signed : Bool) (f : SvxFields) (c : HostCore) : Option HostCore :=
  match spec f.sz.toNat, modeOf c with
  | some fs, some m =>
    let s := bits f.sz.toNat
    some (mapElems c f.q.toNat f.d.toNat s fun e =>
      let x := elem (c.vreg f.a.toNat) s e
      if toFloat then Ieee.ofInt fs m (if signed then signedOf s x else (x : Int)) else Ieee.toInt fs m signed s x)
  | _, _ => none

def fcvt (f : SvxFields) (c : HostCore) : Option HostCore :=
  let h := f.b.getLsbD 0
  if f.b.toNat < 12 ∧ f.sz ≠ 0 then none
  else
    match f.b.toNat, modeOf c with
    | 0, some m | 1, some m => some (widen h 16 Ieee.f16 f32 m f c)
    | 2, some m | 3, some m => some (widen h 32 f32 f64 m f c)
    | 4, some m | 5, some m => some (narrow h 64 f64 f32 m f c)
    | 6, some m | 7, some m => some (narrow h 32 f32 Ieee.f16 m f c)
    | 8, some m | 9, some m => some (widen h 16 Ieee.bf16 f32 m f c)
    | 10, some m | 11, some m => some (narrow h 32 f32 Ieee.bf16 m f c)
    | 12, _ => sameSize true true f c
    | 13, _ => sameSize false true f c
    | 14, _ => sameSize true false f c
    | 15, _ => sameSize false false f c
    | _, _ => none

/-! ### One meaning per function code -/

/-- The operation of a VA function code (R453). -/
def va (k : Nat) : SvxFields → HostCore → Option HostCore :=
  if k = 0x1A then sel else if k < 0x10 then vaInt k else vaFloat k

/-- The operation of a VR function code (R454). -/
def vr (k : Nat) (f : SvxFields) (c : HostCore) : Option HostCore :=
  match k with
  | 0x00 => fma false f c
  | 0x01 => fma true f c
  | 0x04 => ima f c
  | 0x08 => fwide false false f c
  | 0x09 => fwide false true f c
  | 0x0A => fwide true false f c
  | 0x0B => fwide true true f c
  | 0x0C => iwide false false f c
  | 0x0D => iwide false true f c
  | 0x0E => iwide true false f c
  | 0x0F => iwide true true f c
  | 0x10 => fdot f c
  | 0x11 => idot true f c
  | 0x12 => idot false f c
  | _ => none

/-- The operation of a VP function code (R457). -/
def vp (k : Nat) (f : SvxFields) (c : HostCore) : Option HostCore :=
  match k with
  | 0x00 => cmpInt 0 f c
  | 0x01 => cmpInt 1 f c
  | 0x02 => cmpInt 2 f c
  | 0x03 => cmpFloat 3 f c
  | 0x04 => cmpFloat 4 f c
  | 0x05 => cmpFloat 5 f c
  | 0x06 => cmpFloat 6 f c
  | 0x08 => prange f c
  | 0x09 => plog f c
  | 0x0A => pcnt f c
  | 0x0B => pfirst f c
  | 0x0C => ptox f c
  | 0x0D => xtop f c
  | 0x10 => splat f c
  | 0x11 => fsplat f c
  | 0x12 => extr f c
  | 0x13 => insr f c
  | 0x14 => idx f c
  | 0x15 => addv f c
  | 0x16 => freduce (floatOp 0x10) f c
  | 0x17 => freduce (floatOp 0x15) f c
  | 0x18 => freduce (floatOp 0x14) f c
  | 0x19 => fcvt f c
  | _ => none

def runVa (hc : Fin 32) (k : Nat) (f : SvxFields) (s : State) : State :=
  s.runInstr hc true 4 (op hc (word 0x0B k f) (va k f))

def runVr (hc : Fin 32) (k : Nat) (f : SvxFields) (s : State) : State :=
  s.runInstr hc true 4 (op hc (word 0x2B k f) (vr k f))

def runVm (hc : Fin 32) (mop : Nat) (nf : BitVec 2) (f : SvxFields) (s : State) : State :=
  s.runInstr hc true 4 (mem hc mop nf.toNat f (memWord mop nf.toNat f))

def runVp (hc : Fin 32) (k : Nat) (f : SvxFields) (s : State) : State :=
  s.runInstr hc true 4 (op hc (word 0x7B k f) (vp k f))

/-- The fields of a word. -/
def fieldsOf (w : Nat) : SvxFields :=
  ⟨BitVec.ofNat 2 (bitsAt w 25 2), BitVec.ofNat 5 (bitsAt w 20 5), BitVec.ofNat 5 (bitsAt w 15 5),
    BitVec.ofNat 3 (bitsAt w 12 3), BitVec.ofNat 5 (bitsAt w 7 5)⟩

/-- An SVX word within the scalar decoder. -/
def ofWord (hc : Fin 32) (w : Nat) (s : State) : IRes :=
  let f := fieldsOf w
  let k := bitsAt w 27 5
  match w % 128 with
  | 0x0B => op hc w (va k f) s
  | 0x2B => op hc w (vr k f) s
  | 0x5B => mem hc (bitsAt w 29 3) (bitsAt w 27 2) f w s
  | _ => op hc w (vp k f) s

end Svx

/-- SCALAR_INSTRUCTION: a core executes the word that it has fetched (R425, R428). DESIGN CHOICE, log 110. -/
def execScalarInstruction (n : Fin 32) (w : W32) (s : State) : Host.Outcome State Fault Refusal :=
  .next (s.runInstr n (Scalar.isSvx w.toNat) (Scalar.length w.toNat) (Scalar.run Svx.ofWord n w.toNat))

def execSvxAdd (n : Fin 32) (f : SvxFields) (s : State) : Host.Outcome State Fault Refusal := .next (Svx.runVa n 0x00 f s)

def execSvxSub (n : Fin 32) (f : SvxFields) (s : State) : Host.Outcome State Fault Refusal := .next (Svx.runVa n 0x01 f s)

def execSvxMul (n : Fin 32) (f : SvxFields) (s : State) : Host.Outcome State Fault Refusal := .next (Svx.runVa n 0x02 f s)

def execSvxMin (n : Fin 32) (f : SvxFields) (s : State) : Host.Outcome State Fault Refusal := .next (Svx.runVa n 0x03 f s)

def execSvxMax (n : Fin 32) (f : SvxFields) (s : State) : Host.Outcome State Fault Refusal := .next (Svx.runVa n 0x04 f s)

def execSvxAnd (n : Fin 32) (f : SvxFields) (s : State) : Host.Outcome State Fault Refusal := .next (Svx.runVa n 0x05 f s)

def execSvxOr (n : Fin 32) (f : SvxFields) (s : State) : Host.Outcome State Fault Refusal := .next (Svx.runVa n 0x06 f s)

def execSvxXor (n : Fin 32) (f : SvxFields) (s : State) : Host.Outcome State Fault Refusal := .next (Svx.runVa n 0x07 f s)

def execSvxSll (n : Fin 32) (f : SvxFields) (s : State) : Host.Outcome State Fault Refusal := .next (Svx.runVa n 0x08 f s)

def execSvxSrl (n : Fin 32) (f : SvxFields) (s : State) : Host.Outcome State Fault Refusal := .next (Svx.runVa n 0x09 f s)

def execSvxSra (n : Fin 32) (f : SvxFields) (s : State) : Host.Outcome State Fault Refusal := .next (Svx.runVa n 0x0A f s)

def execSvxMinu (n : Fin 32) (f : SvxFields) (s : State) : Host.Outcome State Fault Refusal := .next (Svx.runVa n 0x0B f s)

def execSvxMaxu (n : Fin 32) (f : SvxFields) (s : State) : Host.Outcome State Fault Refusal := .next (Svx.runVa n 0x0C f s)

def execSvxFadd (n : Fin 32) (f : SvxFields) (s : State) : Host.Outcome State Fault Refusal := .next (Svx.runVa n 0x10 f s)

def execSvxFsub (n : Fin 32) (f : SvxFields) (s : State) : Host.Outcome State Fault Refusal := .next (Svx.runVa n 0x11 f s)

def execSvxFmul (n : Fin 32) (f : SvxFields) (s : State) : Host.Outcome State Fault Refusal := .next (Svx.runVa n 0x12 f s)

def execSvxFdiv (n : Fin 32) (f : SvxFields) (s : State) : Host.Outcome State Fault Refusal := .next (Svx.runVa n 0x13 f s)

def execSvxFmin (n : Fin 32) (f : SvxFields) (s : State) : Host.Outcome State Fault Refusal := .next (Svx.runVa n 0x14 f s)

def execSvxFmax (n : Fin 32) (f : SvxFields) (s : State) : Host.Outcome State Fault Refusal := .next (Svx.runVa n 0x15 f s)

def execSvxFsqrt (n : Fin 32) (f : SvxFields) (s : State) : Host.Outcome State Fault Refusal := .next (Svx.runVa n 0x16 f s)

def execSvxFsgnj (n : Fin 32) (f : SvxFields) (s : State) : Host.Outcome State Fault Refusal := .next (Svx.runVa n 0x17 f s)

def execSvxFsgnjn (n : Fin 32) (f : SvxFields) (s : State) : Host.Outcome State Fault Refusal := .next (Svx.runVa n 0x18 f s)

def execSvxFsgnjx (n : Fin 32) (f : SvxFields) (s : State) : Host.Outcome State Fault Refusal := .next (Svx.runVa n 0x19 f s)

def execSvxSel (n : Fin 32) (f : SvxFields) (s : State) : Host.Outcome State Fault Refusal := .next (Svx.runVa n 0x1A f s)

def execSvxFma (n : Fin 32) (f : SvxFields) (s : State) : Host.Outcome State Fault Refusal := .next (Svx.runVr n 0x00 f s)

def execSvxFnma (n : Fin 32) (f : SvxFields) (s : State) : Host.Outcome State Fault Refusal := .next (Svx.runVr n 0x01 f s)

def execSvxIma (n : Fin 32) (f : SvxFields) (s : State) : Host.Outcome State Fault Refusal := .next (Svx.runVr n 0x04 f s)

def execSvxFdot (n : Fin 32) (f : SvxFields) (s : State) : Host.Outcome State Fault Refusal := .next (Svx.runVr n 0x10 f s)

def execSvxIdot (n : Fin 32) (f : SvxFields) (s : State) : Host.Outcome State Fault Refusal := .next (Svx.runVr n 0x11 f s)

def execSvxIdotu (n : Fin 32) (f : SvxFields) (s : State) : Host.Outcome State Fault Refusal := .next (Svx.runVr n 0x12 f s)

def execSvxFwmul (n : Fin 32) (h : Bool) (f : SvxFields) (s : State) : Host.Outcome State Fault Refusal :=
  .next (Svx.runVr n (if h then 0x09 else 0x08) f s)

def execSvxFwma (n : Fin 32) (h : Bool) (f : SvxFields) (s : State) : Host.Outcome State Fault Refusal :=
  .next (Svx.runVr n (if h then 0x0B else 0x0A) f s)

def execSvxIwmul (n : Fin 32) (h : Bool) (f : SvxFields) (s : State) : Host.Outcome State Fault Refusal :=
  .next (Svx.runVr n (if h then 0x0D else 0x0C) f s)

def execSvxIwma (n : Fin 32) (h : Bool) (f : SvxFields) (s : State) : Host.Outcome State Fault Refusal :=
  .next (Svx.runVr n (if h then 0x0F else 0x0E) f s)

def execSvxVld (n : Fin 32) (nf : BitVec 2) (f : SvxFields) (s : State) : Host.Outcome State Fault Refusal := .next (Svx.runVm n 0 nf f s)

def execSvxVlds (n : Fin 32) (nf : BitVec 2) (f : SvxFields) (s : State) : Host.Outcome State Fault Refusal := .next (Svx.runVm n 1 nf f s)

def execSvxVldx (n : Fin 32) (nf : BitVec 2) (f : SvxFields) (s : State) : Host.Outcome State Fault Refusal := .next (Svx.runVm n 2 nf f s)

def execSvxVldr (n : Fin 32) (nf : BitVec 2) (f : SvxFields) (s : State) : Host.Outcome State Fault Refusal := .next (Svx.runVm n 3 nf f s)

def execSvxVst (n : Fin 32) (nf : BitVec 2) (f : SvxFields) (s : State) : Host.Outcome State Fault Refusal := .next (Svx.runVm n 4 nf f s)

def execSvxVsts (n : Fin 32) (nf : BitVec 2) (f : SvxFields) (s : State) : Host.Outcome State Fault Refusal := .next (Svx.runVm n 5 nf f s)

def execSvxVstx (n : Fin 32) (nf : BitVec 2) (f : SvxFields) (s : State) : Host.Outcome State Fault Refusal := .next (Svx.runVm n 6 nf f s)

def execSvxCmpeq (n : Fin 32) (f : SvxFields) (s : State) : Host.Outcome State Fault Refusal := .next (Svx.runVp n 0x00 f s)

def execSvxCmplt (n : Fin 32) (f : SvxFields) (s : State) : Host.Outcome State Fault Refusal := .next (Svx.runVp n 0x01 f s)

def execSvxCmpltu (n : Fin 32) (f : SvxFields) (s : State) : Host.Outcome State Fault Refusal := .next (Svx.runVp n 0x02 f s)

def execSvxFcmpeq (n : Fin 32) (f : SvxFields) (s : State) : Host.Outcome State Fault Refusal := .next (Svx.runVp n 0x03 f s)

def execSvxFcmplt (n : Fin 32) (f : SvxFields) (s : State) : Host.Outcome State Fault Refusal := .next (Svx.runVp n 0x04 f s)

def execSvxFcmple (n : Fin 32) (f : SvxFields) (s : State) : Host.Outcome State Fault Refusal := .next (Svx.runVp n 0x05 f s)

def execSvxFcmpun (n : Fin 32) (f : SvxFields) (s : State) : Host.Outcome State Fault Refusal := .next (Svx.runVp n 0x06 f s)

def execSvxPrange (n : Fin 32) (f : SvxFields) (s : State) : Host.Outcome State Fault Refusal := .next (Svx.runVp n 0x08 f s)

def execSvxPlog (n : Fin 32) (f : SvxFields) (s : State) : Host.Outcome State Fault Refusal := .next (Svx.runVp n 0x09 f s)

def execSvxPcnt (n : Fin 32) (f : SvxFields) (s : State) : Host.Outcome State Fault Refusal := .next (Svx.runVp n 0x0A f s)

def execSvxPfirst (n : Fin 32) (f : SvxFields) (s : State) : Host.Outcome State Fault Refusal := .next (Svx.runVp n 0x0B f s)

def execSvxPtox (n : Fin 32) (f : SvxFields) (s : State) : Host.Outcome State Fault Refusal := .next (Svx.runVp n 0x0C f s)

def execSvxXtop (n : Fin 32) (f : SvxFields) (s : State) : Host.Outcome State Fault Refusal := .next (Svx.runVp n 0x0D f s)

def execSvxSplat (n : Fin 32) (f : SvxFields) (s : State) : Host.Outcome State Fault Refusal := .next (Svx.runVp n 0x10 f s)

def execSvxFsplat (n : Fin 32) (f : SvxFields) (s : State) : Host.Outcome State Fault Refusal := .next (Svx.runVp n 0x11 f s)

def execSvxExtr (n : Fin 32) (f : SvxFields) (s : State) : Host.Outcome State Fault Refusal := .next (Svx.runVp n 0x12 f s)

def execSvxInsr (n : Fin 32) (f : SvxFields) (s : State) : Host.Outcome State Fault Refusal := .next (Svx.runVp n 0x13 f s)

def execSvxIdx (n : Fin 32) (f : SvxFields) (s : State) : Host.Outcome State Fault Refusal := .next (Svx.runVp n 0x14 f s)

def execSvxAddv (n : Fin 32) (f : SvxFields) (s : State) : Host.Outcome State Fault Refusal := .next (Svx.runVp n 0x15 f s)

def execSvxFaddv (n : Fin 32) (f : SvxFields) (s : State) : Host.Outcome State Fault Refusal := .next (Svx.runVp n 0x16 f s)

def execSvxFmaxv (n : Fin 32) (f : SvxFields) (s : State) : Host.Outcome State Fault Refusal := .next (Svx.runVp n 0x17 f s)

def execSvxFminv (n : Fin 32) (f : SvxFields) (s : State) : Host.Outcome State Fault Refusal := .next (Svx.runVp n 0x18 f s)

def execSvxFcvt (n : Fin 32) (f : SvxFields) (s : State) : Host.Outcome State Fault Refusal := .next (Svx.runVp n 0x19 f s)

end Sys2Proof.Machine
end

