-- ==== Sys2Proof/Machine/Dispatch.lean ====
section
/-! DEFINITION. The meaning of every command: one arm per constructor of `Instr`. -/

namespace Sys2Proof.Machine

def exec (i : Instr) (s : State) : Host.Outcome State Fault Refusal :=
  match i with
  | .nop q => Sys2Proof.Machine.execNop q s
  | .load q => Sys2Proof.Machine.execLoad q s
  | .store q => Sys2Proof.Machine.execStore q s
  | .copy q => Sys2Proof.Machine.execCopy q s
  | .convert q => Sys2Proof.Machine.execConvert q s
  | .fill q => Sys2Proof.Machine.execFill q s
  | .gather q => Sys2Proof.Machine.execGather q s
  | .scatter q => Sys2Proof.Machine.execScatter q s
  | .rng q => Sys2Proof.Machine.execRng q s
  | .gemm q => Sys2Proof.Machine.execGemm q s
  | .bgemm q => Sys2Proof.Machine.execBgemm q s
  | .bwd2 q => Sys2Proof.Machine.execBwd2 q s
  | .ewise q => Sys2Proof.Machine.execEwise q s
  | .stencil q => Sys2Proof.Machine.execStencil q s
  | .reduce q => Sys2Proof.Machine.execReduce q s
  | .argred q => Sys2Proof.Machine.execArgred q s
  | .norm q => Sys2Proof.Machine.execNorm q s
  | .normb q => Sys2Proof.Machine.execNormb q s
  | .smax q => Sys2Proof.Machine.execSmax q s
  | .smaxb q => Sys2Proof.Machine.execSmaxb q s
  | .scal q => Sys2Proof.Machine.execScal q s
  | .br q => Sys2Proof.Machine.execBr q s
  | .lap q => Sys2Proof.Machine.execLap q s
  | .endlap q => Sys2Proof.Machine.execEndlap q s
  | .wait q => Sys2Proof.Machine.execWait q s
  | .signalAdd q => Sys2Proof.Machine.execSignalAdd q s
  | .signalPost q => Sys2Proof.Machine.execSignalPost q s
  | .hurdleLocal q => Sys2Proof.Machine.execHurdleLocal q s
  | .hurdleGroup q => Sys2Proof.Machine.execHurdleGroup q s
  | .trig q => Sys2Proof.Machine.execTrig q s
  | .phase q => Sys2Proof.Machine.execPhase q s
  | .stash q => Sys2Proof.Machine.execStash q s
  | .unstash q => Sys2Proof.Machine.execUnstash q s
  | .ckpt q => Sys2Proof.Machine.execCkpt q s
  | .commit q => Sys2Proof.Machine.execCommit q s
  | .tag q => Sys2Proof.Machine.execTag q s
  | .fence q => Sys2Proof.Machine.execFence q s
  | .halt q => Sys2Proof.Machine.execHalt q s
  | .commitClose job => Sys2Proof.Machine.execCommitClose job s
  | .waitSatisfied q => Sys2Proof.Machine.execWaitSatisfied q s
  | .fenceRelease q => Sys2Proof.Machine.execFenceRelease q s
  | .cqSlotFree q => Sys2Proof.Machine.execCqSlotFree q s
  | .messageSlotFree q => Sys2Proof.Machine.execMessageSlotFree q s
  | .breakFires q => Sys2Proof.Machine.execBreakFires q s
  | .doorbell q v => Sys2Proof.Machine.execDoorbell q v s
  | .sessionClose m => Sys2Proof.Machine.execSessionClose m s
  | .ownerAdd m => Sys2Proof.Machine.execOwnerAdd m s
  | .ownerRevoke m => Sys2Proof.Machine.execOwnerRevoke m s
  | .regionAdd m => Sys2Proof.Machine.execRegionAdd m s
  | .regionRemove m => Sys2Proof.Machine.execRegionRemove m s
  | .qpConnect m => Sys2Proof.Machine.execQpConnect m s
  | .qpDestroy m => Sys2Proof.Machine.execQpDestroy m s
  | .subscribe m => Sys2Proof.Machine.execSubscribe m s
  | .unsubscribe m => Sys2Proof.Machine.execUnsubscribe m s
  | .netPort m => Sys2Proof.Machine.execNetPort m s
  | .jobCreate m => Sys2Proof.Machine.execJobCreate m s
  | .jobDestroy m => Sys2Proof.Machine.execJobDestroy m s
  | .jobResume m => Sys2Proof.Machine.execJobResume m s
  | .jobSpares m => Sys2Proof.Machine.execJobSpares m s
  | .jobStatus m => Sys2Proof.Machine.execJobStatus m s
  | .queueCreate m => Sys2Proof.Machine.execQueueCreate m s
  | .queueBind m => Sys2Proof.Machine.execQueueBind m s
  | .queueResume m => Sys2Proof.Machine.execQueueResume m s
  | .queueSreg m => Sys2Proof.Machine.execQueueSreg m s
  | .queueDestroy m => Sys2Proof.Machine.execQueueDestroy m s
  | .descLoad m => Sys2Proof.Machine.execDescLoad m s
  | .groupJoin m => Sys2Proof.Machine.execGroupJoin m s
  | .groupLeave m => Sys2Proof.Machine.execGroupLeave m s
  | .ckptPolicy m => Sys2Proof.Machine.execCkptPolicy m s
  | .pairMode m => Sys2Proof.Machine.execPairMode m s
  | .pairDetach m => Sys2Proof.Machine.execPairDetach m s
  | .paceSet m => Sys2Proof.Machine.execPaceSet m s
  | .telemetryRead m => Sys2Proof.Machine.execTelemetryRead m s
  | .telemetryPhotoFinish m => Sys2Proof.Machine.execTelemetryPhotoFinish m s
  | .deviceTune m => Sys2Proof.Machine.execDeviceTune m s
  | .coreAssign m => Sys2Proof.Machine.execCoreAssign m s
  | .fwUpdate m => Sys2Proof.Machine.execFwUpdate m s
  | .attestReport m => Sys2Proof.Machine.execAttestReport m s
  | .debugBreak m => Sys2Proof.Machine.execDebugBreak m s
  | .mailboxDoorbell src m v => Sys2Proof.Machine.execMailboxDoorbell src m v s
  | .starterWatchdogKick limit => Sys2Proof.Machine.execStarterWatchdogKick limit s
  | .starterWatchdog => Sys2Proof.Machine.execStarterWatchdog s
  | .linkEnable p on => Sys2Proof.Machine.execLinkEnable p on s
  | .loopback p on => Sys2Proof.Machine.execLoopback p on s
  | .traceEnable n on => Sys2Proof.Machine.execTraceEnable n on s
  | .alertDrive on => Sys2Proof.Machine.execAlertDrive on s
  | .readClear src addr => Sys2Proof.Machine.execReadClear src addr s
  | .registerWrite src addr data => Sys2Proof.Machine.execRegisterWrite src addr data s
  | .debugAccess heat offset write => Sys2Proof.Machine.execDebugAccess heat offset write s
  | .lineRead src addr err => Sys2Proof.Machine.execLineRead src addr err s
  | .lineWrite src addr data => Sys2Proof.Machine.execLineWrite src addr data s
  | .stackAmo addr op double v => Sys2Proof.Machine.execStackAmo addr op double v s
  | .patrolRead st err => Sys2Proof.Machine.execPatrolRead st err s
  | .refresh st => Sys2Proof.Machine.execRefresh st s
  | .updateInvocation inv => Sys2Proof.Machine.execUpdateInvocation inv s
  | .shadowStream job st => Sys2Proof.Machine.execShadowStream job st s
  | .shadowConfirm job step => Sys2Proof.Machine.execShadowConfirm job step s
  | .localRestore job step => Sys2Proof.Machine.execLocalRestore job step s
  | .flitReceived p f => Sys2Proof.Machine.execFlitReceived p f s
  | .ackTimeout p => Sys2Proof.Machine.execAckTimeout p s
  | .ackReturn p => Sys2Proof.Machine.execAckReturn p s
  | .retrainComplete p => Sys2Proof.Machine.execRetrainComplete p s
  | .retrainTimeout p => Sys2Proof.Machine.execRetrainTimeout p s
  | .laneLockLost p lane => Sys2Proof.Machine.execLaneLockLost p lane s
  | .trainingResend p => Sys2Proof.Machine.execTrainingResend p s
  | .portAbsent p => Sys2Proof.Machine.execPortAbsent p s
  | .portHello p h => Sys2Proof.Machine.execPortHello p h s
  | .linkUp p => Sys2Proof.Machine.execLinkUp p s
  | .reducePacket p k => Sys2Proof.Machine.execReducePacket p k s
  | .putPacket p k => Sys2Proof.Machine.execPutPacket p k s
  | .agreePacket p k => Sys2Proof.Machine.execAgreePacket p k s
  | .arrivePacket p k => Sys2Proof.Machine.execArrivePacket p k s
  | .ctrlPacket p k => Sys2Proof.Machine.execCtrlPacket p k s
  | .topoPacket p k => Sys2Proof.Machine.execTopoPacket p k s
  | .topoSend => Sys2Proof.Machine.execTopoSend s
  | .topoDeclare => Sys2Proof.Machine.execTopoDeclare s
  | .starterPacket p k => Sys2Proof.Machine.execStarterPacket p k s
  | .starterRequestTimeout p => Sys2Proof.Machine.execStarterRequestTimeout p s
  | .beatPacket k => Sys2Proof.Machine.execBeatPacket k s
  | .beatSend => Sys2Proof.Machine.execBeatSend s
  | .heartbeatLoss => Sys2Proof.Machine.execHeartbeatLoss s
  | .shadowPacket k => Sys2Proof.Machine.execShadowPacket k s
  | .digestPacket k => Sys2Proof.Machine.execDigestPacket k s
  | .relayPacket k => Sys2Proof.Machine.execRelayPacket k s
  | .pairctlPacket k => Sys2Proof.Machine.execPairctlPacket k s
  | .pairctlReset k => Sys2Proof.Machine.execPairctlReset k s
  | .pairEpisodeClose => Sys2Proof.Machine.execPairEpisodeClose s
  | .chainEntryStart chain bucket => Sys2Proof.Machine.execChainEntryStart chain bucket s
  | .verdictPass chain => Sys2Proof.Machine.execVerdictPass chain s
  | .chainComplete chain => Sys2Proof.Machine.execChainComplete chain s
  | .judgeCompare j seen => Sys2Proof.Machine.execJudgeCompare j seen s
  | .stall w => Sys2Proof.Machine.execStall w s
  | .faultNotice n => Sys2Proof.Machine.execFaultNotice n s
  | .coordinatorElection job => Sys2Proof.Machine.execCoordinatorElection job s
  | .restorePointAgreed job devices fits => Sys2Proof.Machine.execRestorePointAgreed job devices fits s
  | .pathNotice p job spare => Sys2Proof.Machine.execPathNotice p job spare s
  | .pathClaim p job => Sys2Proof.Machine.execPathClaim p job s
  | .restoreComplete job => Sys2Proof.Machine.execRestoreComplete job s
  | .jobResumed job => Sys2Proof.Machine.execJobResumed job s
  | .channelWatchdog die offer receiver job => Sys2Proof.Machine.execChannelWatchdog die offer receiver job s
  | .hcLockstepDivergence n => Sys2Proof.Machine.execHcLockstepDivergence n s
  | .starterLockstep => Sys2Proof.Machine.execStarterLockstep s
  | .photoDone => Sys2Proof.Machine.execPhotoDone s
  | .svxAdd n f => Sys2Proof.Machine.execSvxAdd n f s
  | .svxSub n f => Sys2Proof.Machine.execSvxSub n f s
  | .svxMul n f => Sys2Proof.Machine.execSvxMul n f s
  | .svxMin n f => Sys2Proof.Machine.execSvxMin n f s
  | .svxMax n f => Sys2Proof.Machine.execSvxMax n f s
  | .svxAnd n f => Sys2Proof.Machine.execSvxAnd n f s
  | .svxOr n f => Sys2Proof.Machine.execSvxOr n f s
  | .svxXor n f => Sys2Proof.Machine.execSvxXor n f s
  | .svxSll n f => Sys2Proof.Machine.execSvxSll n f s
  | .svxSrl n f => Sys2Proof.Machine.execSvxSrl n f s
  | .svxSra n f => Sys2Proof.Machine.execSvxSra n f s
  | .svxMinu n f => Sys2Proof.Machine.execSvxMinu n f s
  | .svxMaxu n f => Sys2Proof.Machine.execSvxMaxu n f s
  | .svxFadd n f => Sys2Proof.Machine.execSvxFadd n f s
  | .svxFsub n f => Sys2Proof.Machine.execSvxFsub n f s
  | .svxFmul n f => Sys2Proof.Machine.execSvxFmul n f s
  | .svxFdiv n f => Sys2Proof.Machine.execSvxFdiv n f s
  | .svxFmin n f => Sys2Proof.Machine.execSvxFmin n f s
  | .svxFmax n f => Sys2Proof.Machine.execSvxFmax n f s
  | .svxFsqrt n f => Sys2Proof.Machine.execSvxFsqrt n f s
  | .svxFsgnj n f => Sys2Proof.Machine.execSvxFsgnj n f s
  | .svxFsgnjn n f => Sys2Proof.Machine.execSvxFsgnjn n f s
  | .svxFsgnjx n f => Sys2Proof.Machine.execSvxFsgnjx n f s
  | .svxSel n f => Sys2Proof.Machine.execSvxSel n f s
  | .svxFma n f => Sys2Proof.Machine.execSvxFma n f s
  | .svxFnma n f => Sys2Proof.Machine.execSvxFnma n f s
  | .svxIma n f => Sys2Proof.Machine.execSvxIma n f s
  | .svxFwmul n h f => Sys2Proof.Machine.execSvxFwmul n h f s
  | .svxFwma n h f => Sys2Proof.Machine.execSvxFwma n h f s
  | .svxIwmul n h f => Sys2Proof.Machine.execSvxIwmul n h f s
  | .svxIwma n h f => Sys2Proof.Machine.execSvxIwma n h f s
  | .svxFdot n f => Sys2Proof.Machine.execSvxFdot n f s
  | .svxIdot n f => Sys2Proof.Machine.execSvxIdot n f s
  | .svxIdotu n f => Sys2Proof.Machine.execSvxIdotu n f s
  | .svxVld n nf f => Sys2Proof.Machine.execSvxVld n nf f s
  | .svxVlds n nf f => Sys2Proof.Machine.execSvxVlds n nf f s
  | .svxVldx n nf f => Sys2Proof.Machine.execSvxVldx n nf f s
  | .svxVldr n nf f => Sys2Proof.Machine.execSvxVldr n nf f s
  | .svxVst n nf f => Sys2Proof.Machine.execSvxVst n nf f s
  | .svxVsts n nf f => Sys2Proof.Machine.execSvxVsts n nf f s
  | .svxVstx n nf f => Sys2Proof.Machine.execSvxVstx n nf f s
  | .svxCmpeq n f => Sys2Proof.Machine.execSvxCmpeq n f s
  | .svxCmplt n f => Sys2Proof.Machine.execSvxCmplt n f s
  | .svxCmpltu n f => Sys2Proof.Machine.execSvxCmpltu n f s
  | .svxFcmpeq n f => Sys2Proof.Machine.execSvxFcmpeq n f s
  | .svxFcmplt n f => Sys2Proof.Machine.execSvxFcmplt n f s
  | .svxFcmple n f => Sys2Proof.Machine.execSvxFcmple n f s
  | .svxFcmpun n f => Sys2Proof.Machine.execSvxFcmpun n f s
  | .svxPrange n f => Sys2Proof.Machine.execSvxPrange n f s
  | .svxPlog n f => Sys2Proof.Machine.execSvxPlog n f s
  | .svxPcnt n f => Sys2Proof.Machine.execSvxPcnt n f s
  | .svxPfirst n f => Sys2Proof.Machine.execSvxPfirst n f s
  | .svxPtox n f => Sys2Proof.Machine.execSvxPtox n f s
  | .svxXtop n f => Sys2Proof.Machine.execSvxXtop n f s
  | .svxSplat n f => Sys2Proof.Machine.execSvxSplat n f s
  | .svxFsplat n f => Sys2Proof.Machine.execSvxFsplat n f s
  | .svxExtr n f => Sys2Proof.Machine.execSvxExtr n f s
  | .svxInsr n f => Sys2Proof.Machine.execSvxInsr n f s
  | .svxIdx n f => Sys2Proof.Machine.execSvxIdx n f s
  | .svxAddv n f => Sys2Proof.Machine.execSvxAddv n f s
  | .svxFaddv n f => Sys2Proof.Machine.execSvxFaddv n f s
  | .svxFmaxv n f => Sys2Proof.Machine.execSvxFmaxv n f s
  | .svxFminv n f => Sys2Proof.Machine.execSvxFminv n f s
  | .svxFcvt n f => Sys2Proof.Machine.execSvxFcvt n f s
  | .cboClean n rs1 => Sys2Proof.Machine.execCboClean n rs1 s
  | .cboFlush n rs1 => Sys2Proof.Machine.execCboFlush n rs1 s
  | .cboZero n rs1 => Sys2Proof.Machine.execCboZero n rs1 s
  | .cboInval n rs1 => Sys2Proof.Machine.execCboInval n rs1 s
  | .hcAmo n op double rd rs1 rs2 => Sys2Proof.Machine.execHcAmo n op double rd rs1 rs2 s
  | .lrSc n sc double rd rs1 rs2 => Sys2Proof.Machine.execLrSc n sc double rd rs1 rs2 s
  | .hcFence n pred succ => Sys2Proof.Machine.execHcFence n pred succ s
  | .timerInterrupt n => Sys2Proof.Machine.execTimerInterrupt n s
  | .pacerWindow count => Sys2Proof.Machine.execPacerWindow count s
  | .internalOscillatorFail => Sys2Proof.Machine.execInternalOscillatorFail s
  | .crystalStartTimeout => Sys2Proof.Machine.execCrystalStartTimeout s
  | .paceSettled => Sys2Proof.Machine.execPaceSettled s
  | .sensorReading r => Sys2Proof.Machine.execSensorReading r s
  | .throttleStep => Sys2Proof.Machine.execThrottleStep s
  | .throttleRelease => Sys2Proof.Machine.execThrottleRelease s
  | .vinRise => Sys2Proof.Machine.execVinRise s
  | .vinFall below => Sys2Proof.Machine.execVinFall below s
  | .resetN asserted => Sys2Proof.Machine.execResetN asserted s
  | .resetRelease straps => Sys2Proof.Machine.execResetRelease straps s
  | .pairPresent asserted => Sys2Proof.Machine.execPairPresent asserted s
  | .alertN asserted => Sys2Proof.Machine.execAlertN asserted s
  | .alertReleaseCheck => Sys2Proof.Machine.execAlertReleaseCheck s
  | .imageCheck ok => Sys2Proof.Machine.execImageCheck ok s
  | .selftestComplete failures => Sys2Proof.Machine.execSelftestComplete failures s
  | .pairingResolved => Sys2Proof.Machine.execPairingResolved s
  | .linksResolved => Sys2Proof.Machine.execLinksResolved s
  | .addressingResolved => Sys2Proof.Machine.execAddressingResolved s
  | .osBoot entry => Sys2Proof.Machine.execOsBoot entry s
  | .ready => Sys2Proof.Machine.execReady s
  | .trialBootTimeout => Sys2Proof.Machine.execTrialBootTimeout s
  | .ethLinkUp e => Sys2Proof.Machine.execEthLinkUp e s
  | .ethLinkDown e => Sys2Proof.Machine.execEthLinkDown e s
  | .arp e target => Sys2Proof.Machine.execArp e target s
  | .neighborDiscovery e target => Sys2Proof.Machine.execNeighborDiscovery e target s
  | .echo e v6 target data => Sys2Proof.Machine.execEcho e v6 target data s
  | .dhcpLease e v4 v6 => Sys2Proof.Machine.execDhcpLease e v4 v6 s
  | .pauseFrame e prio quanta => Sys2Proof.Machine.execPauseFrame e prio quanta s
  | .xon e => Sys2Proof.Machine.execXon e s
  | .send qp imm ce data => Sys2Proof.Machine.execSend qp imm ce data s
  | .rdmaWrite qp rkey va imm ce data => Sys2Proof.Machine.execRdmaWrite qp rkey va imm ce data s
  | .rdmaRead qp rkey va len ce => Sys2Proof.Machine.execRdmaRead qp rkey va len ce s
  | .rdmaAtomic qp => Sys2Proof.Machine.execRdmaAtomic qp s
  | .cnp qp => Sys2Proof.Machine.execCnp qp s
  | .cnpRateRecovery qp => Sys2Proof.Machine.execCnpRateRecovery qp s
  | .suiloHello k => Sys2Proof.Machine.execSuiloHello k s
  | .suiloAuth k => Sys2Proof.Machine.execSuiloAuth k s
  | .suiloMbx k => Sys2Proof.Machine.execSuiloMbx k s
  | .suiloDoorbell k => Sys2Proof.Machine.execSuiloDoorbell k s
  | .suiloAck k => Sys2Proof.Machine.execSuiloAck k s
  | .suiloKeepalive k => Sys2Proof.Machine.execSuiloKeepalive k s
  | .suiloPath k => Sys2Proof.Machine.execSuiloPath k s
  | .suiloClose k => Sys2Proof.Machine.execSuiloClose k s
  | .suiloRetransmit session seq => Sys2Proof.Machine.execSuiloRetransmit session seq s
  | .suiloAckTimer session => Sys2Proof.Machine.execSuiloAckTimer session s
  | .keepaliveTimer session => Sys2Proof.Machine.execKeepaliveTimer session s
  | .sessionIdleTimeout session => Sys2Proof.Machine.execSessionIdleTimeout session s
  | .handshakeTimeout session => Sys2Proof.Machine.execHandshakeTimeout session s
  | .closingTimeout session => Sys2Proof.Machine.execClosingTimeout session s
  | .pathLoss session => Sys2Proof.Machine.execPathLoss session s
  | .pathProbeRetry session => Sys2Proof.Machine.execPathProbeRetry session s
  | .alertStatus write => Sys2Proof.Machine.execAlertStatus write s
  | .alertMask write => Sys2Proof.Machine.execAlertMask write s
  | .smbState => Sys2Proof.Machine.execSmbState s
  | .smbTemp => Sys2Proof.Machine.execSmbTemp s
  | .smbPower => Sys2Proof.Machine.execSmbPower s
  | .smbVin => Sys2Proof.Machine.execSmbVin s
  | .smbSerial => Sys2Proof.Machine.execSmbSerial s
  | .smbSite => Sys2Proof.Machine.execSmbSite s
  | .alertResponseAddress => Sys2Proof.Machine.execAlertResponseAddress s
  | .fruRead offset => Sys2Proof.Machine.execFruRead offset s
  | .tapExtest => Sys2Proof.Machine.execTapExtest s
  | .samplePreload load => Sys2Proof.Machine.execSamplePreload load s
  | .tapIdcode => Sys2Proof.Machine.execTapIdcode s
  | .extestPulse => Sys2Proof.Machine.execExtestPulse s
  | .extestTrain => Sys2Proof.Machine.execExtestTrain s
  | .tapDebug => Sys2Proof.Machine.execTapDebug s
  | .tapBypass code => Sys2Proof.Machine.execTapBypass code s
  | .scalarInstruction n w => Sys2Proof.Machine.execScalarInstruction n w s
  | .backgroundSelfTest heat passed => Sys2Proof.Machine.execBackgroundSelfTest heat passed s
  | .unitSelfTest port unit passed partnerPassed => Sys2Proof.Machine.execUnitSelfTest port unit passed partnerPassed s
  | .laneLock p => Sys2Proof.Machine.execLaneLock p s
  | .fecLock p => Sys2Proof.Machine.execFecLock p s
  | .pwrGood => Sys2Proof.Machine.execPwrGood s
  | .trstN => Sys2Proof.Machine.execTrstN s
  | .rxDrop e why => Sys2Proof.Machine.execRxDrop e why s
  | .suiloBad e why from_ => Sys2Proof.Machine.execSuiloBad e why from_ s

end Sys2Proof.Machine
end

