-- ==== Sys2Proof/Safety.lean ====
section
/-! DEFINITION. What counts as a well-kept state of the block, and the conditions under which a command executes: they speak
of the state and the operands alone. -/

namespace Sys2Proof.Machine

namespace State

/-- The command in hand of a queue: its job runs, the queue is RUNNING with an available command, no debug break fires before
it, and neither its slot nor a descriptor it names lies in a poisoned line (R186, R262, R272). -/
def inHand (s : State) (qid : Nat) : Option Cmd :=
  match s.queue? qid with
  | none => none
  | some q =>
    match s.job? q.job with
    | none => none
    | some j =>
      let w := s.slotAt q q.next
      if queueReady q && s.runsJob j && (breakHit q w.tag).isNone && (s.cmdPoison q j w).isNone then
        some { q := { q with cur := BitVec.ofNat 32 w }, job := j, slot := w, pos := q.next }
      else none

/-- The state in which a command in hand is decoded: its queue holds its first word, and the reads
of its slot and descriptors have recalled dirty blocks. -/
def deciding (s : State) (c : Cmd) : State := (s.fetched c.q c.job c.slot).setQueue c.q

/-- A command of a queue completes with OK (R203): the queue goes on at `next`, with the counts of its record. -/
def doneAt (s : State) (q : CmdQueue) (next : W64) (a b : Nat) : State :=
  s.finish q { status := .ok, next := next, countA := a, countB := b }

/-- The command in hand has completed with OK: its queue stands past it and has counted it, or holds its completion until the
completion queue has room (R203, R205). -/
def completed (t : State) (c : Cmd) : Prop :=
  ∃ q : CmdQueue, t.queue? c.q.id = some q ∧
    ((q.pos = c.q.pos + 1 ∧ q.next = c.q.pos + 1 ∧ q.count = c.q.count + 1 ∧ q.status = 0) ∨
      (q.state = .waitCq ∧ q.pos = c.q.pos ∧ q.next = c.q.pos + 1 ∧
        ∃ d, q.wait = .cq d ∧ d.status = .ok ∧ d.next = c.q.pos + 1))

/-- Bytes of a ring with its header. -/
def inRing (r : RingQ) (a : Nat) : Prop := r.base ≤ a ∧ a < r.base + ringLen r.kind r.slots

/-- The mailbox's request is one of this row, and no check refuses it (R467, R470 to R472). -/
def accepts (s : State) (g : Gate) (m : Fin 64) (len : Nat) (fails : List Deny) : Prop :=
  (s.mbox m.val).busy = true ∧ s.starter.stopped = false ∧ s.reqCode m.val = g.code ∧ s.refuses g m.val len fails = none

/-- The response in a mailbox: its area is free again and RESULT holds the status (R467). -/
def answered (t : State) (m : Fin 64) (st : Status) : Prop :=
  (t.mbox m.val).busy = false ∧ (t.mbox m.val).result = st.code

/-- A core as it starts an instruction. -/
def awake (s : State) (n : Fin 32) : State := s.setCore n.val { s.core n.val with state := .running }

/-- A core executes its next instruction of `len` bytes: it runs or waits for an interrupt, none is taken, and the fetch
succeeds. -/
def executes (s : State) (n : Fin 32) (len : Nat) : Prop :=
  ((s.core n.val).state = .running ∨ (s.core n.val).state = .wfi) ∧ (s.awake n).nextIrq n.val = none ∧
    (s.awake n).fetchFails n len = none

/-- The registers of a core are all there (R425, R445). -/
def coreShaped (s : State) (n : Fin 32) : Prop :=
  n.val < s.cores.length ∧ (s.core n.val).x.length = 32 ∧ (s.core n.val).y.length = 32 ∧ (s.core n.val).q.length = 8

/-- A core executes its next SVX instruction: SVX is not Off and `svxstart` is 0 (R449, R450). -/
def svxReady (s : State) (n : Fin 32) : Prop :=
  s.executes n 4 ∧ s.coreShaped n ∧ (s.core n.val).svxOn = true ∧ (s.core n.val).csr.svxstart = 0

/-- Only core `n` and the free values drawn moved on: of its control and status registers the counters, the floating-point and
SVX state and `mstatus` may differ. -/
def coreMoves (s t : State) (n : Fin 32) : Prop :=
  t = { s with cores := t.cores, free := t.free } ∧ (∀ k, k ≠ n.val → t.core k = s.core k) ∧
    (t.core n.val).mode = (s.core n.val).mode ∧ (t.core n.val).state = .running ∧
    (t.core n.val).csr = { (s.core n.val).csr with
      cycle := (t.core n.val).csr.cycle, instret := (t.core n.val).csr.instret, hpm := (t.core n.val).csr.hpm
      fcsr := (t.core n.val).csr.fcsr, svxcsr := (t.core n.val).csr.svxcsr, mstatus := (t.core n.val).csr.mstatus }

/-- The same, past an instruction of `len` bytes. -/
def coreSteps (s t : State) (n : Fin 32) (len : Nat) : Prop :=
  s.coreMoves t n ∧ (t.core n.val).pc = (s.core n.val).pc + BitVec.ofNat 64 len

/-- Floating-point and privilege state as before. -/
def sameFloat (s t : State) (n : Fin 32) : Prop :=
  (t.core n.val).csr.fcsr = (s.core n.val).csr.fcsr ∧ (t.core n.val).csr.mstatus = (s.core n.val).csr.mstatus

/-- Element e of y_i at size w. -/
def yElem (s : State) (n : Fin 32) (i : BitVec 5) (w e : Nat) : Nat := Svx.elem ((s.core n.val).vreg i.toNat) w e

/-- Bit e of the predicate that governs an instruction. -/
def on (s : State) (n : Fin 32) (f : SvxFields) (e : Nat) : Bool := ((s.core n.val).preg f.q.toNat).getLsbD e

/-- Only y_d was written: its active elements hold what `g` gives, the others what they held, and SVX is Dirty (R448, R449). -/
def writesVector (s t : State) (n : Fin 32) (f : SvxFields) (w : Nat) (g : Nat → Nat) : Prop :=
  s.coreSteps t n 4 ∧ (t.core n.val).x = (s.core n.val).x ∧ (t.core n.val).q = (s.core n.val).q ∧
    (∀ i, i ≠ f.d.toNat → (t.core n.val).vreg i = (s.core n.val).vreg i) ∧ (t.core n.val).csr.svxcsr = 3 ∧
    ∀ e, e < 1024 / w → t.yElem n f.d w e = if s.on n f e then g e % 2 ^ w else s.yElem n f.d w e

/-- `fflags` gained the flags of the elements below `v` that are active (R451); the rounding mode is as before. -/
def accrues (s t : State) (n : Fin 32) (v : Nat) (act : Nat → Bool) (fl : Nat → FFlags) : Prop :=
  ∀ i, i < 8 → (t.core n.val).csr.fcsr.getLsbD i =
    ((s.core n.val).csr.fcsr.getLsbD i || (List.range v).any fun e => act e && (fl e).code.testBit i)

/-- Only the predicate d was written, with bits below `v` alone set; q0 reads all ones whatever is written (R445, R447). -/
def writesPredicate (s t : State) (n : Fin 32) (d : BitVec 5) (v : Nat) (g : Nat → Bool) : Prop :=
  s.coreSteps t n 4 ∧ (t.core n.val).x = (s.core n.val).x ∧ (t.core n.val).y = (s.core n.val).y ∧
    (∀ i, i ≠ d.toNat → (t.core n.val).preg i = (s.core n.val).preg i) ∧ (t.core n.val).csr.svxcsr = 3 ∧
    ∀ e, e < 128 → ((t.core n.val).preg d.toNat).getLsbD e = (decide (d = 0) || (decide (e < v) && g e))

/-- Only the integer register d was written; x0 discards it. -/
def writesInteger (s t : State) (n : Fin 32) (len : Nat) (d : BitVec 5) (v : W64) : Prop :=
  s.coreSteps t n len ∧ s.sameFloat t n ∧ (t.core n.val).csr.svxcsr = (s.core n.val).csr.svxcsr ∧
    (t.core n.val).y = (s.core n.val).y ∧ (t.core n.val).q = (s.core n.val).q ∧
    ∀ i, (t.core n.val).reg i = if i = d.toNat ∧ i ≠ 0 then v else (s.core n.val).reg i

/-- The address of field g of element e of an SVX access, by its mop (R455). -/
def svxAt (s : State) (n : Fin 32) (mop nf : Nat) (f : SvxFields) (e g : Nat) : Nat :=
  (Svx.addr (s.core n.val) mop nf f e g).toNat

end State

/-- The memory of a state keeps its canonical form. -/
def State.memOk (s : State) : Prop := s.mem.wf = true

/-- The register files of a core are whole: 32 integer and 32 vector registers, 8 predicates (R425, R445). -/
def HostCore.whole (c : HostCore) : Prop := c.x.length = 32 ∧ c.y.length = 32 ∧ c.q.length = 8

/-- The block is whole: its memory is in canonical form, and every unit that the spec counts is there: 8 stacks, 7 ports, 8 Ethernet
ports, 32 host cores with their registers, 64 mailboxes, 3 Judges, 2 Tracks and the counters of 100 heats. -/
def State.kept (s : State) : Prop :=
  s.mem.wf = true ∧ s.edern.length = 8 ∧ s.ports.length = 7 ∧ s.eth.length = 8 ∧ s.cores.length = 32 ∧
    s.mailboxes.length = 64 ∧ s.judges.length = 3 ∧ s.tracks.length = 2 ∧ s.heats.length = 100 ∧ ∀ c ∈ s.cores, c.whole

end Sys2Proof.Machine
end

