-- ==== Sys2Proof/Certificates/Slice0/Obligations.lean ====
section
/-! DEFINITION. The statements about the block, one per obligation. -/

open Sys2Proof Sys2Proof.Machine

/-! ### The block's step -/

/-- A step takes the command at the front of the queue and is that command's meaning on the rest.

With no command waiting the block idles: outside reset the timer counts one cycle (R527), and memory, jobs, queues and
cores stay; in reset nothing changes. That an idle step is one cycle is the model's choice (log 8). -/
def Obligations.StepIdlesOrRunsTheFrontCommand : Prop :=
  (
  ∀ (s : State) (c : Instr) (rest : List Instr), s.pending = c :: rest → step s = exec c { s with pending := rest }) ∧
  (
  ∀ s : State, s.pending = [] →
    ∃ t, step s = .next t ∧
      (s.power.held = true → t = s) ∧
      (s.power.held = false → t.now = s.now + 1) ∧
      t.mem = s.mem ∧ t.jobs = s.jobs ∧ t.queues = s.queues ∧ t.cores = s.cores ∧ t.pending = [])

/-! ### Macro-ops (R185 to R262) -/

/-- LOAD, STORE, COPY, CONVERT, FILL, GATHER, SCATTER, RNG, GEMM, BGEMM, BWD2, EWISE, STENCIL, REDUCE, ARGRED, NORM, NORMB,
SMAX, SMAXB, STASH and UNSTASH: where the command is in hand, no decode check fails (R201) and the body ends without a
start failure or a fault, the row answers the state of the body with the command completed: the queue at the next position,
one more command counted, and the record of R204.

The same macro-ops on conditions of the state and the command alone: in hand, its decode checks passed, no line poisoned, and for GEMM
and BGEMM with CLAMP a low bound not above the high one (R122), for NORM and NORMB a positive finite epsilon (R146), for STASH a share
with a free entry and room or a recomputable tensor (R157), for UNSTASH a matching entry (R158). Then the command completes, its queue
stands past it, other queues keep their state, its scalar registers keep theirs but for the results of REDUCE, ARGRED and UNSTASH, and of
memory only the destination's elements, a stash's share and header table, and the queue's rings may change. -/
def Obligations.TensorMacroOps : Prop :=
  (
  ∀ r ∈ ([(.load, .load, loadChecks, loadBody), (.store, .store, storeChecks, copyBody true []),
      (.copy, .copy, moveChecks true, copyBody true []), (.convert, .convert, moveChecks false, copyBody false []),
      (.fill, .fill, fillChecks, fillBody), (.gather, .gather, gatherChecks, gatherBody),
      (.scatter, .scatter, scatterChecks, scatterBody), (.rng, .rng, rngChecks, rngBody),
      (.gemm, .gemm, Gemm.checks (· == 2), Gemm.body),
      (.bgemm, .bgemm, Gemm.checks fun k => decide (3 ≤ k) && decide (k ≤ 6), Gemm.body),
      (.bwd2, .bwd2, Bwd.checks, Bwd.body), (.ewise, .ewise, Ew.checks false, Ew.body),
      (.stencil, .stencil, Ew.checks true, Ew.body), (.reduce, .reduce, Reduce.checks, Reduce.body),
      (.argred, .argred, Argred.checks, Argred.body), (.norm, .norm, Rows.normChecks, Rows.normBody),
      (.normb, .normb, Rows.normbChecks, Rows.normbBody), (.smax, .smax, Rows.smaxChecks, Rows.smaxBody),
      (.smaxb, .smaxb, Rows.smaxbChecks, Rows.smaxbBody), (.stash, .stash, Stash.checks, Stash.body),
      (.unstash, .unstash, Stash.unChecks, Stash.unBody)] :
      List ((Nat → Instr) × Op × (Cmd → State → List Fail) × (Cmd → State → Res))),
    ∀ (s : State) (qid : Nat) (c : Cmd), s.inHand qid = some c → State.isOp r.2.1 c.slot = true →
      worst (r.2.2.1 c (s.deciding c)) = none →
      ∀ s1 a b, r.2.2.2 c (s.deciding c) = .ok s1 a b → ∀ q1, s1.queue? qid = some q1 → s1.cqBlocked q1 .ok = false →
        exec (r.1 qid) s = .next (s1.doneAt q1 (q1.pos + 1) a b)) ∧
  (
  let at_ := fun (hs : List Nat) (c : Cmd) (s : State) => (hs.filterMap (c.tensor? s)).flatMap fun d => d.allSpans c.warm
  let any := fun (_ : Cmd) (_ : State) => True
  let table := fun c : Cmd => byteSpan c.q.hdr (0x40 + 0x40 * 1023)
  let bounds := fun (c : Cmd) (s : State) => ∀ a b k, c.tensor? s 0 = some a → c.tensor? s 1 = some b → Gemm.cls c.warm a b = some k →
    let W := (Gemm.accOf c.slot k).working
    Gemm.boundsOk c.slot (Gemm.scalar W (c.reg c.slot.sC)) (Gemm.scalar W (c.reg c.slot.sD)) = true
  let eps := fun (c : Cmd) (_ : State) => Rows.epsOk (Rows.epsOf c) = true
  let room := fun (c : Cmd) (s : State) => c.q.generate = true ∨ (c.q.share ≠ 0 ∧ s.read (c.q.hdr + 0xC) 4 < 1023 ∧
    ∀ d, c.tensor? s 0 = some d →
      s.read c.q.hdr 8 + Stash.up (Stash.addrs d c.warm).length ≤ c.q.share ∨ d.recomputable = true)
  let entry := fun (c : Cmd) (s : State) => c.q.generate = true ∨ (c.q.share ≠ 0 ∧
    ∀ d, c.tensor? s 0 = some d → ∃ i, Stash.find s c.q.hdr (min (s.read (c.q.hdr + 0xC) 4) 1023) d.handle = some i ∧
      (Stash.entryState s c.q.hdr i = 2 ∨ (Stash.addrs d c.warm).length = s.read (Stash.entryAddr c.q.hdr i + 16) 8))
  ∀ r ∈ ([
      (.load, .load, loadChecks, fun c s => (c.tensor? s 1).toList.flatMap fun b => (loadDests c b).flatMap (Desc.allSpans · c.warm),
        any, true),
      (.store, .store, storeChecks, at_ [1], any, true), (.copy, .copy, moveChecks true, at_ [1], any, true),
      (.convert, .convert, moveChecks false, at_ [1], any, true), (.fill, .fill, fillChecks, at_ [0], any, true),
      (.gather, .gather, gatherChecks, at_ [2], any, true), (.scatter, .scatter, scatterChecks, at_ [2], any, true),
      (.rng, .rng, rngChecks, at_ [0], any, true), (.gemm, .gemm, Gemm.checks (· == 2), at_ [2], bounds, true),
      (.bgemm, .bgemm, Gemm.checks fun k => decide (3 ≤ k) && decide (k ≤ 6), at_ [2], bounds, true),
      (.bwd2, .bwd2, Bwd.checks, at_ [3, 4], any, true),
      (.ewise, .ewise, Ew.checks false, fun c s => match Ew.find c s with
        | .prog p => at_ ((List.range 6).filter p.writes) c s
        | .bad _ => [], any, true),
      (.stencil, .stencil, Ew.checks true, fun c s => match Ew.find c s with
        | .prog p => at_ ((List.range 6).filter p.writes) c s
        | .bad _ => [], any, true),
      (.reduce, .reduce, Reduce.checks, at_ [1], any, false), (.argred, .argred, Argred.checks, at_ [1, 2], any, false),
      (.norm, .norm, Rows.normChecks, at_ [1], eps, true), (.normb, .normb, Rows.normbChecks, at_ [3, 4, 5], eps, true),
      (.smax, .smax, Rows.smaxChecks, at_ [1], any, true), (.smaxb, .smaxb, Rows.smaxbChecks, at_ [2], any, true),
      (.stash, .stash, Stash.checks, fun c _ => [byteSpan (c.job.stashBase + c.q.shareOff) c.q.share, table c], room, true),
      (.unstash, .unstash, Stash.unChecks, fun c s =>
        table c :: (c.tensor? s 0).toList.flatMap fun d => (Stash.addrs d c.warm).map (byteSpan · 1), entry, false)] :
      List ((Nat → Instr) × Op × (Cmd → State → List Fail) × (Cmd → State → List Span) × (Cmd → State → Prop) × Bool)),
    ∀ (s : State) (qid : Nat) (c : Cmd), s.inHand qid = some c → State.isOp r.2.1 c.slot = true →
      let s1 := s.deciding c
      worst (r.2.2.1 c s1) = none → s.poisoned = [] → s.memOk → (∀ x ∈ s.rings, 0 < x.slots) → r.2.2.2.2.1 c s1 →
      ∃ t, exec (r.1 qid) s = .next t ∧ t.completed c ∧ (∀ k, k ≠ qid → t.queue? k = s.queue? k) ∧
        (r.2.2.2.2.2 = true → ∀ q : CmdQueue, t.queue? qid = some q → q.sregs = c.q.sregs) ∧
        ∀ a, (∀ sp ∈ r.2.2.2.1 c s1, Span.meets a 1 sp = false) →
          (∀ x ∈ s.rings, x.id = c.q.cq ∨ x.id = c.q.eq → ¬ State.inRing x a) → t.byte a = s.byte a)

/-- A command that fails decode: its queue is STOPPED at the command with the lowest failing status, and every byte outside the
two rings of the queue keeps its value (R201).

Of the failing decode checks the one with the lowest status code is reported (R201). -/
def Obligations.FailedDecodeWritesNothing : Prop :=
  (
  ∀ r ∈ ([(.nop, .nop, nopChecks), (.load, .load, loadChecks), (.gemm, .gemm, Gemm.checks (· == 2)),
      (.ewise, .ewise, Ew.checks false), (.reduce, .reduce, Reduce.checks), (.norm, .norm, Rows.normChecks),
      (.scal, .scal, Scal.checks), (.br, .br, Branch.checks), (.lap, .lap, LapOp.checks), (.stash, .stash, Stash.checks)] :
      List ((Nat → Instr) × Op × (Cmd → State → List Fail))),
    ∀ (s : State) (qid : Nat) (c : Cmd) (f : Fail), s.inHand qid = some c → State.isOp r.2.1 c.slot = true →
      worst (r.2.2 c (s.deciding c)) = some f → f.1 ≠ .ok → f.1 ≠ .halted → s.cqBlocked c.q f.1 = false →
      s.poisoned = [] → (∀ x ∈ s.rings, 0 < x.slots) → s.memOk →
      ∃ t q', exec (r.1 qid) s = .next t ∧ t.queue? qid = some q' ∧ q'.state = .stopped ∧ q'.status = f.1.code ∧
        q'.pos = c.q.pos ∧ q'.sregs = c.q.sregs ∧
        ∀ a, (∀ x ∈ s.rings, x.id = c.q.cq ∨ x.id = c.q.eq → ¬ State.inRing x a) → t.byte a = s.byte a) ∧
  (
  ∀ fs : List Fail, (fs = [] ↔ worst fs = none) ∧
    ∀ f, worst fs = some f → f ∈ fs ∧ ∀ g ∈ fs, f.1.code ≤ g.1.code)

/-- A completion with a record puts the 32 bytes of R204 in the completion queue's next slot and advances write_index. -/
def Obligations.CompletionRecordIsWritten : Prop :=
  ∀ (s : State) (q : CmdQueue) (d : Done) (r : RingQ), s.memOk → s.ring? q.cq = some r → r.kind = .completion → 0 < r.slots →
      s.ringLine r = none →
    State.writesRecord q.cur.toNat d.status = true → State.doneEvent q.cur.toNat d.status = none →
    let w := s.read64 r.base
    let t := s.finish q d
    t.bytes (r.base + 0x40 + (w.toNat % r.slots) * 32) 32 =
        s.completionRecord q q.cur.toNat q.pos d.status d.countA d.countB ∧
      t.read64 r.base = w + 1

/-- SCAL: each integer operation of R230 writes its result to sA of its own queue and nothing else, and completes.

NOP, TAG, PHASE, CKPT, FENCE and HALT where they complete: NOP and TAG change nothing else; PHASE sets its queue's phase
(R251); CKPT asks for a generation (R257); FENCE completes where no chain of the queue is armed (R259); HALT enters HALTED
(R260). -/
def Obligations.ScalarAndControlOps : Prop :=
  (
  ∀ o ∈ ([(0x00, fun _ c => c), (0x01, fun b c => b + c), (0x02, fun b c => b - c), (0x03, fun b c => b * c),
      (0x04, fun b c => if c = 0 then -1 else BitVec.ofInt 64 (Int.tdiv b.toInt c.toInt)),
      (0x05, fun b c => if c = 0 then b else BitVec.ofInt 64 (Int.tmod b.toInt c.toInt)),
      (0x06, fun b c => b &&& c), (0x07, fun b c => b ||| c), (0x08, fun b c => b ^^^ c),
      (0x09, fun b c => b <<< (c.toNat % 64)), (0x0A, fun b c => b >>> (c.toNat % 64)),
      (0x0B, fun b c => b.sshiftRight (c.toNat % 64)), (0x0C, fun b c => if b.toInt ≤ c.toInt then b else c),
      (0x0D, fun b c => if b.toInt ≤ c.toInt then c else b)] : List (Nat × (W64 → W64 → W64))),
    ∀ (s : State) (qid : Nat) (c : Cmd), s.inHand qid = some c → State.isOp .scal c.slot = true → Scal.op c.slot = o.1 →
      worst (Scal.checks c (s.deciding c)) = none → s.cqBlocked c.q .ok = false →
      let x := if Scal.bimm c.slot then BitVec.ofNat 64 (c.slot.operand 0x20 0 64) else c.reg c.slot.sC
      let q1 := { c.q with sregs := c.q.sregs.set c.slot.sA (o.2 (c.reg c.slot.sB) x) }
      exec (.scal qid) s = .next (((s.deciding c).setQueue q1).doneAt q1 (q1.pos + 1) 0 0)) ∧
  (
  ∀ (s : State) (qid : Nat) (c : Cmd), s.inHand qid = some c → s.cqBlocked c.q .ok = false → s.cqBlocked c.q .halted = false →
    (State.isOp .nop c.slot = true → exec (.nop qid) s = .next ((s.deciding c).doneAt c.q (c.q.pos + 1) 0 0)) ∧
    (State.isOp .tag c.slot = true → worst (bareChecks c (s.deciding c)) = none →
      exec (.tag qid) s = .next ((s.deciding c).doneAt c.q (c.q.pos + 1) 0 0)) ∧
    (State.isOp .phase c.slot = true → worst (phaseChecks c (s.deciding c)) = none →
      let q1 := { c.q with generate := c.slot.testBit 240 }
      exec (.phase qid) s = .next (((s.deciding c).setQueue q1).doneAt q1 (q1.pos + 1) 0 0)) ∧
    (State.isOp .ckpt c.slot = true → worst (bareChecks c (s.deciding c)) = none →
      exec (.ckpt qid) s =
        .next (((s.deciding c).modJob c.job.id fun j => { j with ckptRequested := true }).doneAt c.q (c.q.pos + 1) 0 0)) ∧
    (State.isOp .fence c.slot = true → worst (bareChecks c (s.deciding c)) = none → c.q.armed = [] →
      exec (.fence qid) s = .next ((s.deciding c).doneAt c.q (c.q.pos + 1) 0 0)) ∧
    (State.isOp .halt c.slot = true → worst (bareChecks c (s.deciding c)) = none →
      exec (.halt qid) s = .next ((s.deciding c).finish c.q { status := .halted, next := c.q.pos + 1, countA := 0, countB := 0 })))

/-- BR: a taken branch goes on at its own position plus the signed offset and closes the Laps whose body it leaves (R236, R241);
one not taken goes on at the next position; a taken one whose target is not held stops with BAD_TARGET.

LAP and ENDLAP: a count of 0 skips the body; a count above 0 opens a Lap that holds the count; ENDLAP repeats the body while
its iterations are below the count, and then closes the Lap (R237, R239). -/
def Obligations.BranchesAndLaps : Prop :=
  (
  ∀ (s : State) (qid : Nat) (c : Cmd), s.inHand qid = some c → State.isOp .br c.slot = true →
    worst (Branch.checks c (s.deciding c)) = none →
    let b := if Branch.bimm c.slot then BitVec.ofNat 64 (c.slot.operand 0x20 0 64) else c.reg c.slot.sB
    let taken := Branch.taken (Branch.cond c.slot) (Branch.compare (Branch.type c.slot) (c.reg c.slot.sA) b)
    let target := c.pos + BitVec.ofNat 64 (c.slot.operand 0x28 0 64)
    let held := (target - (s.deciding c).qwFree c.q).toNat < c.q.slots
    let q1 := { c.q with laps := c.q.laps.filter fun l => decide ((target - (l.pos + 1)).toNat < l.d) }
    s.cqBlocked c.q .ok = false →
    (taken = false → exec (.br qid) s = .next ((s.deciding c).doneAt c.q (c.q.pos + 1) 0 0)) ∧
    (taken = true → held → exec (.br qid) s = .next (((s.deciding c).setQueue q1).doneAt q1 target 0 0)) ∧
    (taken = true → ¬ held →
      exec (.br qid) s = .next ((s.deciding c).complete c.q (State.failDone c.q .badTarget none)))) ∧
  (
  ∀ (s : State) (qid : Nat) (c : Cmd), s.inHand qid = some c → s.cqBlocked c.q .ok = false →
    (State.isOp .lap c.slot = true → worst (LapOp.checks c (s.deciding c)) = none →
      let n := if LapOp.cimm c.slot then BitVec.ofNat 64 (c.slot.operand 0x20 0 64) else c.reg c.slot.sA
      let d := c.slot.operand 0x28 0 32
      let q1 := { c.q with laps := { pos := c.pos, d := d, count := n, iter := 0 } :: c.q.laps }
      (n = 0 → exec (.lap qid) s = .next ((s.deciding c).doneAt c.q (c.pos + BitVec.ofNat 64 d + 1) 0 0)) ∧
      (n ≠ 0 → c.q.laps.length < 8 → exec (.lap qid) s = .next (((s.deciding c).setQueue q1).doneAt q1 (q1.pos + 1) 0 0))) ∧
    (State.isOp .endlap c.slot = true → worst (LapOp.endChecks c (s.deciding c)) = none →
      ∀ l ls, c.q.laps = l :: ls → c.pos = l.pos + BitVec.ofNat 64 l.d → c.slot.operand 0x28 0 32 = l.d →
        let again := { c.q with laps := { l with iter := l.iter + 1 } :: ls }
        let closed := { c.q with laps := ls }
        ((l.iter + 1).toNat < l.count.toNat →
          exec (.endlap qid) s = .next (((s.deciding c).setQueue again).doneAt again (l.pos + 1) 0 0)) ∧
        (¬ (l.iter + 1).toNat < l.count.toNat →
          exec (.endlap qid) s = .next (((s.deciding c).setQueue closed).doneAt closed (c.q.pos + 1) 0 0))))

/-- WAIT, SIGNAL and a local HURDLE where no line of their word is poisoned: WAIT goes on where the word satisfies the threshold
and waits otherwise (R244); SIGNAL ADD adds to the word and completes (R245); SIGNAL POST writes its message to a ring with a
free slot (R246); HURDLE adds 1 and waits for the end of its round (R247).

What lets a waiting queue go on: the word of its WAIT satisfies the threshold (R244), the chains it armed have completed
(R259), or a slot of the message queue is free and takes the message (R246); its command then completes. A full completion
queue that has a free slot takes the held completion (R205), and a debug break that matches halts the queue with BREAK (R262). -/
def Obligations.QueuesSignalAndWait : Prop :=
  (
  ∀ (s : State) (qid : Nat) (c : Cmd), s.inHand qid = some c → s.cqBlocked c.q .ok = false →
    let a := c.slot.operand 0x20 0 64
    let v := if c.slot.testBit 240 then BitVec.ofNat 64 (c.slot.operand 0x28 0 64) else c.reg c.slot.sB
    let waits := fun (s1 : State) (w : Wait) =>
      s1.setQueue { c.q with state := .waiting, wait := w, next := c.q.pos + 1 }
    (State.isOp .wait c.slot = true → worst (Sync.waitChecks c (s.deciding c)) = none → s.poisonIn a 8 = false →
      let s1 := (s.deciding c).recallBlocks a 8
      ((s.read64 a - v).toNat < 2 ^ 63 → exec (.wait qid) s = .next (s1.doneAt c.q (c.q.pos + 1) 0 0)) ∧
      (¬ (s.read64 a - v).toNat < 2 ^ 63 → exec (.wait qid) s = .next (waits s1 (.word a v)))) ∧
    (isSignal false c.slot = true → worst (Sync.addChecks c (s.deciding c)) = none → s.poisonIn a 8 = false →
      let s1 := (s.deciding c).store64 a (s.read64 a + v)
      s1.cqBlocked c.q .ok = false → exec (.signalAdd qid) s = .next (s1.doneAt c.q (c.q.pos + 1) 0 0)) ∧
    (isSignal true c.slot = true → worst (Sync.postChecks c (s.deciding c)) = none → ∀ r, s.ring? a = some r →
      s.ringFull r = false → s.ringLine r = none →
      let s1 := (s.deciding c).ringPut r (Sync.message (s.deciding c) c.q c.slot c.pos v)
      s1.cqBlocked c.q .ok = false → exec (.signalPost qid) s = .next (s1.doneAt c.q (c.q.pos + 1) 0 0)) ∧
    (isHurdle false c.slot = true → worst (Sync.localChecks c (s.deciding c)) = none → s.poisonIn a 8 = false →
      let n := c.slot.operand 0x28 0 16
      let w := s.read64 a + 1
      let h := BitVec.ofNat 64 (n * ((w.toNat + n - 1) / n))
      let s1 := (s.deciding c).store64 a w
      s1.cqBlocked c.q .ok = false →
      ((w - h).toNat < 2 ^ 63 → exec (.hurdleLocal qid) s = .next (s1.doneAt c.q (c.q.pos + 1) 0 0)) ∧
      (¬ (w - h).toNat < 2 ^ 63 → exec (.hurdleLocal qid) s = .next (waits s1 (.word a h))))) ∧
  (
  ∀ (s : State) (qid : Nat) (q : CmdQueue), s.queue? qid = some q →
    (q.state = .waiting → s.unfit = false → s.cqBlocked q .ok = false →
      (∀ a h, q.wait = .word a h → (s.stackWord a - h).toNat < 2 ^ 63 →
        exec (.waitSatisfied qid) s = .next (s.doneAt q (q.pos + 1) 0 0)) ∧
      (q.wait = .fence → q.armed = [] → exec (.fenceRelease qid) s = .next (s.doneAt q (q.pos + 1) 0 0)) ∧
      (∀ mq v r, q.wait = .post mq v → s.ring? mq = some r → s.ringFull r = false → s.ringLine r = none →
        let s1 := s.ringPut r (Sync.message s q q.cur.toNat q.pos v)
        s1.cqBlocked q .ok = false → exec (.messageSlotFree qid) s = .next (s1.doneAt q (q.pos + 1) 0 0))) ∧
    (∀ d, q.state = .waitCq → q.wait = .cq d → s.cqBlocked q d.status = false → exec (.cqSlotFree qid) s = .next (s.finish q d)) ∧
    (∀ j i, s.job? q.job = some j → State.queueReady q = true → s.runsJob j = true →
      State.breakHit q (s.slotAt q q.next).tag = some i →
      ∃ t q', exec (.breakFires qid) s = .next t ∧ t.queue? qid = some q' ∧ q'.state = .halted ∧
        q'.status = Status.break_.code ∧ q'.pos = q.pos ∧ q'.sregs = q.sregs))

/-- A doorbell write of v to a bound queue is accepted where (v − w) mod 2^64 < 2^63 and (v − free) mod 2^64 ≤ slots: the write
position becomes v and an IDLE queue with a command runs. Any other write leaves every queue as it was; an UNBOUND queue
ignores it (R188). -/
def Obligations.DoorbellIsJudgedByItsBounds : Prop :=
  ∀ (s : State) (qid : Nat) (q : CmdQueue) (v : W64), s.queue? qid = some q →
    (q.state = .unbound → exec (.doorbell qid v) s = .next s) ∧
    (q.state ≠ .unbound → (v - q.write).toNat < 2 ^ 63 → (v - s.qwFree q).toNat ≤ q.slots →
      let q1 := { q with write := v }
      exec (.doorbell qid v) s =
        .next (s.setQueue { q1 with state := if q.state = .idle then State.readyState q1 else q.state })) ∧
    (q.state ≠ .unbound → ¬ ((v - q.write).toNat < 2 ^ 63 ∧ (v - s.qwFree q).toNat ≤ q.slots) →
      ∃ t, exec (.doorbell qid v) s = .next t ∧ t.queues = s.queues ∧ s.events < t.events)

/-- COMMIT waits for the other queues of its job (R253); when all conditions hold, the step number rises by 1, the lap counter
follows R80, the position after each COMMIT is recorded, and every queue goes on there (R254). Mirror mode is left to the
twin's digest (R403). -/
def Obligations.CommitClosesTheStep : Prop :=
  (∀ (s : State) (qid : Nat) (c : Cmd), s.inHand qid = some c → State.isOp .commit c.slot = true →
    worst (bareChecks c (s.deciding c)) = none →
    exec (.commit qid) s = .next ((s.deciding c).setQueue { c.q with state := .waiting, wait := .commit, next := c.q.pos + 1 })) ∧
  (∀ (s : State) (id : Nat) (j : Job), s.job? id = some j → s.commitReady j = true → s.pair.mode ≠ .mirror → s.poisoned = [] →
    ∃ t j', exec (.commitClose id) s = .next t ∧ t.job? id = some j' ∧ j'.step = j.step + 1 ∧
      j'.lap = (if j.skipping then max (j.lap - 1) j.lapRecovery else j.lap - 1) ∧ j'.ckptRequested = false ∧
      ∀ q ∈ s.queues, q.job = id → q.state = .waiting → s.queue? q.id = some q →
        ∃ q', t.queue? q.id = some q' ∧ q'.committed.position = q.pos + 1 ∧ q'.sregs = q.sregs)

/-! ### Mailbox commands (R461 to R482, R509) -/

/-- The command gates of R473: a request that no check refuses runs its row's effect, which ends with the response (R467,
R470 to R472); a pair.detach waits for one that precedes it (R468).

What more accepted requests leave and answer: job.status the phase, step and restore point; group.join its group beside those joined
before; pair.mode the mode asked for, in force where the twin asks for the same; telemetry.read the registers; a photo finish its number
and place in the order; device.tune its register; fw.update the image in the inactive slot, on trial, and a reset where asked;
attest.report the report's body; session.close a session that is closing (R473, R474, R479, R482 to R486, R508, R515, R516). -/
def Obligations.AcceptedRequestRuns : Prop :=
  (
  ∀ r ∈ ([(.jobCreate, gateScf 0x201, fun _ _ => 0x58, State.jobCreateFails, State.jobCreate),
      (.jobDestroy, gateScf 0x202, fun _ _ => 2, State.noJob, fun s m => (s.destroyJob (s.arg m 0 2)).settle.finishOk m []),
      (.jobResume, gateScf 0x203, fun _ _ => 2, fun s m =>
        s.noJob m ++ deny ((s.job? (s.arg m 0 2)).isSome && !s.isHeld (s.arg m 0 2)) .badState 0,
        fun s m => (s.restartHeld (s.arg m 0 2)).finishOk m []),
      (.jobSpares, { code := 0x204, auth := [.s, .f] }, fun _ _ => 0x10, fun s m =>
        s.noJob m ++ deny (decide (64 < s.arg m 2 2)) .badOperand 2 ++ deny (s.arg m 4 4 != 0) .badOperand 4 ++
          deny (s.arg m 2 2 != 0 && !inEdern (s.arg m 8 8) (8 * s.arg m 2 2)) .badOperand 8, State.jobSpares),
      (.jobStatus, gateScf 0x205, fun _ _ => 2, State.noJob, fun s m => s.finishOk m (s.jobStatus m)),
      (.queueCreate, gateScf 0x301, fun _ _ => 0x18, State.queueCreateFails, State.queueCreate),
      (.queueBind, gateScf 0x302, fun _ _ => 0x30, State.queueBindFails, State.queueBind),
      (.queueResume, gateScf 0x303, fun _ _ => 3, State.queueResumeFails, State.queueResume),
      (.queueSreg, gateScf 0x304, State.sregLen, State.queueSregFails, State.queueSreg),
      (.queueDestroy, gateScf 0x305, fun _ _ => 2, State.queueDestroyFails, State.queueDestroy),
      (.descLoad, gateScf 0x401, State.descLoadLen, State.descLoadFails, State.descLoad),
      (.groupJoin, gateScf 0x501, fun _ _ => 0x20, fun s m => Join.fails s (Join.read s m), State.groupJoin),
      (.groupLeave, gateScf 0x502, fun _ _ => 4, State.groupLeaveFails, State.groupLeave),
      (.ckptPolicy, gateScf 0x601, fun _ _ => 0x98, State.ckptPolicyFails, State.ckptPolicy),
      (.pairMode, { code := 0x701, auth := [.s, .f, .p] }, fun _ _ => 0x88, State.pairModeFails, State.setPairMode),
      (.pairDetach, { code := 0x702, auth := [.s, .f, .p] }, fun _ _ => 0, fun _ _ => [], State.pairDetach),
      (.paceSet, { code := 0x801, auth := [.s, .f] }, fun _ _ => 1, State.paceFails, State.paceSet),
      (.telemetryRead, { code := 0x901, auth := [.s, .c, .f, .p], early := true }, fun _ _ => 0xA, State.telemetryFails,
        State.telemetryRead),
      (.telemetryPhotoFinish, gateScf 0x902, fun _ _ => 0x10, State.photoFails, State.photoFinish),
      (.deviceTune, { code := 0x903, auth := [.s, .f] }, fun _ _ => 0x10, State.tuneFails, State.deviceTune),
      (.coreAssign, gateScf 0xA01, fun _ _ => 4, State.assignFails, State.coreAssign),
      (.fwUpdate, { code := 0xB01, auth := [.s, .f] }, fun _ _ => 0x18, State.fwUpdateFails, State.fwUpdate),
      (.attestReport, { code := 0xB02, auth := [.s, .c, .f, .p], unowned := true, early := true }, fun _ _ => 0x41,
        fun s m => deny (decide (1 < s.arg m 0x40 1)) .badOperand 0x40, State.attestReport),
      (.debugBreak, gateScf 0xC01, fun _ _ => 0x10, State.debugBreakFails, State.debugBreak),
      (.sessionClose, { code := 0x104, auth := [.s], unowned := true, early := true }, fun _ _ => 0, fun s m =>
        deny (!s.sessionIs m fun x => x.state == .opened || x.state == .claim) .badState 0, State.sessionClose)] :
      List ((Fin 64 → Instr) × Gate × (State → Nat → Nat) × (State → Nat → List Deny) × (State → Nat → State))),
    ∀ (s : State) (m : Fin 64), s.pair.detach = none → s.accepts r.2.1 m (r.2.2.1 s m.val) (r.2.2.2.1 s m.val) →
      exec (r.1 m) s = .next (r.2.2.2.2 s m.val)) ∧
  (
  ∀ (s : State) (m : Fin 64), s.memOk → m.val < s.mailboxes.length →
    let u := s.arg m.val
    let body := fun (t : State) (bs : List Byte) => t.answered m .ok ∧ t.bytes (State.mboxArea m.val + 16) bs.length = bs
    (∀ j, s.accepts (gateScf 0x205) m 2 (State.noJob s m.val) → s.job? (u 0 2) = some j → j.phase = .running →
      ∃ t, exec (.jobStatus m) s = .next t ∧ body t (toLe 8 0 ++ toLe 8 j.step ++ toLe 8 j.restorePoint) ∧ t.jobs = s.jobs ∧
        t.queues = s.queues) ∧
    (s.accepts (gateScf 0x501) m 0x20 (Join.fails s (Join.read s m.val)) → s.early = [] →
      ∃ t, exec (.groupJoin m) s = .next t ∧ t.answered m .ok ∧ (∀ h ∈ s.groups, h ∈ t.groups) ∧
        (∃ g ∈ t.groups, g.id = u 2 2 ∧ g.job = u 0 2 ∧ g.rank = u 6 2 ∧ g.m = u 0x16 2 ∧ g.sentAt = none ∧ g.heard = []) ∧
        t.queues = s.queues) ∧
    (∀ mode, s.accepts { code := 0x701, auth := [.s, .f, .p] } m 0x88 (s.pairModeFails m.val) →
      PairMode.ofCode (u 0 1) = some mode →
      ∃ t, exec (.pairMode m) s = .next t ∧ t.answered m .ok ∧ t.pair.own = mode ∧ t.shadowRegions = s.argRegions m.val ∧
        (s.pair.joined = true → s.pair.twin = some mode → t.pair.mode = mode) ∧
        (s.pair.joined = false → t.pair.mode = s.pair.mode) ∧ t.jobs = s.jobs ∧ t.queues = s.queues) ∧
    (s.accepts { code := 0x901, auth := [.s, .c, .f, .p], early := true } m 0xA (s.telemetryFails m.val) →
      ∃ t, exec (.telemetryRead m) s = .next t ∧ body t (State.readRegs (u 0 2) (u 4 4) (u 8 2) s).1 ∧ t.jobs = s.jobs ∧
        t.queues = s.queues) ∧
    (s.accepts (gateScf 0x902) m 0x10 (s.photoFails m.val) →
      let p : Photo := { addr := u 0 8, len := u 8 8, number := s.nextPhoto }
      ∃ t, exec (.telemetryPhotoFinish m) s = .next t ∧ body t (toLe 8 s.nextPhoto) ∧
        (s.telem.running = none → t.telem = { s.telem with running := some (p, s.now) }) ∧
        (s.telem.running.isSome = true → t.telem = { s.telem with queue := s.telem.queue ++ [p] }) ∧ t.queues = s.queues) ∧
    (s.accepts { code := 0x903, auth := [.s, .f] } m 0x10 (s.tuneFails m.val) →
      ∃ t, exec (.deviceTune m) s = .next t ∧ t.answered m .ok ∧ t.jobs = s.jobs ∧ t.queues = s.queues ∧
        (∀ k < s.judges.length, u 0 2 = 0x18 + k → (t.judges.getD k {}).rate = u 8 8 % 2 ^ 5) ∧
        (∀ k < s.edern.length, u 0 2 = 0x20 + k → (t.stack k).patrolPeriod = u 8 8 % 2 ^ 9) ∧
        (∀ k < s.tracks.length, u 0 2 = 0x30 + k → (t.tracks.getD k {}).limit = u 8 8 % 2 ^ 20)) ∧
    (s.accepts { code := 0xB01, auth := [.s, .f] } m 0x18 (s.fwUpdateFails m.val) →
      let os := u 0 1 == 1
      let slot := !s.activeSlot os
      ∃ t, exec (.fwUpdate m) s = .next t ∧ t.starter.fwSlot = s.starter.fwSlot ∧ t.starter.osSlot = s.starter.osSlot ∧
        (bitAt (u 1 1) 0 = false → t.answered m .ok ∧ t.bytes (State.slotBase os slot) (u 16 8) = s.argImage m.val ∧
          (os = false → t.starter.fwTrial = true) ∧ (os = true → t.starter.osTrial = true) ∧ t.jobs = s.jobs ∧ t.queues = s.queues) ∧
        (bitAt (u 1 1) 0 = true → t.power.held = true ∧ (s.power.held = false → t.starter.lastReset = 4 ∧
          (os = false → t.starter.fwTrial = true) ∧ (os = true → t.starter.osTrial = true)))) ∧
    (s.accepts { code := 0xB02, auth := [.s, .c, .f, .p], unowned := true, early := true } m 0x41
        (deny (decide (1 < u 0x40 1)) .badOperand 0x40) →
      ∃ t, exec (.attestReport m) s = .next t ∧ body t (s.reportBody (s.argBytes m.val 0 64)) ∧ t.jobs = s.jobs ∧ t.queues = s.queues) ∧
    (∀ x, s.sessionAt m.val = some x → s.session? x.id = some x → x.state = .opened ∨ x.state = .claim →
      s.accepts { code := 0x104, auth := [.s], unowned := true, early := true } m 0
        (deny (!s.sessionIs m.val fun x => x.state == .opened || x.state == .claim) .badState 0) →
      ∃ t y, exec (.sessionClose m) s = .next t ∧ t.answered m .ok ∧ t.session? x.id = some y ∧ y.state = .closing ∧
        y.closeAt = s.now ∧ t.jobs = s.jobs ∧ t.queues = s.queues))

/-- session.enrol: a request of a kind that no check refuses runs that kind's effect (R509).

What the kinds of session.enrol leave, each answered with OK and without an effect on jobs and queues (R509): an owner key joins
the owners and opens a CLAIM session, or leaves them; a region joins its session under a key that none had, or leaves it; a queue pair
under a number that none had joins its session and port, or goes; a subscription begins at the ring's write_index, or ends; a port takes
its static address. -/
def Obligations.Enrolments : Prop :=
  (
  ∀ r ∈ ([(.ownerAdd, 0, keyLen, State.ownerAddFails, State.ownerAdd), (.ownerRevoke, 1, 8, State.ownerRevokeFails, State.ownerRevoke),
      (.regionAdd, 2, 17, State.regionAddFails, State.regionAdd), (.regionRemove, 3, 4, State.regionRemoveFails, State.regionRemove),
      (.qpConnect, 4, 38, State.qpConnectFails, State.qpConnect), (.qpDestroy, 5, 3, State.qpDestroyFails, State.qpDestroy),
      (.subscribe, 6, 2, State.subscribeFails, State.subscribe), (.unsubscribe, 7, 2, State.unsubscribeFails, State.unsubscribe),
      (.netPort, 8, 20, State.netPortFails, State.netPort)] :
      List ((Fin 64 → Instr) × Nat × Nat × (State → Nat → List Deny) × (State → Nat → State))),
    ∀ (s : State) (m : Fin 64) (x : Session), s.sessionAt m.val = some x →
      (x.state = .opened ∨ (x.state = .claim ∧ r.2.1 = 0)) → s.arg m.val 0 1 = r.2.1 → s.arg m.val 1 7 = 0 →
      s.accepts { code := 0x103, auth := [.s], unowned := true, early := true } m (8 + r.2.2.1) (r.2.2.2.1 s m.val) →
      exec (r.1 m) s = .next (r.2.2.2.2 s m.val)) ∧
  (
  ∀ (s : State) (m : Fin 64) (x : Session), s.sessionAt m.val = some x → s.session? x.id = some x → m.val < s.mailboxes.length →
    let asks := fun (kind len : Nat) (fails : List Deny) =>
      (x.state = .opened ∨ (x.state = .claim ∧ kind = 0)) ∧ s.arg m.val 0 1 = kind ∧ s.arg m.val 1 7 = 0 ∧
        s.accepts { code := 0x103, auth := [.s], unowned := true, early := true } m (8 + len) fails
    let gives := fun (i : Instr) (p : State → Prop) =>
      ∃ t, exec i s = .next t ∧ t.answered m .ok ∧ t.jobs = s.jobs ∧ t.queues = s.queues ∧ p t
    let own := fun (t : State) (p : Session → Prop) => ∃ y, t.session? x.id = some y ∧ y.mailbox = x.mailbox ∧ p y
    (asks 0 keyLen (s.ownerAddFails m.val) → gives (.ownerAdd m) fun t =>
      t.starter.owners = s.starter.owners ++ [s.argBytes m.val 8 keyLen] ∧ own t fun y => y.state = .opened) ∧
    (asks 1 8 (s.ownerRevokeFails m.val) →
      ∃ t, exec (.ownerRevoke m) s = .next t ∧ t.answered m .ok ∧ t.jobs = s.jobs ∧
        t.starter.owners = (s.starter.owners.filter fun k => ownerKeyId k != s.argKeyId m.val) ∧
        ∀ y ∈ t.sessions, y.claim = false → y.keyId = s.argKeyId m.val → y.state = .closing) ∧
    (asks 2 17 (s.regionAddFails m.val) → s.rdmaKeys.length < 2 ^ 16 → gives (.regionAdd m) fun t =>
      ∃ key, key ∉ s.rdmaKeys ∧ key ≠ 0 ∧ own t fun y => y.regions = x.regions ++
        [{ key := key, base := s.arg m.val 8 8, len := s.arg m.val 16 8, read := bitAt (s.arg m.val 24 1) 0
           write := bitAt (s.arg m.val 24 1) 1 }]) ∧
    (asks 3 4 (s.regionRemoveFails m.val) → gives (.regionRemove m) fun t =>
      own t fun y => y.regions = x.regions.filter fun r => r.key != s.argKey m.val) ∧
    (asks 4 38 (s.qpConnectFails m.val) → gives (.qpConnect m) fun t =>
      ∃ q, t.qps = s.qps ++ [q] ∧ (∀ y ∈ s.qps, y.qpn ≠ q.qpn) ∧ 2 ≤ q.qpn ∧ q.session = x.id ∧ q.port = s.arg m.val 8 1 ∧
        q.mtu = 1024 * 2 ^ s.arg m.val 9 1 ∧ q.rnr = s.arg m.val 10 1 ∧ q.hostQpn = s.arg m.val 12 3 ∧
        q.hostPsn = s.arg m.val 15 3 ∧ q.ringBase = s.arg m.val 34 8 ∧ q.ringSlots = s.arg m.val 42 4 ∧ q.error = false) ∧
    (asks 5 3 (s.qpDestroyFails m.val) → gives (.qpDestroy m) fun t => t.qps = s.qps.filter fun q => q.qpn != s.arg m.val 8 3) ∧
    (asks 6 2 (s.subscribeFails m.val) → gives (.subscribe m) fun t =>
      ∃ r ∈ s.rings, r.id = s.arg m.val 8 2 ∧ r.kind = .event ∧ own t fun y => y.subs = x.subs ++ [(r.id, s.read64 r.base)]) ∧
    (asks 7 2 (s.unsubscribeFails m.val) → gives (.unsubscribe m) fun t =>
      own t fun y => y.subs = x.subs.filter fun e => e.1 != s.arg m.val 8 2) ∧
    (asks 8 20 (s.netPortFails m.val) → s.eth.length = 8 → gives (.netPort m) fun t =>
      let e := s.arg m.val 8 1
      (t.ethPort e).enable = (s.ethPort e).enable ∧ (t.ethPort e).speed = bitAt (s.arg m.val 9 1) 0 ∧
        (s.argV4 m.val 20 ≠ 0 → (t.ethPort e).ipv4 = s.argV4 m.val 20 ∧
          (t.ethPort e).fixed = some (s.argV4 m.val 20, s.arg m.val 18 1, s.argV4 m.val 24)) ∧
        (s.argV4 m.val 20 = 0 → (t.ethPort e).fixed = none)))

/-- A request that checks refuse is answered with the lowest status code of all failed checks and changes nothing besides its
response; a length that differs and a device not yet READY come first (R470, R471, R488).

The response: the header of R469 and the results stand in the message area, busy falls, RESULT and SEQ hold the status and
the request's number, and every other mailbox and every byte outside the message keep their values. Done stays set except where
the response leaves at once, for a session or a partner (R329, R467, R503). -/
def Obligations.MailboxResponses : Prop :=
  (
  (∀ r ∈ ([(.jobCreate, gateScf 0x201, fun _ _ => 0x58, State.jobCreateFails),
      (.queueCreate, gateScf 0x301, fun _ _ => 0x18, State.queueCreateFails),
      (.queueBind, gateScf 0x302, fun _ _ => 0x30, State.queueBindFails),
      (.descLoad, gateScf 0x401, State.descLoadLen, State.descLoadFails),
      (.groupLeave, gateScf 0x502, fun _ _ => 4, State.groupLeaveFails),
      (.ckptPolicy, gateScf 0x601, fun _ _ => 0x98, State.ckptPolicyFails),
      (.coreAssign, gateScf 0xA01, fun _ _ => 4, State.assignFails),
      (.debugBreak, gateScf 0xC01, fun _ _ => 0x10, State.debugBreakFails)] :
      List ((Fin 64 → Instr) × Gate × (State → Nat → Nat) × (State → Nat → List Deny))),
    ∀ (s : State) (m : Fin 64), (s.mbox m.val).busy = true → s.starter.stopped = false → s.reqCode m.val = r.2.1.code →
      let len := r.2.2.1 s m.val
      let checks := deny (s.read (State.mboxArea m.val + 6) 10 != 0) .badOperand 0 ++
        deny (!s.authorised r.2.1 m.val) .noAuth 0 ++ r.2.2.2 s m.val
      ((s.reqLen m.val ≠ len ∨ bodyMax < len) → exec (r.1 m) s = .next (s.respond m.val .badLength 0 [])) ∧
      (s.reqLen m.val = len → len ≤ bodyMax → s.dev.code < DevState.ready.code →
        exec (r.1 m) s = .next (s.respond m.val .notReady 0 [])) ∧
      (s.reqLen m.val = len → len ≤ bodyMax → DevState.ready.code ≤ s.dev.code → ∀ d, d ∈ checks →
        ∃ e ∈ checks, (∀ f ∈ checks, e.1.code ≤ f.1.code) ∧ exec (r.1 m) s = .next (s.respond m.val e.1 e.2 []))) ∧
  ∀ (s : State) (m : Fin 64), (s.mbox m.val).busy = true → s.starter.stopped = false →
    s.reqCode m.val ∉ commandCodes → exec (.jobStatus m) s = .next (s.respond m.val .badCommand 0 [])) ∧
  (
  ∀ (s : State) (m : Fin 64) (st : Status) (detail : Nat) (result : List Byte), s.memOk → m.val < s.mailboxes.length →
    let a := State.mboxArea m.val
    let t := s.respond m.val st detail result
    let forwarded := m.val < 16 ∨ (48 ≤ m.val ∧ m.val ≤ 54)
    t.bytes a (16 + result.length) = toLe 2 (s.reqCode m.val) ++ toLe 2 (s.reqSeq m.val) ++ toLe 2 result.length ++
        toLe 2 st.code ++ toLe 4 detail ++ toLe 4 0 ++ result ∧
      t.answered m st ∧ (t.mbox m.val).seq = s.reqSeq m.val ∧ ((t.mbox m.val).done = false ↔ forwarded) ∧
      (∀ k, k ≠ m.val → t.mbox k = s.mbox k) ∧
      (∀ b, b < a ∨ a + 16 + result.length ≤ b → t.byte b = s.byte b) ∧
      t.queues = s.queues ∧ t.cores = s.cores ∧ t.unitMap = s.unitMap ∧ t.rings = s.rings)

/-- A mailbox's doorbell: a sender whom R35 lets write it has its request accepted where the mailbox is free, with the count
raised and an unread response discarded; a ring while busy sets overrun only; mailbox 55 ignores it (R466, R467). -/
def Obligations.MailboxDoorbellIsAccepted : Prop :=
  ∀ (s : State) (src : Initiator) (m : Fin 64) (v : W64), m.val < s.mailboxes.length → m.val ≠ 55 →
    s.refusal src true (State.mboxArea m.val + 0x1000) 8 = none → v.getLsbD 0 = true →
    ∃ t, exec (.mailboxDoorbell src m v) s = .next t ∧ t.mem = s.mem ∧ t.jobs = s.jobs ∧ t.queues = s.queues ∧
      (∀ k, k ≠ m.val → t.mbox k = s.mbox k) ∧
      ((s.mbox m.val).busy = false →
        (t.mbox m.val).busy = true ∧ (t.mbox m.val).done = false ∧ (t.mbox m.val).count = (s.mbox m.val).count + 1) ∧
      ((s.mbox m.val).busy = true → t.mbox m.val = { s.mbox m.val with overrun := true })

/-- job.create: the job exists with its seed, its lap counter at the start length, step 0 or the record's, the default checkpoint
policy, and its event queue; queues, cores and groups stay (R474). That a spare which has received the job's record takes step
and lap counter from it is the model's reading (log 138).

job.destroy: before the exchange of its groups settles and the response is written, the job is gone with its queues, its
rings, its chains and its groups, no host core is assigned to it, and memory and the other jobs' queues stay (R473).

job.resume, job.spares, desc.load, ckpt.policy, group.leave, core.assign and pair.detach (R473, R479, R481, R482): a held
job goes on at event 3; spares are enrolled; descriptors are written into the table; the policy waits for the next COMMIT; the
group is gone; the core belongs to the job or to none; the device is UNPAIRED and its shadows of the twin are gone. -/
def Obligations.JobCommands : Prop :=
  (
  ∀ (s : State) (m : Fin 64), s.accepts (gateScf 0x201) m 0x58 (s.jobCreateFails m.val) →
    ∃ t j r, exec (.jobCreate m) s = .next t ∧ t.answered m .ok ∧ t.job? (s.arg m.val 0 2) = some j ∧
      t.ring? (s.arg m.val 0x3C 2) = some r ∧ r.kind = .event ∧ r.job = some j.id ∧ r.base = s.arg m.val 0x40 8 ∧
      r.slots = s.arg m.val 0x48 4 ∧ j.lapStart = s.arg m.val 4 2 ∧ j.lapRecovery = s.arg m.val 6 2 ∧
      j.seed = BitVec.ofNat 64 (s.arg m.val 8 8) ∧ (j.zeroPolicy = true ↔ (s.arg m.val 2 1).testBit 0) ∧
      ((s.arg m.val 2 1).testBit 1 = false →
        match s.spareRecords.find? fun x => x.1 == s.arg m.val 0 2 with
          | some x => j.step = leNat (x.2.take 8) ∧ j.lap = leNat ((x.2.drop 0x10).take 2)
          | none => j.step = 0 ∧ j.lap = s.arg m.val 4 2) ∧
      ((s.arg m.val 2 1).testBit 1 = true → j.step = s.read (s.arg m.val 0x50 8) 8 ∧ j.lap = s.arg m.val 4 2) ∧
      j.ckptSteps = 64 ∧ j.ckptSeconds = 60 ∧ j.ranges = [] ∧ j.phase = .running ∧
      t.queues = s.queues ∧ t.cores = s.cores ∧ t.groups = s.groups) ∧
  (
  ∀ (s : State) (m : Fin 64), s.accepts (gateScf 0x202) m 2 (s.noJob m.val) →
    let id := s.arg m.val 0 2
    ∃ t : State, exec (.jobDestroy m) s = .next (t.settle.finishOk m.val []) ∧ t.job? id = none ∧ (∀ q ∈ t.queues, q.job ≠ id) ∧
      (∀ r ∈ t.rings, r.job ≠ some id) ∧ (∀ c ∈ t.cores, c.job ≠ some id) ∧ (∀ g ∈ t.groups, g.job ≠ id) ∧
      (∀ c ∈ t.chains, c.job ≠ id) ∧ t.mem = s.mem ∧ (∀ q ∈ s.queues, q.job ≠ id → q ∈ t.queues)) ∧
  (
  ∀ (s : State) (m : Fin 64),
    (∀ j c, s.job? (s.arg m.val 0 2) = some j → j.phase = .held c → s.accepts (gateScf 0x203) m 2 [] →
      ∃ t j', exec (.jobResume m) s = .next t ∧ t.answered m .ok ∧ t.job? j.id = some j' ∧ j'.phase = .restarting ∧
        j'.restart.coordinator = false ∧ j'.restart.restorePoint = none ∧ t.queues = s.queues) ∧
    (∀ j, s.job? (s.arg m.val 0 2) = some j → s.arg m.val 2 2 = 0 → s.arg m.val 4 4 = 0 →
      s.accepts { code := 0x204, auth := [.s, .f] } m 0x10 [] →
      exec (.jobSpares m) s = .next ((s.modJob j.id fun j => { j with spares := [] }).finishOk m.val [])) ∧
    (∀ j, s.job? (s.arg m.val 0 2) = some j → s.accepts (gateScf 0x401) m (s.descLoadLen m.val) (s.descLoadFails m.val) →
      exec (.descLoad m) s = .next ((s.ownStore (j.descBase + s.arg m.val 4 4 * 0x40)
        (s.argBytes m.val 0x10 (0x40 * s.arg m.val 2 2))).finishOk m.val [])) ∧
    (∀ j, s.job? (s.arg m.val 0 2) = some j → s.accepts (gateScf 0x601) m 0x98 (s.ckptPolicyFails m.val) →
      ∃ t j', exec (.ckptPolicy m) s = .next t ∧ t.answered m .ok ∧ t.job? j.id = some j' ∧ j'.newPolicy.isSome ∧
        j'.ranges = j.ranges ∧ j'.pools = j.pools ∧ j'.ckptSteps = j.ckptSteps ∧ t.queues = s.queues) ∧
    (s.accepts (gateScf 0x502) m 4 (s.groupLeaveFails m.val) →
      let s1 := { s with groups := s.groups.filter fun g => decide (g.id ≠ s.arg m.val 2 2) }
      exec (.groupLeave m) s = .next (s1.settle.finishOk m.val [])) ∧
    (s.accepts (gateScf 0xA01) m 4 (s.assignFails m.val) → s.arg m.val 0 1 < s.cores.length →
      ∃ t, exec (.coreAssign m) s = .next t ∧ t.answered m .ok ∧
        (t.core (s.arg m.val 0 1)).job = (if s.arg m.val 2 2 = 0xFFFF then none else some (s.arg m.val 2 2)) ∧
        ∀ k, k ≠ s.arg m.val 0 1 → t.core k = s.core k) ∧
    (s.pair.detach = none → s.accepts { code := 0x702, auth := [.s, .f, .p] } m 0 [] →
      ∃ t, exec (.pairDetach m) s = .next t ∧ t.pair.mode = .unpaired ∧ t.shadows = [] ∧ t.shadowRegions = [] ∧
        t.pair.detach = some (m.val, s.now) ∧ (t.mbox m.val).busy = true ∧ t.jobs = s.jobs ∧ t.mem = s.mem))

/-- queue.create of a command queue: UNBOUND at position 0 with scalar registers 0, or in the committed state that a restored
job's record gives it; memory outside the response stays (R186, R474, R475).

queue.bind, queue.resume, queue.sreg, queue.destroy and debug.break on a command queue (R261, R475 to R478): what each does
to the queue before its response; every other queue stays. -/
def Obligations.QueueCommands : Prop :=
  (
  ∀ (s : State) (m : Fin 64), s.memOk → s.accepts (gateScf 0x301) m 0x18 (s.queueCreateFails m.val) → s.arg m.val 4 1 = 0 →
    ∃ t q j, exec (.queueCreate m) s = .next t ∧ t.answered m .ok ∧ t.queue? (s.arg m.val 0 2) = some q ∧
      s.job? (s.arg m.val 2 2) = some j ∧ q.job = s.arg m.val 2 2 ∧ q.state = .unbound ∧ q.base = s.arg m.val 8 8 ∧
      q.slots = s.arg m.val 0x10 4 ∧ q.cq = s.arg m.val 0x14 2 ∧ q.eq = s.arg m.val 0x16 2 ∧
      ((j.restoreQueues.find? fun e => e.1 == q.id) = none →
        q.pos = 0 ∧ q.write = 0 ∧ q.sregs = List.replicate 64 0 ∧ q.laps = [] ∧ q.generate = false) ∧
      (∀ e, (j.restoreQueues.find? fun e => e.1 == q.id) = some e →
        q.pos = e.2.position ∧ q.sregs = e.2.sregs ∧ q.laps = e.2.laps ∧ q.generate = e.2.generate) ∧
      t.rings = s.rings ∧ t.cores = s.cores ∧
      ∀ a, a < State.mboxArea m.val ∨ State.mboxArea m.val + 16 ≤ a → t.byte a = s.byte a) ∧
  (
  ∀ (s : State) (m : Fin 64) (q : CmdQueue), s.queue? (s.arg m.val 0 2) = some q →
    (s.accepts (gateScf 0x302) m 0x30 (s.queueBindFails m.val) → s.arg m.val 0x18 8 = 0 →
      let q1 := { q with
        team := BitVec.ofNat 128 (s.arg m.val 8 16), share := 0, hdr := s.arg m.val 0x20 8, shareOff := s.arg m.val 0x28 8 }
      exec (.queueBind m) s =
        .next ((s.setQueue { q1 with state := if q.state = .unbound then State.readyState q1 else q.state }).finishOk m.val [])) ∧
    (s.accepts (gateScf 0x303) m 3 (s.queueResumeFails m.val) →
      ((q.state = .stopped ∧ s.arg m.val 2 1 = 0) ∨ q.state = .halted → q.status ≠ Status.break_.code →
        let q1 := { q with status := 0, next := q.pos }
        exec (.queueResume m) s = .next ((s.setQueue { q1 with state := State.readyState q1 }).finishOk m.val [])) ∧
      (q.state = .stopped → s.arg m.val 2 1 = 1 →
        let q1 := { q with
          status := 0, pos := q.pos + 1, next := q.pos + 1, count := q.count + 1
          lastOpcode := q.cur.toNat % 4096, lastTag := q.cur.toNat / 65536 }
        exec (.queueResume m) s = .next ((s.setQueue { q1 with state := State.readyState q1 }).finishOk m.val [])) ∧
      (q.state = .halted → q.status = Status.break_.code →
        let q1 := { q with status := 0, next := q.pos, resumedAt := some q.pos }
        exec (.queueResume m) s = .next ((s.setQueue { q1 with state := State.readyState q1 }).finishOk m.val []))) ∧
    (s.accepts (gateScf 0x304) m (s.sregLen m.val) (s.queueSregFails m.val) → s.arg m.val 2 1 = 0 → q.sregs.length = 64 →
      ∃ t q1, exec (.queueSreg m) s = .next t ∧ t.answered m .ok ∧ t.queue? q.id = some q1 ∧ q1 = { q with sregs := q1.sregs } ∧
        ∀ i < 64, q1.sregs[i]? =
          if s.arg m.val 3 1 ≤ i ∧ i < s.arg m.val 3 1 + s.arg m.val 4 1 then
            some (BitVec.ofNat 64 (s.arg m.val (8 + 8 * (i - s.arg m.val 3 1)) 8))
          else q.sregs[i]?) ∧
    (s.accepts (gateScf 0x304) m (s.sregLen m.val) (s.queueSregFails m.val) → s.arg m.val 2 1 = 1 →
      exec (.queueSreg m) s =
        .next (s.finishOk m.val (((q.sregs ++ List.replicate 128 0).drop (s.arg m.val 3 1) |>.take (s.arg m.val 4 1)).flatMap
          fun v : W64 => toLe 8 v.toNat))) ∧
    (s.accepts (gateScf 0x305) m 2 (s.queueDestroyFails m.val) →
      ∃ t, exec (.queueDestroy m) s = .next t ∧ t.answered m .ok ∧ t.queue? q.id = none ∧
        ∀ k, k ≠ s.arg m.val 0 2 → t.queue? k = s.queue? k ∧ t.ring? k = s.ring? k) ∧
    (s.accepts (gateScf 0xC01) m 0x10 (s.debugBreakFails m.val) →
      let kind := s.arg m.val 3 1
      let b : BreakSlot :=
        if kind = 0 then { kind := .off, value := 0, mask := 0 }
        else
          { kind := if kind = 1 then .count else .tag, value := BitVec.ofNat 64 (s.arg m.val 8 8)
            mask := BitVec.ofNat 16 (s.arg m.val 4 2) }
      exec (.debugBreak m) s =
        .next ((s.setQueue { q with breaks := q.breaks.set (s.arg m.val 2 1) b }).finishOk m.val [])))

/-- pace.set: an accepted request where no transition runs sets the requested pace; where the pace that then results is in force
the response follows at once, else a ramp starts; a request during a ramp waits its turn (R529, R532).

Paces: a settled ramp puts the lower of request and limit in force (R529, R532); above a throttle limit for 10 ms the limit
falls by one pace, and after 1 s at or below the release limits it rises by one while it is below the request (R533, R534). -/
def Obligations.PacesAreSet : Prop :=
  (
  ∀ (s : State) (m : Fin 64) (p : Pace), s.accepts { code := 0x801, auth := [.s, .f] } m 1 [] → Pace.ofCode (s.arg m.val 0 1) = some p →
    s.paceWaits m.val = false →
    ∃ t, exec (.paceSet m) s = .next t ∧ t.queues = s.queues ∧ t.cores = s.cores ∧
      (s.pace.ramping = true → t.pace = { s.pace with later := s.pace.later ++ [(m.val, p)] } ∧ t.mem = s.mem) ∧
      (s.pace.ramping = false →
        t.pace.requested = p ∧ t.pace.inForce = s.pace.inForce ∧ t.pace.limit = s.pace.limit ∧
        t.pace.throttled = decide (s.pace.limit.code < p.code) ∧
        (let target := if p.code ≤ s.pace.limit.code then p else s.pace.limit
         (target = s.pace.inForce → t.answered m .ok) ∧
         (target ≠ s.pace.inForce → t.pace.ramping = true ∧ t.pace.waiting = some m.val ∧ (t.mbox m.val).busy = true)))) ∧
  (
  ∀ s : State,
    let target := if s.pace.requested.code ≤ s.pace.limit.code then s.pace.requested else s.pace.limit
    (s.pace.ramping = true → s.pace.waiting = none → s.pace.later = [] →
      exec .paceSettled s = .next { s with pace := { s.pace with ramping := false, inForce := target, waiting := none } }) ∧
    (s.pace.ramping = false → exec .paceSettled s = .next s) ∧
    (∀ p, s.pace.hot = true → 1000000 < s.now - s.pace.movedAt → s.pace.limit = p →
      ∃ t, exec .throttleStep s = .next t ∧ t.pace.limit = (if p = .sprint then .nominal else .frugal) ∧
        t.pace.movedAt = s.now ∧ t.pace.requested = s.pace.requested ∧ t.queues = s.queues ∧ t.cores = s.cores) ∧
    (s.pace.hot = false ∨ s.now - s.pace.movedAt ≤ 1000000 → exec .throttleStep s = .next s) ∧
    (∀ n p, s.pace.coolSince = some n → 100000000 < s.now - n → s.pace.limit = p → p.code < s.pace.requested.code →
      ∃ t, exec .throttleRelease s = .next t ∧ t.pace.limit = (if p = .frugal then .nominal else .sprint) ∧
        t.pace.coolSince = some s.now ∧ t.pace.requested = s.pace.requested ∧ t.queues = s.queues ∧ t.cores = s.cores) ∧
    (s.pace.coolSince = none → exec .throttleRelease s = .next s))

/-! ### Memory, registers and stacks (R11 to R36, R264 to R305) -/

/-- A write changes its own bytes to the bytes written and no other byte; it keeps the memory's canonical form, clears the poison
of whole lines and no other, ends every reservation on its lines, and leaves no host-core copy of its blocks (R36, R268,
R272, R290).

LINE_READ of a line that is not poisoned, by an initiator that R35 lets read it: with at most 8 symbols in error in each
codeword and no die marked or attributed before, the answer is the line's data, memory stays, and `ecc_ce` counts the
codewords corrected; a poisoned line answers FAULT and none of its data (R270 to R273).

LINE_WRITE within one line that is not poisoned, or of a whole line, writes its bytes; an access that its region refuses has
no effect besides the answer (R35, R267, R272). -/
def Obligations.StackLinesAndStores : Prop :=
  (
  ∀ (s : State) (a : Nat) (bs : List Byte), s.memOk →
    let t := s.store a bs
    t.memOk ∧ t.bytes a bs.length = bs ∧ (∀ b, b < a ∨ a + bs.length ≤ b → t.byte b = s.byte b) ∧
      (∀ l, l ∈ t.poisoned ↔ l ∈ s.poisoned ∧ ¬ (a ≤ l ∧ l + 256 ≤ a + bs.length)) ∧
      (∀ r ∈ t.reservations, ¬ (r.2 < a + bs.length ∧ a < r.2 + 256)) ∧
      (∀ b ∈ t.caches, ¬ (b.addr < a + bs.length ∧ a < b.addr + 64)) ∧
      t.queues = s.queues ∧ t.rings = s.rings ∧ t.cores = s.cores ∧ t.mailboxes = s.mailboxes) ∧
  (
  ∀ (s : State) (src : Initiator) (a : Nat) (err : LineErr), isEdern a = true → s.refusal src false a 1 = none →
    (s.poisoned.contains (a / 256 * 256) = false → err.first.length ≤ 8 → err.second.length ≤ 8 →
      (s.stack (State.stackOf a)).markedDie = none → (s.stack (State.stackOf a)).corrected = [] → State.stackOf a < s.edern.length →
      ∃ t, exec (.lineRead src a err) s = .next t ∧ t.replyStatus = 0 ∧ t.reply = s.bytes (a / 256 * 256) 256 ∧
        t.mem = s.mem ∧ t.poisoned = s.poisoned ∧ t.jobs = s.jobs ∧ t.queues = s.queues ∧
        (t.stack (State.stackOf a)).eccCe = (s.stack (State.stackOf a)).eccCe +
          ([err.first, err.second].filter fun e => !e.isEmpty).length) ∧
    (s.poisoned.contains (a / 256 * 256) = true →
      ∃ t, exec (.lineRead src a err) s = .next t ∧ t.replyStatus = Status.fault.code ∧ t.reply = [] ∧
        s.faultsEver < t.faultsEver)) ∧
  (
  ∀ (s : State) (src : Initiator) (a : Nat) (bs : List Byte), isEdern a = true →
    (s.refusal src true a bs.length = none → 0 < bs.length → a % 256 + bs.length ≤ 256 →
      (s.poisoned.contains (a / 256 * 256) = false ∨ bs.length = 256) →
      exec (.lineWrite src a bs) s = .next { s.store a bs with replyStatus := 0, reply := [] }) ∧
    (∀ st, s.refusal src true a bs.length = some st →
      exec (.lineWrite src a bs) s = .next { s with replyStatus := st.code, reply := [] }))

/-- STACK_AMO on an aligned word of Edern memory in a line that is not poisoned: the answer is the word held, and the stack holds
the result of the operation in its place (R268).

PATROL_READ and REFRESH: a patrol read that is due and finds a clean line steps to the next line and changes no memory; one
that is not due does nothing; refresh runs at half the interval above 85 °C (R274, R275). -/
def Obligations.StackAtomicsAndPatrol : Prop :=
  (
  ∀ o ∈ ([(.swap, fun _ _ v => v), (.add, fun n old v => (old + v) % 2 ^ n), (.xor, fun _ old v => old ^^^ v),
      (.and, fun _ old v => old &&& v), (.or, fun _ old v => old ||| v), (.minu, fun _ old v => min old v),
      (.maxu, fun _ old v => max old v),
      (.min, fun n old v => if (BitVec.ofNat n v).toInt < (BitVec.ofNat n old).toInt then v else old),
      (.max, fun n old v => if (BitVec.ofNat n old).toInt < (BitVec.ofNat n v).toInt then v else old)] :
      List (AmoOp × (Nat → Nat → Nat → Nat))),
    ∀ (s : State) (a : Nat) (double : Bool) (v : W64), s.memOk →
      let n := if double then 8 else 4
      a % n = 0 → isEdern a = true → s.poisonIn a n = false →
      ∃ t, exec (.stackAmo a o.1 double v) s = .next t ∧ t.replyStatus = 0 ∧ t.reply = s.bytes a n ∧
        t.read a n = o.2 (8 * n) (s.read a n) (v.toNat % 2 ^ (8 * n)) ∧
        (∀ b, b < a ∨ a + n ≤ b → t.byte b = s.byte b) ∧ t.queues = s.queues ∧ t.cores = s.cores) ∧
  (
  ∀ (s : State) (st : Fin 8),
    (s.power.tested = true → Patrol.due (s.stack st.val) s.now = true →
      s.physPoisoned (st.val * stackStride + (s.stack st.val).patrolPos) = false →
      (s.stack st.val).patrolPos / 256 + 1 < Patrol.lines →
      exec (.patrolRead st { first := [], second := [] }) s =
        .next { s with edern := s.edern.modify st.val fun e => { e with patrolPos := e.patrolPos + 256 } }) ∧
    (∀ err, s.power.tested = false ∨ Patrol.due (s.stack st.val) s.now = false → exec (.patrolRead st err) s = .next s) ∧
    exec (.refresh st) s =
      .next { s with edern := s.edern.modify st.val fun e => { e with refreshHalved := decide (85 < e.temp) } })

/-- UPDATE_INVOCATION: none runs for a job whose training step is skipped (R373); one whose program and streams pass their checks
runs over its units and reports (R279, R284); one that fails a check changes nothing but its report; one of a chain runs only
in its bucket's UPDATE entry, as that entry issues it and after overlapping ones of earlier buckets, and the entry ends with the
last piece (R279, R285, R352, R358). Early packets that wait may then go on (R324). -/
def Obligations.UpdateInvocationRuns : Prop :=
  ∀ (s : State) (inv : Invocation) (j : Job), s.job? inv.job = some j →
    let hs := inv.streams.map BitVec.toNat
    let fails := Update.progFails s j inv.stack inv.prog hs inv.params inv.u0 inv.u1
    let streams := Update.used (Update.find s j inv.stack inv.prog hs).1 (Update.tensors s j hs)
    (inv.chain = none → j.skipping = true → exec (.updateInvocation inv) s = .next s.settle) ∧
    (inv.chain = none → s.unfit = false → j.phase = .running → j.skipping = false →
      (worst fails = none → s.poisoned = [] → inv.u1 ≤ Update.unitsOf streams →
        ∃ s1, Update.apply s j inv.stack inv.prog hs inv.params inv.u0 inv.u1 = .ok s1 ∧ s1.queues = s.queues ∧
          exec (.updateInvocation inv) s = .next (s1.reportUpdate inv .ok).settle) ∧
      (worst fails = none → ∀ s1, Update.apply s j inv.stack inv.prog hs inv.params inv.u0 inv.u1 = .ok s1 →
        exec (.updateInvocation inv) s = .next (s1.reportUpdate inv .ok).settle) ∧
      (∀ f, worst fails = some f → s.early = [] →
        exec (.updateInvocation inv) s = .next { s with replyStatus := f.1.code })) ∧
    (∀ c b x, inv.chain = some (c, b) → s.spot? c b = some x →
      (x.x.stage ≠ .update ∨ State.issues x inv = false ∨ s.waitsForEarlier x inv.stack = true →
        exec (.updateInvocation inv) s = .next s.settle) ∧
      (x.x.stage = .update → State.issues x inv = true → s.waitsForEarlier x inv.stack = false → ∀ y, (s.invoke inv).spot? c b = some y →
        exec (.updateInvocation inv) s =
          .next (if State.updateDone y then (s.invoke inv).entryDone c b else s.invoke inv).settle))

/-- A generation on its way to the twin: a stack that has streamed its granules is noted, memory and queues stay (R303, R304);
the confirmed generation becomes SHADOWED and the job's restore point (R301, R304, R408).

LOCAL_RESTORE: after it every byte of the checkpoint set reads as the generation holds it and every other byte as before;
the job is at the generation's training step and lap counter, newer generations are gone, no cached block of the set is left,
and the job's bound queues stay FROZEN (R302). -/
def Obligations.GenerationsAndRestore : Prop :=
  (
  (∀ (s : State) (job : Nat) (st : Fin 8) (j : Job) (g : Gen), s.job? job = some j → s.shadowing = true →
    State.toStream j st.val = some g → (g.poisoned.any fun l => (State.deltaGranules j g st.val).contains (l / State.granule * State.granule)) = false →
    ∃ t j' g', exec (.shadowStream job st) s = .next t ∧ t.job? job = some j' ∧ g' ∈ j'.gens ∧ g'.step = g.step ∧
      st.val ∈ g'.streamed ∧ t.mem = s.mem ∧ t.queues = s.queues ∧ t.groups = s.groups) ∧
  (∀ (s : State) (job step : Nat) (j : Job) (g : Gen), s.job? job = some j → g ∈ j.gens → g.step = step → g.state = .frozen →
    (∀ k < 8, k ∈ g.streamed) → streamRefused ∉ g.streamed → recordAddr ∈ g.sent → g.lostLocal = false →
    ∃ t j', exec (.shadowConfirm job step) s = .next t ∧ t.job? job = some j' ∧ j'.restorePoint = max j.restorePoint step ∧
      { g with state := .shadowed, confirmed := g.sent } ∈ j'.gens ∧ (∀ x ∈ j'.gens, x.step < step → x.state = .released) ∧
      t.mem = s.mem ∧ t.queues = s.queues)) ∧
  (
  ∀ (s : State) (job step : Nat) (j : Job) (g : Gen), s.job? job = some j → State.localGen? j step = some g → s.memOk →
    Memory.wf g.cells = true → j.phase = .restarting → j.restart.restorePoint = some step → j.restart.restored = false →
    ∃ t j', exec (.localRestore job step) s = .next t ∧ t.job? job = some j' ∧ j'.step = step ∧ j'.lap = g.lap ∧
      j'.restart.restored = true ∧ (∀ x ∈ j'.gens, x.step ≤ step) ∧
      (∀ a, t.byte a = if j.ranges.any fun r => r.contains a then Memory.get g.cells a else s.byte a) ∧
      (∀ b ∈ t.caches, (j.ranges.any fun r => r.contains b.addr) = false) ∧
      (∀ q ∈ t.queues, q.job = job → q.state = .frozen ∨ q.state = .unbound) ∧
      (∀ q ∈ s.queues, q.job ≠ job → q ∈ t.queues))

/-- Writes of register fields with a range: the Judge's rate, the patrol period and the Track's watchdog limit take a value in
their range and ignore any other, and nothing else changes; a write that R35 refuses only answers (R11, R13, R277, R383,
R424).

READ_CLEAR of an error counter: the answer is its value, the counter becomes 0, and every other counter stays (R11, R277,
R343).

DEBUG_ACCESS: a FUSED or RETIRED heat reads 0 and answers ABSENT; nothing else changes (R31). LINK_ENABLE, TRACE_ENABLE,
ALERT_DRIVE and a kick of the watchdog change their own register (R332, R343, R444, R463, R528). -/
def Obligations.RegistersAndDebug : Prop :=
  (
  ∀ (s : State) (src : Initiator) (v : W64), src = .starter ∨ src = .debug →
    let blockAt := fun b o => csrBase + b * 0x100_0000 + o
    let ok := fun (s : State) => { s with replyStatus := 0, reply := [] }
    (∀ k < 3,
      let rate := v.toNat % 32
      exec (.registerWrite src (blockAt (0x18 + k) 0) (toLe 8 v.toNat)) s =
        .next (ok (if 10 ≤ rate ∧ rate ≤ 16 then { s with judges := s.judges.modify k fun x => { x with rate := rate } } else s))) ∧
    (∀ k < 8,
      let p := v.toNat % 512
      exec (.registerWrite src (blockAt (0x20 + k) 0x100) (toLe 8 v.toNat)) s =
        .next (ok (if 60 ≤ p ∧ p ≤ 480 then { s with edern := s.edern.modify k fun x => { x with patrolPeriod := p } } else s))) ∧
    (∀ k < 2,
      let l := v.toNat % 2 ^ 20
      exec (.registerWrite src (blockAt (0x30 + k) 0) (toLe 8 v.toNat)) s =
        .next (ok (if 10000 ≤ l ∧ l ≤ 500000 then { s with tracks := s.tracks.modify k fun x => { x with limit := l } } else s))) ∧
    exec (.registerWrite (.hostCore 0) (blockAt 0x18 0) (toLe 8 v.toNat)) s =
      .next { s with replyStatus := Status.noperm.code, reply := [] }) ∧
  (
  ∀ (s : State) (src : Initiator), src = .starter ∨ src = .debug →
    (∀ p < 7,
      exec (.readClear src (csrBase + (0x10 + p) * 0x100_0000 + 0x30)) s =
        .next { s.modPort p fun x => { x with crcErr := 0 } with
          replyStatus := 0, reply := toLe 8 (BitVec.ofNat 64 (s.port p).crcErr).toNat }) ∧
    (∀ e < 8,
      exec (.readClear src (csrBase + (0x20 + e) * 0x100_0000 + 8)) s =
        .next { s with
          edern := s.edern.modify e fun x => { x with eccCe := 0 }
          replyStatus := 0, reply := toLe 8 (BitVec.ofNat 64 (s.stack e).eccCe).toNat })) ∧
  (
  ∀ s : State,
    (∀ (h : Fin 104) (o : Nat) (w : Option W64),
      (s.unitMap.state[h.val]? = some .fused ∨ s.unitMap.state[h.val]? = some .retired →
        exec (.debugAccess h o w) s = .next { s with replyStatus := Status.absent.code, reply := toLe 8 0 }) ∧
      (s.unitMap.state[h.val]? = some .active ∨ s.unitMap.state[h.val]? = some .spare →
        exec (.debugAccess h o w) s = .next { s with replyStatus := 0, reply := if w.isSome then [] else toLe 8 0 })) ∧
    (∀ p : Fin 7, p.val < s.ports.length →
      (∃ t, exec (.linkEnable p false) s = .next t ∧ (t.port p.val).state = .off ∧ (t.port p.val).enable = false ∧
        ∀ k, k ≠ p.val → t.port k = s.port k) ∧
      ((s.port p.val).enable = false →
        ∃ t, exec (.linkEnable p true) s = .next t ∧ (t.port p.val).state = .training ∧ (t.port p.val).enabledAt = s.now ∧
          ∀ k, k ≠ p.val → t.port k = s.port k) ∧
      ((s.port p.val).enable = true → exec (.linkEnable p true) s = .next s) ∧
      (s.jobs = [] → ∃ t, exec (.loopback p true) s = .next t ∧ (t.port p.val).loopback = true ∧ (t.port p.val).state ≠ .up ∧
        ((s.port p.val).state = .up → s.faultsEver < t.faultsEver) ∧ ∀ k, k ≠ p.val → t.port k = s.port k) ∧
      ((s.port p.val).state ≠ .up → (s.port p.val).state ≠ .retrain →
        exec (.loopback p true) s = .next (s.modPort p.val fun x => { x with loopback := true }))) ∧
    (∀ (n : Fin 32) (on : Bool), n.val < s.cores.length →
      exec (.traceEnable n on) s = .next (s.setCore n.val { s.core n.val with
        trace := on, traceCnt := if on && !(s.core n.val).trace then 0 else (s.core n.val).traceCnt })) ∧
    (∀ on : Bool, ∃ t, exec (.alertDrive on) s = .next t ∧ t.inputs.drive = on ∧ t.queues = s.queues ∧ t.cores = s.cores) ∧
    (∀ l : W32, exec (.starterWatchdogKick l) s =
      .next { s with starter := { s.starter with wdogLimit := l, kickedAt := s.now } }))

/-! ### Reset, power, board inputs and service ports (R490, R518 to R562) -/

/-- RESET_N asserted resets the device: it is held, holds no job, queue, session or group, its host cores are OFF, and the unit
map, the fault log, the owner keys, the blown fuses, die marks and the serial stay; what is left of memory is the boot store
(R22, R490, R544). Asserting it again, or deasserting it where it is deasserted, changes nothing.

The Starter's watchdog: a count within the limit does nothing, one above it raises WDOG once and writes to the console, and
one above twice the limit resets the device with last_reset 3 (R463, R464).

Release from reset: with power good, RESET_N deasserted and no test of the board, the hold ends, the timer starts at 0, the
straps are latched and every Ethernet port takes its speed from them, and the unit map is the valid copy with the highest generation
count (R24, R28, R545, R552); a copy that fails its CRC raises NMI cause BOOTSTORE and is recorded (R462; the model's reading, log
137); otherwise nothing changes. -/
def Obligations.ResetsAndRelease : Prop :=
  (
  ∀ s : State, s.memOk →
    (s.inputs.resetN = true → s.power.held = false →
      ∃ t, exec (.resetN true) s = .next t ∧ t.power.held = true ∧ t.jobs = [] ∧ t.queues = [] ∧ t.rings = [] ∧
        t.sessions = [] ∧ t.groups = [] ∧ t.chains = [] ∧ t.shadows = [] ∧ (∀ c ∈ t.cores, c.state = .off) ∧
        t.dev = .reset ∧ t.unitMap = s.unitMap ∧ t.unfit = s.unfit ∧ t.serial = s.serial ∧
        t.starter.owners = s.starter.owners ∧ t.starter.fwBlown = s.starter.fwBlown ∧ t.starter.osBlown = s.starter.osBlown ∧
        t.starter.lastReset = 1 ∧ t.edern.map Edern.markedDie = s.edern.map Edern.markedDie ∧ t.pair.mode = .unpaired ∧
        (∀ a, regionOf a ≠ .boot → t.byte a = 0) ∧
        ((s.inputs.chatter.getD 0 (0, 0)).1 ≠ 10000 → t.faultLog = s.faultLog ∧ ∀ a, regionOf a = .boot → t.byte a = s.byte a)) ∧
    (∀ b, s.inputs.resetN = !b → exec (.resetN b) s = .next s) ∧
    (s.inputs.resetN = false →
      ∃ t, exec (.resetN false) s = .next t ∧ t.inputs.resetN = true ∧ t.power = s.power ∧ t.dev = s.dev ∧ t.queues = s.queues)) ∧
  (
  ∀ s : State,
    let n := s.now - s.starter.kickedAt
    let l := s.starter.wdogLimit.toNat
    (n ≤ l → exec .starterWatchdog s = .next s) ∧
    (l < n → n ≤ 2 * l → s.starter.nmi.getLsbD 3 = false →
      ∃ t, exec .starterWatchdog s = .next t ∧ t.starter.nmi.getLsbD 3 = true ∧ t.console.length = s.console.length + 1 ∧
        t.jobs = s.jobs ∧ t.queues = s.queues ∧ t.mem = s.mem ∧ t.power = s.power) ∧
    (2 * l < n → s.power.held = false →
      ∃ t, exec .starterWatchdog s = .next t ∧ t.power.held = true ∧ t.starter.lastReset = 3 ∧ t.jobs = [] ∧
        t.unitMap = s.unitMap)) ∧
  (
  ∀ (s : State) (st : Straps),
    let free := s.power.held = true ∧ s.power.good = true ∧ s.inputs.resetN = true ∧ s.extestHolds = false
    let valid := fun c : MapCopy => crc32c (State.mapBytes c.map) = c.crc
    (free → s.starter.stopped = false →
      ∃ t, exec (.resetRelease st) s = .next t ∧ t.power.held = false ∧ t.now = 0 ∧ t.inputs.straps = st ∧
        (∀ e ∈ t.eth, e.speed = st.ethSpeed) ∧
        (t.starter.trialBoot = true ↔ s.starter.fwTrial = true ∨ s.starter.osTrial = true) ∧
        t.jobs = s.jobs ∧ t.cores = s.cores ∧
        ((∀ c ∈ s.mapCopies, valid c) → t.mem = s.mem ∧ t.starter.nmi = s.starter.nmi ∧ t.faultsEver = s.faultsEver) ∧
        ((∃ c ∈ s.mapCopies, ¬ valid c) → t.starter.nmi.getLsbD 4 = true ∧ s.faultsEver < t.faultsEver) ∧
        ((∃ c ∈ s.mapCopies, valid c) →
          (∃ c ∈ s.mapCopies, valid c ∧ t.unitMap = c.map) ∧ ∀ c ∈ s.mapCopies, valid c → c.map.gen ≤ t.unitMap.gen)) ∧
    (free → s.starter.stopped = true →
      ∃ t, exec (.resetRelease st) s = .next t ∧ t.power.held = false ∧ t.starter.stopped = false ∧
        s.faultsEver < t.faultsEver) ∧
    (¬ free → exec (.resetRelease st) s = .next s))

/-- The 48 V input: a rise starts the regulators, PWR_GOOD follows where the rails are on, a dip deasserts PWR_GOOD, and one of
more than 50 µs turns every rail off and leaves the device held (R537, R545).

PAIR_PRESENT, ALERT_N and the check 1 µs after the device released the line: a level that does not change changes nothing;
a change of PAIR_PRESENT is noted; ALERT_N asserted by another driver posts ALERT once and masks further ones (R553 to
R557). -/
def Obligations.PowerAndBoardInputs : Prop :=
  (
  ∀ s : State,
    (s.power.vin = false → exec .vinRise s = .next { s with power := { s.power with vin := true, rails := true } }) ∧
    (s.power.vin = true → exec .vinRise s = .next s) ∧
    (s.power.vin = true → s.power.rails = true →
      exec .pwrGood s = .next { s with power := { s.power with good := true } }) ∧
    (s.power.vin = true → ∀ ns, ns ≤ 50000 →
      exec (.vinFall ns) s = .next { s with power := { s.power with good := false } }) ∧
    (s.power.vin = true → ∀ ns, 50000 < ns →
      ∃ t, exec (.vinFall ns) s = .next t ∧ t.power.vin = false ∧ t.power.good = false ∧ t.power.rails = false ∧
        t.power.held = true ∧ t.jobs = [] ∧ t.unitMap = s.unitMap ∧ t.faultLog = s.faultLog ∧ t.serial = s.serial)) ∧
  (
  ∀ s : State,
    (∀ b, s.power.held = true ∨ s.inputs.pairPresent = b → exec (.pairPresent b) s = .next s) ∧
    (∀ b, s.power.held = false → s.inputs.pairPresent ≠ b →
      ∃ t, exec (.pairPresent b) s = .next t ∧ t.inputs.pairPresent = b ∧ t.queues = s.queues ∧ t.cores = s.cores) ∧
    (∀ b, s.power.held = true ∨ s.inputs.alertN = !b → exec (.alertN b) s = .next s) ∧
    (s.power.held = false → s.inputs.alertN = true → s.inputs.drive = false → s.inputs.masked = false →
      ∃ t, exec (.alertN true) s = .next t ∧ t.inputs.alertN = false ∧ t.inputs.masked = true ∧ s.events < t.events ∧
        t.queues = s.queues ∧ t.cores = s.cores) ∧
    (s.power.held = false → s.inputs.alertN = true → s.inputs.drive = true →
      exec (.alertN true) s = .next { s with inputs := { s.inputs with alertN := false } }) ∧
    (s.power.held = false → s.inputs.alertN = false → s.inputs.drive = false →
      ∃ t, exec (.alertN false) s = .next t ∧ t.inputs.alertN = true ∧ t.inputs.highSince = some s.now ∧ t.queues = s.queues) ∧
    (∀ n, s.inputs.releasedAt = some n → 100 ≤ s.now - n → s.inputs.alertN = true →
      exec .alertReleaseCheck s = .next { s with inputs := { s.inputs with releasedAt := none } }) ∧
    (s.inputs.releasedAt = none → exec .alertReleaseCheck s = .next s))

/-- The SMBus target answers from event 2 of power-up on, and changes nothing else: state, temperatures, serial, site, the
identity of the board and its own address while it drives ALERT_N; measured words are free (R558 to R560).

Writes to ALERT_STATUS clear the bits written as 1, writes to ALERT_MASK set the mask, and the device drives ALERT_N where an
unmasked status bit is left (R558, R560). -/
def Obligations.SmbusAndAlert : Prop :=
  (
  ∀ s : State, s.power.good = true →
    let told := fun (bs : List Byte) => { s with replyStatus := 0, reply := bs }
    exec .smbState s = .next (told (toLe 1 s.dev.code)) ∧ exec .smbSerial s = .next (told (toLe 8 s.serial.toNat)) ∧
      exec .smbSite s = .next (told [s.inputs.straps.siteId]) ∧
      exec (.alertStatus none) s = .next (told [s.inputs.alertStatus]) ∧
      exec (.alertMask none) s = .next (told [s.inputs.alertMask]) ∧
      (∃ t, exec .smbTemp s = .next t ∧ t.reply.length = 5 ∧ t.mem = s.mem ∧ t.queues = s.queues) ∧
      (∀ o, ∃ b, exec (.fruRead o) s = .next (told [b])) ∧
      (s.inputs.drive = true → exec .alertResponseAddress s = .next (told [0x98])) ∧
      (s.inputs.drive = false → exec .alertResponseAddress s = .next { s with replyStatus := Status.failed.code, reply := [] }) ∧
      ∀ c ∈ ([.smbPower, .smbVin] : List Instr),
        ∃ t, exec c s = .next t ∧ t.reply.length = 2 ∧ t.free = s.free + 1 ∧ t.mem = s.mem ∧ t.queues = s.queues) ∧
  (
  ∀ (s : State) (v : Byte), s.power.good = true →
    (∃ t, exec (.alertStatus (some v)) s = .next t ∧ t.inputs.alertStatus = s.inputs.alertStatus &&& ~~~v ∧
      t.inputs.alertMask = s.inputs.alertMask ∧
      (t.inputs.drive = true ↔ s.inputs.alertStatus &&& ~~~v &&& ~~~s.inputs.alertMask ≠ 0) ∧ t.queues = s.queues) ∧
    (∃ t, exec (.alertMask (some v)) s = .next t ∧ t.inputs.alertMask = v ∧ t.inputs.alertStatus = s.inputs.alertStatus ∧
      (t.inputs.drive = true ↔ s.inputs.alertStatus &&& ~~~v ≠ 0) ∧ t.queues = s.queues))

/-- The test access port: an instruction that tests the board holds the device in reset, the others select their register and
change nothing else; SAMPLE/PRELOAD reads the levels and loads the boundary register (R562). -/
def Obligations.TestAccessPort : Prop :=
  (∀ r ∈ ([(.tapExtest, 0x00), (.extestPulse, 0x03), (.extestTrain, 0x04)] : List (Instr × Byte)), ∀ s : State,
    ∃ t, exec r.1 s = .next t ∧ t.inputs.tap = r.2 ∧ t.power.held = true ∧ t.unitMap = s.unitMap ∧ t.faultLog = s.faultLog) ∧
  ∀ s : State,
    exec .tapDebug s = .next { s with inputs := { s.inputs with tap := 0x10 } } ∧
      exec .trstN s = .next { s with inputs := { s.inputs with tap := 0x02 } } ∧
      exec .tapIdcode s =
        .next { s with inputs := { s.inputs with tap := 0x02 }, replyStatus := 0, reply := [0x6F, 0x0A, 0x80, 0x1D] } ∧
      (∀ c, State.tapListed c = false → exec (.tapBypass c) s = .next { s with inputs := { s.inputs with tap := 0xFF } }) ∧
      ∀ load, ∃ t, exec (.samplePreload load) s = .next t ∧ t.inputs.tap = 0x01 ∧
        t.inputs.boundary = load.getD s.boundaryLevels ∧ t.reply.length = 15 ∧ t.power = s.power ∧ t.queues = s.queues

/-- The Pacer's start-up: the fourth window in a row within 131 of the first of them and within 1,310 of 65,536 locks the
crystal, and a failing window begins the run anew (R519). A locked Pacer takes a window within 1,310 as good, counts one
beyond, and with the second in a row loses the crystal, counts the switch and raises NMI PACER (R462, R521).

The loss of the crystal, in a device that holds no job and whose links are down: state FAILED, the domains on the internal
oscillator, one more switch, NMI PACER, one fault record, and CLOCK_LOST among the events (R521, R524).

The internal oscillator's failure makes the device unfit (R523); a crystal that is not stable 100 ms after reset is recorded
once (R525). -/
def Obligations.ClockFailures : Prop :=
  (
  ∀ (s : State) (n : Nat), s.power.held = false → s.early = [] →
    let near := fun a b tol : Nat => a ≤ b + tol ∧ b ≤ a + tol
    let first := if s.pacer.goodRun = 0 then n else s.pacer.first
    (s.pacer.state = 0 → near n 65536 1310 → near n first 131 → s.pacer.goodRun = 3 →
      exec (.pacerWindow n) s = .next { s with pacer := { s.pacer with
        lastCnt := n, goodRun := 4, first := first, state := 1, crystal := true, switchCnt := s.pacer.switchCnt + 1, bad := 0 } }) ∧
    (s.pacer.state = 0 → near n 65536 1310 → near n first 131 → s.pacer.goodRun ≠ 3 →
      exec (.pacerWindow n) s = .next { s with pacer := { s.pacer with lastCnt := n, goodRun := s.pacer.goodRun + 1, first := first } }) ∧
    (s.pacer.state = 0 → ¬ (near n 65536 1310 ∧ near n first 131) →
      exec (.pacerWindow n) s = .next { s with pacer := { s.pacer with lastCnt := n, goodRun := 0 } }) ∧
    (s.pacer.state = 1 → near n 65536 1310 →
      exec (.pacerWindow n) s = .next { s with pacer := { s.pacer with lastCnt := n, bad := 0 } }) ∧
    (s.pacer.state = 1 → ¬ near n 65536 1310 → s.pacer.bad = 0 →
      exec (.pacerWindow n) s = .next { s with pacer := { s.pacer with lastCnt := n, failCnt := s.pacer.failCnt + 1, bad := 1 } })) ∧
  (
  ∀ (s : State) (n : Nat), s.power.held = false → s.pacer.state = 1 → s.pacer.bad ≠ 0 →
    ¬ (n ≤ 65536 + 1310 ∧ 65536 ≤ n + 1310) → s.jobs = [] → s.early = [] → s.sessions = [] → s.poisoned = [] → (∀ p ∈ s.ports, p.state = .off) →
    (∀ e ∈ s.eth, e.up = false) →
    ∃ t, exec (.pacerWindow n) s = .next t ∧ t.pacer.state = 2 ∧ t.pacer.crystal = false ∧
      t.pacer.switchCnt = s.pacer.switchCnt + 1 ∧ t.pacer.failCnt = s.pacer.failCnt + 1 ∧ t.starter.nmi.getLsbD 0 = true ∧
      t.faultsEver = s.faultsEver + 1 ∧ s.events + 2 ≤ t.events ∧ t.inputs.alertStatus.getLsbD 0 = true ∧ t.queues = s.queues) ∧
  (
  ∀ s : State, s.power.held = false →
    (s.pacer.intFault = false → s.jobs = [] → s.early = [] → s.poisoned = [] →
      ∃ t, exec .internalOscillatorFail s = .next t ∧ t.pacer.intFault = true ∧ t.unfit = true ∧
        t.faultsEver = s.faultsEver + 1 ∧ t.unitMap = s.unitMap) ∧
    (s.pacer.state = 0 → s.pacer.lateNoted = false → 10000000 < s.now → s.poisoned = [] →
      ∃ t, exec .crystalStartTimeout s = .next t ∧ t.pacer.lateNoted = true ∧ t.faultsEver = s.faultsEver + 1 ∧
        t.queues = s.queues ∧ t.unitMap = s.unitMap) ∧
    (s.now ≤ 10000000 ∨ s.pacer.state ≠ 0 ∨ s.pacer.lateNoted = true → exec .crystalStartTimeout s = .next s))

/-- A reading of the sensors below every trip limit sets the temperature registers, and each stack refreshes at half the interval
exactly where its hottest DRAM die is above 85 °C (R274, R533); one of a hub above 110 °C turns every rail off and leaves the
device held (R535).

PHOTO_DONE without one in flight does nothing; else the count of those completed is its number, the next one waiting is in
flight, every Track carries the number as its marker, and PHOTO_DONE is posted (R417 to R419). -/
def Obligations.SensorsAndPhotoFinish : Prop :=
  (
  ∀ (s : State) (r : SensorReading), SensorReading.wf r = true → s.power.held = false → s.early = [] →
    (r.cd0 ≤ 110 → r.cd1 ≤ 110 → r.hub ≤ 110 → (∀ d ∈ r.dram, d ≤ 105) → (∀ d ∈ r.optics, d ≤ 95) →
      ∃ t, exec (.sensorReading r) s = .next t ∧ t.temps.cd0 = r.cd0 ∧ t.temps.cd1 = r.cd1 ∧ t.temps.hub = r.hub ∧
        t.temps.dram ∈ r.dram ∧ (∀ d ∈ r.dram, d ≤ t.temps.dram) ∧ t.mem = s.mem ∧ t.jobs = s.jobs ∧ t.queues = s.queues ∧
        (∀ k < 8, ∀ e, t.edern[k]? = some e → (e.refreshHalved = true ↔ 85 < r.dram.getD k 0)) ∧ t.power = s.power) ∧
    (110 < r.hub → s.power.thermTripN = true → s.jobs = [] →
      ∃ t, exec (.sensorReading r) s = .next t ∧ t.power.rails = false ∧ t.power.held = true ∧ t.power.thermTripN = false ∧
        s.faultsEver < t.faultsEver ∧ t.unitMap = s.unitMap)) ∧
  (
  ∀ s : State,
    (s.telem.running = none → exec .photoDone s = .next s) ∧
    (∀ p n, s.telem.running = some (p, n) →
      ∃ t, exec .photoDone s = .next t ∧ t.telem.completed = p.number ∧ t.telem.lastInject = n ∧
        t.telem.queue = s.telem.queue.drop 1 ∧ t.telem.running = s.telem.queue.head?.map (fun q => (q, s.now)) ∧
        (∀ x ∈ t.tracks, x.marker = p.number) ∧ s.events < t.events ∧ t.queues = s.queues))

/-- The events of bring-up, each in its order (R545): the image's check, pairing, links, addressing, the boot of the host cores
that are not retired (R21) and READY, which sets UNFIT on an unfit device (R548); an event whose turn has not come changes nothing.

Self-test without failures completes where every sensor is at its release limit: what is left of memory is the boot store, no
line is poisoned, and every partner port trains (R543, R546); a trial boot that is late resets the device and gives the trial
up (R515). -/
def Obligations.BringUpAndSelfTest : Prop :=
  (
  ∀ s : State,
    (s.power.held = false → s.power.image = false →
      exec (.imageCheck true) s = .next { s with dev := .selftest, power := { s.power with image := true } }) ∧
    (s.power.held = true ∨ s.power.image = true → ∀ ok, exec (.imageCheck ok) s = .next s) ∧
    (s.power.tested = true → s.power.pairing = false → s.inputs.pairPresent = false → s.power.links = false →
      exec .pairingResolved s = .next { s with dev := .links, power := { s.power with pairing := true } }) ∧
    (s.power.tested = true → s.power.links = false → (∀ p < 6, (s.port p).everUp = true) → s.power.pairing = true →
      exec .linksResolved s =
        .next { s with dev := .addressing, power := { s.power with links := true, addressingAt := s.now } }) ∧
    (s.dev = .addressing → (∀ e ∈ s.eth, e.up = false) → exec .addressingResolved s = .next { s with dev := .osBoot }) ∧
    (s.dev ≠ .addressing → exec .addressingResolved s = .next s) ∧
    (∀ entry, s.dev = .osBoot → (∀ c ∈ s.cores, c.state = .off) →
      ∃ t, exec (.osBoot entry) s = .next t ∧ t.cores.length = s.cores.length ∧
        (∀ k < s.cores.length,
          (k ∉ s.retiredCores → (t.core k).state = .running ∧ (t.core k).pc = entry.setWidth 64 ∧ (t.core k).mode = .m) ∧
          (k ∈ s.retiredCores → t.core k = s.core k)) ∧ t.mem = s.mem ∧ t.dev = s.dev) ∧
    (s.dev = .osBoot → s.pacer.crystal = true → s.starter.trialBoot = false → (∃ c ∈ s.cores, c.state ≠ .off) →
      ∃ t, exec .ready s = .next t ∧ t.dev = (if s.unfit then .unfit else .ready) ∧ s.events < t.events ∧ t.unfit = s.unfit ∧
        t.queues = s.queues ∧ t.cores = s.cores) ∧
    (s.dev = .osBoot → s.pacer.crystal = false → exec .ready s = .next s) ∧
    (s.starter.trialBoot = false → exec .trialBootTimeout s = .next s)) ∧
  (
  ∀ s : State,
    (s.memOk → s.power.held = false → s.power.image = true → s.power.tested = false → Temps.released s.temps = true →
      s.ports.length = 7 →
      ∃ t, exec (.selftestComplete []) s = .next t ∧ t.dev = .pairing ∧ t.power.tested = true ∧ t.power.testedAt = s.now ∧
        t.poisoned = [] ∧ (∀ a, regionOf a ≠ .boot → t.byte a = 0) ∧ (∀ a, regionOf a = .boot → t.byte a = s.byte a) ∧
        (∀ p < 6, (t.port p).state = .training ∧ (t.port p).enable = true) ∧ t.unitMap = s.unitMap ∧ t.jobs = s.jobs) ∧
    (s.power.tested = true → ∀ fs, exec (.selftestComplete fs) s = .next s) ∧
    (s.starter.trialBoot = true → s.power.held = false → s.dev.code < DevState.ready.code → 4500000000 < s.now →
      ∃ t, exec .trialBootTimeout s = .next t ∧ t.power.held = true ∧ t.starter.trialFail = true ∧ t.starter.fwTrial = false ∧
        t.starter.osTrial = false ∧ t.starter.fwSlot = s.starter.fwSlot ∧ t.starter.osSlot = s.starter.osSlot ∧
        t.faultsEver = s.faultsEver + 1))

/-! ### The Relay link (R306 to R343) -/

/-- A flit on an UP port, as its codewords and its CRC judge it (R309 to R311, R313, R316, R317): one with a codeword beyond its code,
with a bad CRC, of a reserved type, or the expected DATA flit whose headers do not begin at its pstart, is answered with a NAK of the next
expected sequence number and taken no further; the DATA flit that is expected next is accepted; an IDLE flit's ack passes the sequence
numbers before it. Each codeword that begins in the flit is counted where it was corrected or failed. While no lane can pass the
error rate of R343, memory, jobs, queues and the other ports stay.

The replay timer and the return of acknowledgements: 2,001 cycles after the oldest unacknowledged flit every flit of the replay
buffer goes out again, its bytes unchanged, and the replay is counted, up to eight of one sequence number; ACK_RETURN sends a flit whose
ack is the next expected sequence number (R317, R318). -/
def Obligations.FlitsAndReplay : Prop :=
  (
  ∀ (s : State) (p : Fin 7) (f : Flit), f.wf p = true → (s.port p.val).state = .up →
    let x := s.port p.val
    let ws := State.wordsOf x p.val f
    let whole := ws.all fun w => w.corrects p.val
    let crcOk := f.crc = crc32c (toLe 8 f.control.toNat ++ f.payload)
    let type := (f.control >>> 61).toNat
    let seq := (f.control >>> 49).toNat % 4096
    let ack := (f.control >>> 37).toNat % 4096
    let r := Rx.flit x f.control f.payload
    let starts := r.first.getD 0xFFF = (f.control >>> 11).toNat % 4096
    let quiet := x.laneErrs.length + (ws.map fun w => w.err.length).sum ≤ 672000
    let kept := fun t : State => (quiet → t.mem = s.mem ∧ t.queues = s.queues ∧ t.jobs = s.jobs) ∧
      (∀ k, k ≠ p.val → t.port k = s.port k) ∧
      (t.port p.val).fecCe = x.fecCe + (ws.filter fun w => w.begins && w.corrects p.val && !(w.err.isEmpty && w.erased.isEmpty)).length ∧
      (t.port p.val).fecUe = x.fecUe + (ws.filter fun w => w.begins && !w.corrects p.val).length
    ∃ t, exec (.flitReceived p f) s = .next t ∧
      (¬ crcOk ∨ whole = false ∨ 3 ≤ type ∨ (type = 0 ∧ seq = x.rxNext ∧ ¬ starts) →
        (t.port p.val).rxNext = x.rxNext ∧ (t.port p.val).discarding = true ∧ kept t ∧
        ∃ more, t.out = s.out ++ .flit p.val (FlitImage.form p.val (Ctl.word 2 0 x.rxNext 0 0 0) []) false :: more) ∧
      (crcOk → whole = true → type = 0 → seq = x.rxNext → starts →
        (t.port p.val).rxNext = (x.rxNext + 1) % 4096 ∧ (t.port p.val).discarding = false ∧ kept t) ∧
      (crcOk → whole = true → type = 1 → 0 < (ack + 4096 - x.oldest) % 4096 →
        (ack + 4096 - x.oldest) % 4096 ≤ (x.txNext + 4096 - x.oldest) % 4096 →
        (t.port p.val).oldest = ack ∧ (t.port p.val).replays = 0 ∧ kept t)) ∧
  (
  ∀ (s : State) (p : Fin 7), (s.port p.val).state = .up →
    let x := s.port p.val
    let resent := fun u : State => u.out.filterMap fun o => match o with
      | .flit q f true => if q = p.val then some f else none
      | _ => none
    (x.oldest ≠ x.txNext → 2000 < s.now - x.sentAt.headD s.now → x.replays < 8 →
      ∃ t, exec (.ackTimeout p) s = .next t ∧ (t.port p.val).retryCnt = x.retryCnt + 1 ∧ (t.port p.val).replays = x.replays + 1 ∧
        (t.port p.val).oldest = x.oldest ∧ (t.port p.val).txNext = x.txNext ∧ (t.port p.val).kept = x.kept ∧
        resent t = resent s ++ x.kept ∧ t.mem = s.mem ∧ t.queues = s.queues) ∧
    (x.oldest = x.txNext ∨ s.now - x.sentAt.headD s.now ≤ 2000 → exec (.ackTimeout p) s = .next s) ∧
    (x.rxNext < 4096 → x.txNext < 4096 →
      ∃ (t : State) (f : FlitImage) (more : List Sent), exec (.ackReturn p) s = .next t ∧ t.out = s.out ++ .flit p.val f false :: more ∧
        (f.control >>> 37).toNat % 4096 = x.rxNext ∧ f.crc = crc32c (toLe 8 f.control.toNat ++ f.payload) ∧
        (t.port p.val).sinceAck = 0 ∧ (t.port p.val).rxNext = x.rxNext ∧ t.mem = s.mem ∧ t.queues = s.queues))

/-- A port comes up (R332): lanes lock at 2 ms or later, FEC lock sends HELLO, the partner's HELLO is recorded, and the link is UP
with the partner's full buffers as credits (R322); a port that has not locked resends its training sequence every 100 ms, and
one that was never UP is ABSENT after 30 s. Equal PAIR_SIDE straps keep the pair port DOWN (R333).

Retrains: one that ends within 5 ms brings the port UP again and resends what is not acknowledged; one that takes longer
takes the link DOWN, with a detected fault (R319, R320).

A lane that loses lock is marked, with an event where it was not marked before (R343). A partner port stays UP with up to five
such lanes and retrains beyond them; the pair port goes on at half width after a retrain, or DOWN where both halves hold a failed lane
(R310, R319, R337). A lane without lock that loses it again changes nothing. -/
def Obligations.LinksComeUpAndGo : Prop :=
  (
  ∀ (s : State) (p : Fin 7), (s.port p.val).state = .training →
    let x := s.port p.val
    let put := fun y => { s with ports := s.ports.set p.val y }
    (200000 ≤ s.now - x.enabledAt → exec (.laneLock p) s = .next (put { x with locked := true, lost := 0 })) ∧
    (s.now - x.enabledAt < 200000 → exec (.laneLock p) s = .next s) ∧
    (x.locked = true → exec (.fecLock p) s =
      .next { put { x with fec := true } with out := s.out ++ [.hello p.val (s.ownHello p)] }) ∧
    (x.locked = false → 10000000 ≤ s.now - x.trainedAt →
      exec (.trainingResend p) s = .next { put { x with trainedAt := s.now } with out := s.out ++ [.training p.val] }) ∧
    (x.locked = false → s.now - x.trainedAt < 10000000 → exec (.trainingResend p) s = .next s) ∧
    (x.enable = true → x.everUp = false → 3000000000 < s.now - x.enabledAt →
      exec (.portAbsent p) s = .next (put { x with state := .absent })) ∧
    (∀ h : HelloMsg, x.fec = true → p ≠ 6 ∨ h.pairSide ≠ s.inputs.straps.pairSide →
      ∃ t, exec (.portHello p h) s = .next t ∧ (t.port p.val).partnerId = h.serial ∧ (t.port p.val).partnerPort = h.port.val ∧
        (t.port p.val).helloed = true ∧ t.mem = s.mem ∧ t.jobs = s.jobs ∧ t.queues = s.queues) ∧
    (∀ h : HelloMsg, x.fec = true → p = 6 → h.pairSide = s.inputs.straps.pairSide →
      ∃ t, exec (.portHello p h) s = .next t ∧ (t.port p.val).state = .down ∧ (t.port p.val).cause = 5 ∧ s.events < t.events) ∧
    (x.helloed = true → x.loopback = false → s.pacer.crystal = true →
      ∃ t, exec (.linkUp p) s = .next t ∧ (t.port p.val).state = .up ∧ (t.port p.val).rxNext = 0 ∧
        t.mem = s.mem ∧ t.jobs = s.jobs ∧ t.queues = s.queues) ∧
    (s.pacer.crystal = false → exec (.linkUp p) s = .next s)) ∧
  (
  ∀ (s : State) (p : Fin 7), (s.port p.val).state = .retrain →
    (s.now - (s.port p.val).retrainAt ≤ 500000 →
      ∃ t, exec (.retrainComplete p) s = .next t ∧ (t.port p.val).state = .up ∧ t.mem = s.mem ∧ t.jobs = s.jobs ∧
        t.queues = s.queues ∧ (∀ k, k ≠ p.val → t.port k = s.port k)) ∧
    (s.now - (s.port p.val).retrainAt ≤ 500000 → exec (.retrainTimeout p) s = .next s) ∧
    (500000 < s.now - (s.port p.val).retrainAt → p ≠ 6 → ∀ c ∈ ([.retrainComplete p, .retrainTimeout p] : List Instr),
      ∃ t, exec c s = .next t ∧ (t.port p.val).state = .down ∧ (t.port p.val).cause = 2 ∧ s.faultsEver < t.faultsEver)) ∧
  (
  ∀ (s : State) (p : Fin 7) (l : Fin 128), (s.port p.val).state = .up →
    let x := s.port p.val
    let lanes := fun m : BitVec 128 => ((List.range 128).filter fun i => m.getLsbD i).length
    let marks := fun t : State => ∀ i : Fin 128,
      ((t.port p.val).lost.getLsbD i.val = true ↔ x.lost.getLsbD i.val = true ∨ i = l) ∧
      ((t.port p.val).laneBad.getLsbD i.val = true ↔ x.laneBad.getLsbD i.val = true ∨ i = l)
    (x.lost.getLsbD l.val = true → exec (.laneLockLost p l) s = .next s) ∧
    (p ≠ 6 → x.lost.getLsbD l.val = false → lanes x.lost < 5 →
      ∃ t, exec (.laneLockLost p l) s = .next t ∧ (t.port p.val).state = .up ∧ marks t ∧
        (x.laneBad.getLsbD l.val = false → s.events < t.events) ∧
        (x.laneBad.getLsbD l.val = true → t.mem = s.mem ∧ t.events = s.events) ∧
        t.queues = s.queues ∧ (∀ k, k ≠ p.val → t.port k = s.port k)) ∧
    (p ≠ 6 → x.lost.getLsbD l.val = false → lanes x.lost = 5 → x.retrains = [] →
      ∃ t, exec (.laneLockLost p l) s = .next t ∧ (t.port p.val).state = .retrain ∧ (t.port p.val).retrainAt = s.now ∧
        (t.port p.val).retrainCnt = x.retrainCnt + 1 ∧ marks t ∧ t.jobs = s.jobs ∧ t.queues = s.queues) ∧
    (p = 6 → l.val < 16 → x.lost = 0 → x.half = false → x.retrains = [] →
      ∃ t, exec (.laneLockLost p l) s = .next t ∧ (t.port p.val).state = .retrain ∧ (t.port p.val).half = true ∧ marks t ∧
        t.jobs = s.jobs ∧ t.queues = s.queues) ∧
    (∀ k : Fin 8, p = 6 → 8 ≤ l.val → l.val < 16 → x.lost = 1 <<< k.val → s.pair.episode = none →
      ∃ t, exec (.laneLockLost p l) s = .next t ∧ (t.port p.val).state = .down ∧ (t.port p.val).cause = 6))

/-! ### Packets and the pair (R324 to R342, R400 to R404) -/

/-- Packets of the pair port that pass check 1, from the joined twin where they need it, do what their type says; one that fails
a check is discarded and counted as a hop failure (R330, R331).

PAIRCTL reset from the joined twin resets the device, at most once in any 10 s (R342); an episode of pair events closes after
1 ms without one (R341).

A BEAT from the twin restarts the count of heartbeats and keeps its state and its job entry (R338, R404); nothing else
changes but credits.

A BEAT goes out every 100 µs while the twin is joined: one more beat number and one packet queued or sent; before that
nothing happens (R338).

HEARTBEAT_LOSS: within 80,000 cycles of the last BEAT nothing happens; beyond them a twin that ran no job is recorded as
lost, a pair event is posted, and the device goes on UNPAIRED (R404, R406). -/
def Obligations.PairPackets : Prop :=
  (
  ∀ r ∈ ([(fun k => .starterPacket 6 (.arrives k), .starter, true, fun s k => s.starterIn 6 k), (.beatPacket, .beat, true, State.beatIn),
      (.shadowPacket, .shadow, true, State.shadowIn), (.digestPacket, .digest, true, State.digestIn),
      (.relayPacket, .relay, true, State.relayIn), (.pairctlPacket, .pairctl, false, State.pairctlIn),
      (.pairctlReset, .pairctl, true, State.pairReset)] :
      List ((Packet → Instr) × PType × Bool × (State → Packet → State))),
    ∀ (s : State) (k : Packet), k.wf = true → (s.port 6).state = .up → k.ptype.toNat = r.2.1.code →
      (s.hopOne 6 k = none → (r.2.2.1 = true → s.pair.joined = true) →
        exec (r.1 k) s = .next (r.2.2.2 (s.freeCredits 6 k) k)) ∧
      (∀ m, s.hopOne 6 k = some m → exec (r.1 k) s = .next ((s.freeCredits 6 k).hopFail 6 k m)) ∧
      (s.hopOne 6 k = none → r.2.2.1 = true → s.pair.joined = false →
        exec (r.1 k) s = .next ((s.freeCredits 6 k).hopFail 6 k .hopCheck))) ∧
  (
  ∀ s : State,
    (∀ k : Packet, k.wf = true → (s.port 6).state = .up → k.ptype.toNat = PType.pairctl.code → s.hopOne 6 k = none →
      s.pair.joined = true → leNat (k.payload.take 1) = PairKind.reset.code →
      BitVec.ofNat 64 (leNat ((k.payload.drop 8).take 8)) = s.pair.twinSerial → s.inputs.resetN = true → s.power.held = false →
      ((∀ n, s.pair.resetAt = some n → 1000000000 < s.now - n) →
        ∃ t, exec (.pairctlReset k) s = .next t ∧ t.power.held = true ∧ t.starter.lastReset = 2 ∧ t.jobs = [] ∧
          t.pair.resetAt.isSome = true ∧ t.unitMap = s.unitMap) ∧
      (∀ n, s.pair.resetAt = some n → s.now - n ≤ 1000000000 → exec (.pairctlReset k) s = .next (s.freeCredits 6 k))) ∧
    (∀ n, s.pair.episode = some n → s.now - n ≤ 100000 → exec .pairEpisodeClose s = .next s) ∧
    (∀ n, s.pair.episode = some n → 100000 < s.now - n →
      ∃ t, exec .pairEpisodeClose s = .next t ∧ t.pair.episode = none ∧ t.pair.lossPending = false ∧ t.queues = s.queues)) ∧
  (
  ∀ (s : State) (k : Packet), k.wf = true → (s.port 6).state = .up → k.ptype.toNat = PType.beat.code → s.hopOne 6 k = none →
    s.pair.joined = true →
    ∃ t, exec (.beatPacket k) s = .next t ∧ t.pair.heardAt = some s.now ∧ t.pair.twinState = leNat (k.payload.take 1) ∧
      t.pair.mode = s.pair.mode ∧ t.pair.joined = true ∧ t.mem = s.mem ∧ t.jobs = s.jobs ∧ t.queues = s.queues ∧
      t.groups = s.groups ∧ t.shadows = s.shadows) ∧
  (
  ∀ s : State,
    let packets := fun u : State => (u.out.filter fun o => match o with
      | .packet q _ => q == 6
      | _ => false).length + (u.port 6).sendQ.length
    (s.pair.joined = true → (s.port 6).state = .up → s.power.thermTripN = true → s.starter.stopped = false →
      10000 ≤ s.now - s.pair.beatAt →
      ∃ t, exec .beatSend s = .next t ∧ t.pair.beat = s.pair.beat + 1 ∧ t.pair.beatAt = s.now ∧
        packets t = packets s + 1 ∧
        t.mem = s.mem ∧ t.jobs = s.jobs ∧ t.queues = s.queues) ∧
    (s.pair.joined = false ∨ s.now - s.pair.beatAt < 10000 → exec .beatSend s = .next s)) ∧
  (
  ∀ s : State, s.early = [] →
    (∀ n, s.pair.heardAt = some n → s.now - n ≤ 80000 → exec .heartbeatLoss s = .next s) ∧
    (s.pair.heardAt = none → exec .heartbeatLoss s = .next s) ∧
    (∀ n, s.pair.heardAt = some n → 80000 < s.now - n → s.pair.joined = true → s.pair.twinJobs = [] → s.pair.episode = none →
      s.poisoned = [] →
      ∃ t, exec .heartbeatLoss s = .next t ∧ t.pair.mode = .unpaired ∧ t.pair.joined = false ∧
        t.faultsEver = s.faultsEver + 1 ∧ t.queues = s.queues))

/-- Packets of partner ports that pass check 1: STARTER is handed to the mailbox of its port or ends the request outstanding
(R329); CTRL's notice acts and early packets may go on (R385, R405); one that fails check 1 is discarded and counted.

A STARTER request that comes in: it stands in the mailbox of its port and rings it where the mailbox is free (R329, R467).

A STARTER request that this device sends (R329): on an UP port without a request outstanding it goes out, or waits its turn, as a
packet with the message under the port's next number, and is outstanding from now; where one is outstanding none is sent.

Position discovery (R335, R336): the state goes out again after 1 ms, a device whose state has stood for 100 ms with every
component finite declares and posts the outcome once, and a STARTER request without a response for 100 ms ends with FAILED
(R329). -/
def Obligations.PartnerPackets : Prop :=
  (
  ∀ (s : State) (p : Fin 7) (k : Packet), k.wf = true → (s.port p.val).state = .up →
    (p ≠ 6 → k.ptype.toNat = PType.starter.code →
      (s.hopOne p.val k = none → exec (.starterPacket p (.arrives k)) s = .next ((s.freeCredits p.val k).starterIn p.val k)) ∧
      (∀ m, s.hopOne p.val k = some m → exec (.starterPacket p (.arrives k)) s = .next ((s.freeCredits p.val k).hopFail p.val k m))) ∧
    (k.ptype.toNat = PType.ctrl.code → ∀ n, State.Notice.ofCode (leNat ((k.payload.drop 0).take 8)) = some n →
      let word := fun i : Nat => leNat ((k.payload.drop (8 * i)).take 8)
      (s.hopOne p.val k = none → k.stage = 0xE →
        exec (.ctrlPacket p k) s = .next ((s.freeCredits p.val k).takeNotice p.val k.job.toNat n (BitVec.ofNat 64 (word 1))
          (word 2) (word 3) (k.payload.drop 32)).settle) ∧
      (∀ m, s.hopOne p.val k = some m → exec (.ctrlPacket p k) s = .next ((s.freeCredits p.val k).hopFail p.val k m))) ∧
    (k.ptype.toNat = PType.topo.code → (s.port p.val).torus = true → p ≠ 6 → Pkt.crc k = k.pcrc → k.vc = 3 →
      s.topo.declared = true →
      ∃ t, exec (.topoPacket p k) s = .next t ∧ t.topo = s.topo ∧ t.mem = s.mem ∧ t.jobs = s.jobs ∧ t.queues = s.queues)) ∧
  (
  ∀ (s : State) (p : Fin 7) (k : Packet), k.wf = true → (s.port p.val).state = .up → p ≠ 6 → k.ptype.toNat = PType.starter.code →
    s.hopOne p.val k = none → k.first.getLsbD 0 = false → s.memOk → 49 + p.val < s.mailboxes.length →
    (s.mbox (49 + p.val)).busy = false →
    ∃ t, exec (.starterPacket p (.arrives k)) s = .next t ∧ (t.mbox (49 + p.val)).busy = true ∧
      (t.mbox (49 + p.val)).count = (s.mbox (49 + p.val)).count + 1 ∧
      t.bytes (State.mboxArea (49 + p.val)) (k.payload.take 4096).length = k.payload.take 4096 ∧
      (t.port p.val).starterIn = k.bucket.toNat ∧ t.queues = s.queues) ∧
  (
  ∀ (s : State) (p : Fin 7) (msg : List Byte), (StarterMove.sends msg).wf = true → (s.port p.val).state = .up →
    s.starter.stopped = false →
    let x := s.port p.val
    (x.starterReq = none →
      ∃ t k, exec (.starterPacket p (.sends msg)) s = .next t ∧ (k ∈ (t.port p.val).sendQ ∨ .packet p.val k ∈ t.out) ∧
        k.ptype.toNat = PType.starter.code ∧ k.bucket = BitVec.ofNat 32 x.starterNext ∧ k.first = 0 ∧
        msg.isPrefixOf k.payload = true ∧ k.pcrc = Pkt.crc k ∧ (t.port p.val).starterReq = some (x.starterNext, s.now) ∧
        (t.port p.val).starterNext = (x.starterNext + 1) % 2 ^ 32 ∧ t.mem = s.mem ∧ t.jobs = s.jobs ∧ t.queues = s.queues) ∧
    (x.starterReq.isSome = true → exec (.starterPacket p (.sends msg)) s = .next s)) ∧
  (
  ∀ s : State,
    (s.now - s.topo.sentAt < 100000 → exec .topoSend s = .next s) ∧
    (100000 ≤ s.now - s.topo.sentAt →
      ∃ t, exec .topoSend s = .next t ∧ t.topo = { s.topo with sentAt := s.now } ∧ t.mem = s.mem ∧ t.jobs = s.jobs ∧
        t.queues = s.queues) ∧
    (s.power.links = false ∨ s.topo.checked = true ∨ s.now - s.topo.changedAt < 10000000 → exec .topoDeclare s = .next s) ∧
    (s.power.links = true → s.topo.checked = false → (s.topo.c.all Option.isSome) = true → 10000000 ≤ s.now - s.topo.changedAt →
      ∃ t, exec .topoDeclare s = .next t ∧ t.topo.declared = true ∧ t.topo.checked = true ∧ s.events < t.events ∧
        t.queues = s.queues) ∧
    (∀ (p : Fin 7) n m, (s.port p.val).starterReq = some (n, m) → s.pair.detach = none → 10000000 < s.now - m →
      ∃ t, exec (.starterRequestTimeout p) s = .next t ∧ (t.port p.val).starterReq = none ∧
        t.replyStatus = Status.failed.code ∧ t.mem = s.mem ∧ t.jobs = s.jobs ∧ t.queues = s.queues) ∧
    (∀ p : Fin 7, (s.port p.val).starterReq = none → s.pair.detach = none → exec (.starterRequestTimeout p) s = .next s))

/-! ### Groups and chains (R248, R344 to R385) -/

/-- Packets of a chain (R330, R331): one that its bucket can use now is used and its buffer freed; one that is early waits; any
other is discarded and counted; a group that the device has not joined, or a wrong job, is no packet of a chain.

A PUT packet of a restore transfer between two devices goes on towards the spare with its place and its data unchanged
(R412). -/
def Obligations.ChainAndTransferPackets : Prop :=
  (
  ∀ r ∈ ([(.reducePacket, .reduce), (.putPacket, .put), (.agreePacket, .agree)] : List ((Fin 7 → Packet → Instr) × PType)),
    ∀ (s : State) (p : Fin 7) (k : Packet) (g : Group), k.wf = true → (s.port p.val).state = .up → k.ptype.toNat = r.2.code →
      k.group.toNat ≠ State.transferGroup → s.hopOne p.val k = none → s.group? k.group.toNat = some g → g.job = k.job.toNat →
      s.jobRuns g.job = true →
      (∀ c b, s.turn p.val k = .use c b →
        exec (r.1 p k) s = .next ((s.usePacket p.val k c b).freeCredits p.val k).settle) ∧
      (s.turn p.val k = .later → exec (r.1 p k) s = .next (s.keepEarly p.val k)) ∧
      (s.turn p.val k = .bad → exec (r.1 p k) s = .next ((s.freeCredits p.val k).hopFail p.val k .hopCheck))) ∧
  (
  ∀ (s : State) (p q : Fin 6) (k : Packet) (x : Transfer), k.wf = true → (s.port p.val).state = .up →
    k.ptype.toNat = PType.put.code → k.group.toNat = State.transferGroup → s.hopOne p.val k = none →
    s.transfer? k.job.toNat = some x → q.val < s.ports.length → x.port = some p.val → x.claim = some q.val →
    State.transferExpects x k = true →
    ∃ t out, exec (.putPacket (p.castLE (by decide)) k) s = .next t ∧
      (out ∈ (t.port q.val).sendQ ∨ .packet q.val out ∈ t.out) ∧
      out.bucket = k.bucket ∧ out.first = k.first ∧ k.payload.isPrefixOf out.payload = true ∧ out.pcrc = Pkt.crc out ∧
      t.mem = s.mem ∧ t.jobs = s.jobs ∧ t.queues = s.queues)

/-- The link adder of a 64-bit fixed-window carry: the sum is that of the two words modulo 2^64, a marker meets a marker or a
number as the union of their flags, and the order of the two does not matter (R367, R368). -/
def Obligations.FixedWindowAdderIsExact : Prop :=
  (∀ a b : BitVec 64, Carry.isMarker 2 a.toNat = false → Carry.isMarker 2 b.toNat = false →
    Carry.add 2 a.toNat b.toNat = ((a + b).toNat, false)) ∧
  (∀ (c : Nat), c = 2 ∨ c = 3 → ∀ a b : Nat, Carry.isMarker c a = true ∨ Carry.isMarker c b = true →
    Carry.isMarker c (Carry.add c a b).1 = true ∧ Carry.flags c (Carry.add c a b).1 = Carry.flags c a ||| Carry.flags c b) ∧
  ∀ (c : Nat), c = 2 ∨ c = 3 → ∀ a b : Nat, Carry.add c a b = Carry.add c b a

/-- CHAIN_ENTRY_START begins the entry that its bucket waits for, by its type (R358); a bucket that may not start yet stays.

A chain completes where every bucket is done, no comparison of a Judge is left and no line of its records is poisoned: one
status record of 64 bytes per bucket, the completion word raised by 1, the chain gone and no queue armed by it (R359). -/
def Obligations.ChainEntriesAndCompletion : Prop :=
  (
  ∀ (s : State) (c b : Nat) (x : Spot), s.spot? c b = some x →
    (s.mayStart x = false → exec (.chainEntryStart c b) s = .next s.settle) ∧
    (s.mayStart x = true →
      (∀ carry clear src dst, x.entry? = some (.reduceScatter carry clear src dst) ∨ x.entry? = some (.allReduce carry clear src dst) →
        (carry ≤ 1 → exec (.chainEntryStart c b) s = .next (s.startReduce c b).settle) ∧
        (2 ≤ carry → exec (.chainEntryStart c b) s = .next (s.startAgree x src).settle)) ∧
      (∀ src dst, x.entry? = some (.allGather src dst) → (s.convertPieces x src dst).chain? c ≠ none →
        exec (.chainEntryStart c b) s = .next ((s.convertPieces x src dst).startGather c b dst).settle) ∧
      (∀ pr sts pa, x.entry? = some (.update pr sts pa) →
        let s1 := s.modBucket c b fun y => { y with stage := .update }
        exec (.chainEntryStart c b) s = .next (if State.updateDone x then s1.entryDone c b else s1).settle) ∧
      (∀ snd rcv, x.entry? = some (.halo snd rcv) → exec (.chainEntryStart c b) s = .next (s.startHalo x snd rcv).settle) ∧
      (∀ src dst root, x.entry? = some (.bcast src dst root) →
        exec (.chainEntryStart c b) s = .next (s.startBcast x src dst root).settle) ∧
      (∀ src dst, x.entry? = some (.allToAll src dst) → exec (.chainEntryStart c b) s = .next (s.startA2a x src dst).settle))) ∧
  (
  ∀ (s : State) (cid : Nat) (c : Chain) (g : Group) (j : Job), s.chain? cid = some c → s.group? c.group = some g →
    s.job? c.job = some j → s.runsJob j = true → (∀ x ∈ c.buckets, x.stage = .done) →
    (∀ x ∈ s.judges, x.pending = []) → s.poisoned = [] → s.memOk →
    (c.word = 0 ∨ c.word + 8 ≤ c.statusBase ∨ c.statusBase + 64 * c.buckets.length ≤ c.word) →
    ∃ t, exec (.chainComplete cid) s = .next t ∧ t.chain? cid = none ∧ (cid, Status.ok) ∈ t.chainEnds ∧ (∀ q ∈ t.queues, cid ∉ q.armed) ∧
      (∀ (i : Nat) (x : Bucket), c.buckets[i]? = some x → t.bytes (c.statusBase + 64 * i) 64 = State.statusRecord c g j x) ∧
      (c.word ≠ 0 → t.read64 c.word = s.read64 c.word + 1) ∧
      (∀ a, (a < c.statusBase ∨ c.statusBase + 64 * c.buckets.length ≤ a) → (c.word = 0 ∨ a < c.word ∨ c.word + 8 ≤ a) →
        t.byte a = s.byte a) ∧
      t.rings = s.rings ∧ t.groups = s.groups)

/-- A Judge takes its copies of a packet that its rate samples, and of no other (R381). JUDGE_COMPARE ends its oldest comparison: where
what it forms from the copies is what the logic formed the comparison is counted, else a mismatch is counted too and it is a detected
fault (R382, R383); with no comparison left nothing changes.

A wait that exceeds its group's budget is a stall, whether for a message that a bucket expects, for credits or for a barrier's next
arrival: the job's chains stop and it is a detected fault; within the budget, and where the wait has ended, nothing happens (R384, R385). -/
def Obligations.JudgesAndStalls : Prop :=
  (
  ∀ (s : State) (j : Fin 3) (x : Judge), s.judges[j.val]? = some x →
    (∀ (p : Nat) (k : Packet) (w : JudgeWork) (o : List Byte), judgeOf p = j.val →
      (judgeSamples x.rate k = false → s.sampleJudge p k w o = s) ∧
      (judgeSamples x.rate k = true → (s.sampleJudge p k w o).judges[j.val]? =
        some { x with pending := x.pending ++ [{ port := p, packet := k, work := w, output := o }] })) ∧
    (∀ seen, x.pending = [] → exec (.judgeCompare j seen) s = .next s) ∧
    (∀ (c : JudgeCopy) (r : List JudgeCopy) (seen : Option (List Byte)), x.pending = c :: r →
      (s.judgeForms c = seen.getD c.output →
        ∃ t, exec (.judgeCompare j seen) s = .next t ∧
          t.judges[j.val]? = some { x with pending := r, sampled := x.sampled + 1 } ∧
          t.faultsEver = s.faultsEver ∧ t.mem = s.mem ∧ t.jobs = s.jobs ∧ t.queues = s.queues) ∧
      (s.judgeForms c ≠ seen.getD c.output →
        ∃ t y, exec (.judgeCompare j seen) s = .next t ∧ t.judges[j.val]? = some y ∧ y.sampled = x.sampled + 1 ∧
          y.mismatch = x.mismatch + 1 ∧ s.faultsEver < t.faultsEver))) ∧
  (
  ∀ s : State,
    let stalls := fun (w : StallWait) (g : Group) (since : Nat) =>
      (s.now - since ≤ g.budget → exec (.stall w) s = .next s) ∧
      (g.budget < s.now - since →
        ∃ t, exec (.stall w) s = .next t ∧ (∀ x ∈ t.chains, x.job ≠ g.job) ∧ s.faultsEver < t.faultsEver ∧
          t.unitMap = s.unitMap ∧ t.cores = s.cores)
    (∀ (cid b : Nat) (p : Fin 6) (x : Spot), s.spot? cid b = some x →
      (∀ t, s.waitsSince x p.val = some t → stalls (.message cid b p) x.g t) ∧
      (s.waitsSince x p.val = none → exec (.stall (.message cid b p)) s = .next s)) ∧
    (∀ (p : Fin 6) (vc : Fin 4), let y := s.port p.val
      (∀ t k g, y.starved.getD vc.val none = some t → (y.sendQ.find? fun k => k.vc.toNat == vc.val) = some k →
        s.group? k.group.toNat = some g → g.job = k.job.toNat → State.inGroup k = true → stalls (.credit p vc) g t) ∧
      (y.starved.getD vc.val none = none → exec (.stall (.credit p vc)) s = .next s)) ∧
    (∀ (job group : Nat) (g : Group), s.group? group = some g → g.job = job →
      (∀ t p, g.sentAt = some t → State.barrierPort g = some p → stalls (.barrier job group) g t) ∧
      (g.sentAt = none → exec (.stall (.barrier job group)) s = .next s)))

/-- HURDLE with group scope: a local arrival below the count, or after the device's own was sent, waits for the round; the last
one sends the device's own arrival and waits, or goes on at once where the round is complete (R248, R380).

ARRIVE: the first arrival of a partner in a round of a NEIGHBOURS group is heard, and closes the round where it was the last;
one of another round, or heard already, is a hop failure (R248, R330). -/
def Obligations.GroupBarriers : Prop :=
  (
  ∀ (s : State) (qid : Nat) (c : Cmd) (g : Group), s.inHand qid = some c → isHurdle true c.slot = true →
    worst (Sync.groupChecks c (s.deciding c)) = none → s.group? (c.slot.operand 0x20 0 64) = some g → g.job = c.job.id →
    let n := c.slot.operand 0x28 0 16
    let g1 := { g with arrivals := g.arrivals + 1 }
    let g2 := { g with arrivals := 0 }
    let s1 := ((s.deciding c).setGroup g2).arriveOwn g2
    let waits := fun s1 : State => s1.setQueue { c.q with state := .waiting, wait := .group g.id g.round, next := c.q.pos + 1 }
    (g.arrivals + 1 < n ∨ g.sentAt.isSome = true →
      exec (.hurdleGroup qid) s = .next (waits ((s.deciding c).setGroup g1))) ∧
    (n ≤ g.arrivals + 1 → g.sentAt = none → ∀ g3, s1.group? g.id = some g3 →
      (State.roundDone g3 = false → exec (.hurdleGroup qid) s = .next (waits s1)) ∧
      (State.roundDone g3 = true → ∀ q1, (s1.closeRound g.id).queue? qid = some q1 → (s1.closeRound g.id).cqBlocked q1 .ok = false →
        exec (.hurdleGroup qid) s = .next ((s1.closeRound g.id).doneAt q1 (q1.pos + 1) 0 0)))) ∧
  (
  ∀ (s : State) (p : Fin 7) (k : Packet) (g : Group), k.wf = true → (s.port p.val).state = .up → k.ptype.toNat = PType.arrive.code →
    s.hopOne p.val k = none → s.group? k.group.toNat = some g → g.job = k.job.toNat → s.jobRuns g.job = true →
    let s0 := s.freeCredits p.val k
    let good := k.bucket.toNat = g.round % 2 ^ 32 ∧ k.len = 0 ∧ k.stage = 0xD
    (¬ good → exec (.arrivePacket p k) s = .next (s0.hopFail p.val k .hopCheck)) ∧
    (good → g.geometry = .neighbours → p.val ∈ g.ports → (p.val, g.round) ∉ g.heard →
      exec (.arrivePacket p k) s = .next ((s0.setGroup { g with heard := g.heard ++ [(p.val, g.round)] }).closeRound g.id)) ∧
    (good → g.geometry = .neighbours → (p.val, g.round) ∈ g.heard →
      exec (.arrivePacket p k) s = .next (s0.hopFail p.val k .hopCheck)) ∧
    (good → g.geometry ≠ .neighbours → ∀ l n, passHop? g p.val k = some (l, n) → g.barrier.has l n = none →
      let d := Dissem.receive g.extOf Dissem.combMax g.barrier l n (some 1)
      let g1 := { g with barrier := d.1 }
      exec (.arrivePacket p k) s = .next (((s0.setGroup g1).sendArrive g1 d.2).closeRound g.id)))

/-- TRIG: a chain that passes its checks and whose step is not thinned out is armed with its buckets, the group's sequence counter
moves past them, and the queue remembers the chain; a step that thinning leaves out, without a completion word, only completes
(R250, R353 to R357).

VERDICT_PASS in a group of one member, once the reductions of every bucket are done: a total of 0 lets the updates run; a total
above 0 under SKIP ends the chain's buckets and skips the training step (R372, R373); before that, or once begun, only early
packets may go on. -/
def Obligations.ChainsArmAndTotal : Prop :=
  (
  ∀ (s : State) (qid : Nat) (c : Cmd) (g : Group) (x : Chain.Parts), s.inHand qid = some c → State.isOp .trig c.slot = true →
    worst (Trig.checks c (s.deciding c)) = none → Sync.joined c (s.deciding c) (Trig.gid c.slot) = some g →
    (Trig.parts c (s.deciding c) g).2 = some x →
    (∀ l ∈ s.poisoned, ¬ (l < c.slot.operand 0x20 0 64 + 64 + 64 * x.h.n ∧ c.slot.operand 0x20 0 64 < l + 256)) →
    s.cqBlocked c.q .ok = false → (s.deciding c).recordLine c.q .ok = none →
    ((c.job.step + 1) % x.h.thin = 0 →
      ∃ (t : State) (q : CmdQueue) (g' : Group), exec (.trig qid) s = .next t.settle ∧ t.chains = s.chains ++ [Trig.arm x (s.deciding c)] ∧
        t.chainIds = s.chainIds + 1 ∧ t.group? g.id = some g' ∧ g'.seq = (x.h.seq0 + x.nb) % 2 ^ 32 ∧
        t.queue? qid = some q ∧ q.armed = c.q.armed ++ [s.chainIds] ∧ q.pos = c.q.pos + 1 ∧ q.sregs = c.q.sregs) ∧
    ((c.job.step + 1) % x.h.thin ≠ 0 → c.slot.operand 0x30 0 64 = 0 →
      exec (.trig qid) s = .next ((s.deciding c).doneAt c.q (c.q.pos + 1) 0 0).settle)) ∧
  (
  ∀ (s : State) (cid i : Nat) (c : Chain) (g : Group) (j : Job), s.chain? cid = some c → s.group? c.group = some g →
    s.job? c.job = some j → State.updateIndex c = some i →
    (c.verdict.started = true ∨ (∃ x ∈ c.buckets, x.entry < i) → exec (.verdictPass cid) s = .next s.settle) ∧
    (c.verdict = {} → c.total = none → (∀ x ∈ c.buckets, i ≤ x.entry) → (∀ d, g.extOf d ≤ 1) → s.early = [] →
      let own := (c.buckets.map fun x => x.ownedNonfinite).sum
      ∃ t c' j', exec (.verdictPass cid) s = .next t ∧ t.chain? cid = some c' ∧ c'.total = some own ∧ t.job? c.job = some j' ∧
        (own = 0 → (c'.buckets.map fun x => { x with started := [] }) = (c.buckets.map fun x => { x with started := [] }) ∧
          j' = j ∧ t.mem = s.mem) ∧
        (0 < own → j.zeroPolicy = false →
          c'.skipped = true ∧ (∀ x ∈ c'.buckets, x.stage = .done) ∧ j'.skipping = true ∧ t.mem = s.mem) ∧
        t.queues = s.queues))

/-! ### Faults and restart (R24 to R31, R386 to R415) -/

/-- A fault detected on this device for a running job: one record, the job RESTARTING under that record's number, each of its
queues FROZEN, its chains ended with FAULT, and every other job's queues as they were (R359, R397, R406).

A watchdog of a channel that counts no more cycles than the limit does nothing; beyond it, where the receiver is an ACTIVE heat with a
SPARE heat on its die, the heat is RETIRED, its logical number moves to the lowest SPARE heat of the die, every other heat keeps its
state, the map's generation rises and both copies of the map hold it (R28, R395); without a SPARE heat the device becomes unfit (R29).

Faults of whole units: a host core that diverges stops, is retired and makes the device unfit (R21, R394, R439); a Starter that
diverges stops the device, and every core that runs with it (R21); a SPARE heat that fails its background test is RETIRED, and a passed test changes nothing (R392); a port pair that
passes after a link DOWN names the cable (R320). -/
def Obligations.UnitFaults : Prop :=
  (
  ∀ (s : State) (n : FaultNotice) (j : Job), n.origin = none → n.job.map BitVec.toNat = some j.id → s.job? j.id = some j →
    j.phase = .running → State.blamesUnit n.mechanism.toNat = false → s.early = [] → s.poisoned = [] →
    ∃ t j', exec (.faultNotice n) s = .next t ∧ t.job? j.id = some j' ∧ j'.phase = .restarting ∧
      j'.restart.fault = s.faultsEver + 1 ∧ j'.step = j.step ∧ j'.watch = {} ∧ t.faultsEver = s.faultsEver + 1 ∧
      t.restarts = s.restarts + 1 ∧ (∀ q ∈ t.queues, q.job = j.id → q.state = .frozen) ∧
      (∀ q ∈ s.queues, q.job ≠ j.id → (∀ c ∈ s.chains, c.job = j.id → c.id ∉ q.armed) → q ∈ t.queues) ∧
      (∀ c ∈ t.chains, c.job ≠ j.id) ∧ (∀ c ∈ s.chains, c.job = j.id → (c.id, Status.fault) ∈ t.chainEnds) ∧ t.unitMap = s.unitMap ∧
      t.cores = s.cores ∧ t.unfit = s.unfit) ∧
  (
  (∀ (s : State) (die : Fin 2) (o : Offer) (u : UnitRef) (job : Option Nat), s.early = [] →
    State.offeredCycles o.spans ≤ (s.tracks.getD die.val {}).limit → exec (.channelWatchdog die o u job) s = .next s) ∧
  ∀ (s : State) (die : Fin 2) (o : Offer) (u : UnitRef), u.cls = 0 → s.jobs = [] →
    s.early = [] → s.poisoned = [] → (s.tracks.getD die.val {}).limit < State.offeredCycles o.spans →
    s.unitMap.state[u.index.toNat]? = some .active →
    (∀ sp, State.spareOf s.unitMap (State.dieOf u.index.toNat) = some sp →
      ∃ t, exec (.channelWatchdog die o u none) s = .next t ∧ t.unitMap.state[u.index.toNat]? = some .retired ∧
        t.mapCopies = [State.mapCopy t.unitMap, State.mapCopy t.unitMap] ∧ t.unitMap.state[sp]? = some .active ∧
        (∀ k, k ≠ u.index.toNat → k ≠ sp → t.unitMap.state[k]? = s.unitMap.state[k]?) ∧
        t.unitMap.phys = s.unitMap.phys.map (fun x => if x = u.index.toNat then sp else x) ∧
        t.unitMap.gen = s.unitMap.gen + 1 ∧ t.faultsEver = s.faultsEver + 1 ∧ t.unfit = s.unfit) ∧
    (State.spareOf s.unitMap (State.dieOf u.index.toNat) = none →
      ∃ t, exec (.channelWatchdog die o u none) s = .next t ∧ t.unfit = true ∧
        t.unitMap.state[u.index.toNat]? = some .retired ∧ t.unitMap.phys = s.unitMap.phys)) ∧
  (
  ∀ s : State, s.jobs = [] → s.early = [] →
    (∀ n : Fin 32, n.val < s.cores.length →
      ∃ t, exec (.hcLockstepDivergence n) s = .next t ∧ (t.core n.val).state = .stopped ∧ t.unfit = true ∧ n.val ∈ t.retiredCores ∧
        (∀ r ∈ t.reservations, r.1 ≠ n.val) ∧ ∀ k, k ≠ n.val → t.core k = s.core k) ∧
    (exec .starterLockstep s = .next { s with
      starter := { s.starter with stopped := true }
      cores := s.cores.map fun c => if c.state = .off then c else { c with state := .stopped } }) ∧
    (∀ h : Fin 104, exec (.backgroundSelfTest h true) s = .next s ∧
      (s.unitMap.state[h.val]? = some .spare → s.poisoned = [] →
        ∃ t, exec (.backgroundSelfTest h false) s = .next t ∧ t.unitMap.state[h.val]? = some .retired ∧
          t.unitMap.phys = s.unitMap.phys ∧ t.faultsEver = s.faultsEver + 1 ∧ t.unfit = s.unfit)) ∧
    (∀ (p : Fin 7) (u : UnitRef), u.cls.toNat = UnitClass.port.code → (s.port p.val).state = .down →
      exec (.unitSelfTest p u true true) s = .next (s.setPort p.val { s.port p.val with cause := 4 })) ∧
    (∀ (p : Fin 7) (u : UnitRef), u.cls.toNat ≠ UnitClass.port.code → exec (.unitSelfTest p u true true) s = .next s))

/-- The largest common step: the restore point is a step that every rank can restore, and none that all can restore is larger;
there is none where they share no step (R407).

RESTORE_POINT_AGREED: elsewhere than on the coordinator of a halted job, and once a restore point stands, nothing changes. The first
one asks every device. Once the answers are in, the largest common step becomes the restore point, and the ranks of failed devices pass to
spares that fit; a job whose stalls blame only devices that report stalls is held with cause 3, one without a spare with cause 0, one
without a common step with cause 1 (R385, R405, R407, R411, R414).

COORDINATOR_ELECTION: the device whose serial has been the smallest known for 100 ms, in a job with NEIGHBOURS groups only,
coordinates, unless it has failed or is blamed; before that nothing changes (R405). -/
def Obligations.RestorePointAndCoordinator : Prop :=
  (
  ∀ (answers : List (List Nat)), answers ≠ [] →
    (∀ n, State.commonStep answers = some n ↔
      (∀ a ∈ answers, n ∈ a) ∧ ∀ m, (∀ a ∈ answers, m ∈ a) → m ≤ n) ∧
    (State.commonStep answers = none ↔ ∀ m, ¬ ∀ a ∈ answers, m ∈ a)) ∧
  (
  ∀ (s : State) (job : Nat) (devices : List W64) (spares : List (List W64)) (j : Job), s.job? job = some j →
    let fits := devices.zip spares
    (j.phase = .running ∨ s.leads j = false ∨ j.restart.restorePoint.isSome = true → exec (.restorePointAgreed job devices spares) s = .next s) ∧
    (j.phase = .restarting → s.leads j = true → j.restart.restorePoint = none →
      (j.restart.askedAt = none →
        ∃ t j', exec (.restorePointAgreed job devices spares) s = .next t ∧ t.job? job = some j' ∧ j'.restart.askedAt = some s.now ∧
          j'.step = j.step ∧ t.queues = s.queues) ∧
      (j.restart.askedAt.isSome = true → s.answersIn j = false → exec (.restorePointAgreed job devices spares) s = .next s) ∧
      (j.restart.askedAt.isSome = true → s.answersIn j = true →
        let held := fun cause : Nat => ∃ t j', exec (.restorePointAgreed job devices spares) s = .next t ∧ t.job? job = some j' ∧
          j'.phase = .held cause ∧ t.jobsHeld = s.jobsHeld + 1 ∧ t.queues = s.queues
        (s.stallCycle j ≠ none → held 3) ∧
        (s.stallCycle j = none → State.chooseSpares fits j.spares (s.failedNow j) = none → held 0) ∧
        (∀ pairs, s.stallCycle j = none → State.chooseSpares fits j.spares (s.failedNow j) = some pairs →
          (State.commonStep (s.answersOf j) = none → held 1) ∧
          (∀ n, State.commonStep (s.answersOf j) = some n → (∀ x ∈ pairs, x.1 ≠ s.serial) →
            ∃ t j', exec (.restorePointAgreed job devices spares) s = .next t ∧ t.job? job = some j' ∧
              j'.restart.restorePoint = some n ∧ j'.restart.restored = false ∧ j'.phase = .restarting ∧
              j'.spares = (j.spares.filter fun x => pairs.all fun a => a.2 != x) ∧
              t.groups = (s.replaceSerials job pairs).groups ∧ t.mem = s.mem ∧ t.queues = s.queues))))) ∧
  (
  ∀ (s : State) (job : Nat) (j : Job), s.job? job = some j → s.leadGroup job = none → s.jobGroups job ≠ [] →
    (j.restart.smallest = s.serial → (State.leftOut j).contains s.serial = false → 10000000 ≤ s.now - j.restart.changedAt →
      ∃ t j', exec (.coordinatorElection job) s = .next t ∧ t.job? job = some j' ∧ j'.restart.coordinator = true ∧
        j'.phase = j.phase ∧ t.mem = s.mem ∧ t.queues = s.queues ∧ t.groups = s.groups) ∧
    ((∀ x ∈ s.jobs, x.id = job → x.restart.smallest ≠ s.serial ∨ (State.leftOut x).contains s.serial = true ∨
      s.now - x.restart.changedAt < 10000000) →
      exec (.coordinatorElection job) s = .next s))

/-- Restore transfers (R412): a path notice is recorded with the port it came on, once; a claim at a device between is recorded and
goes on; a device without the transfer ignores a claim.

The end of a restart (R413): the restored job's restore point is marked and older generations are released; then its queues
leave FROZEN at their committed positions and the job runs (R407, R442). -/
def Obligations.TransfersAndRestartEnd : Prop :=
  (
  ∀ (s : State) (p : Fin 6) (job : Nat),
    (∀ spare, s.transfer? job = none →
      ∃ t x, exec (.pathNotice p job spare) s = .next t ∧ t.transfer? job = some x ∧ x.port = some p.val ∧ x.spare = spare ∧
        x.claim = none ∧ t.mem = s.mem ∧ t.jobs = s.jobs ∧ t.queues = s.queues) ∧
    (∀ x, s.transfer? job = some x →
      exec (.pathNotice p job x.spare) s = .next { s with free := s.free + 1 }) ∧
    (s.transfer? job = none → exec (.pathClaim p job) s = .next s) ∧
    (∀ x q, s.transfer? job = some x → x.claim = none → x.port = some q →
      ∃ t y, exec (.pathClaim p job) s = .next t ∧ t.transfer? job = some y ∧ y.claim = some p.val ∧
        t.mem = s.mem ∧ t.jobs = s.jobs ∧ t.queues = s.queues)) ∧
  (
  ∀ (s : State) (job : Nat) (j : Job), s.job? job = some j →
    (∀ n, j.phase = .restarting → j.restart.restorePoint = some n → j.restart.restored = true →
      ∃ t j', exec (.restoreComplete job) s = .next t ∧ t.job? job = some j' ∧ j'.restorePoint = n ∧ j'.restart.rejoined = true ∧
        (∀ g ∈ j'.gens, g.step < n → g.state = .released) ∧ t.groups = (s.groups.map fun g => if g.job = job then s.rejoin g else g) ∧
        (∀ e ∈ t.early, e.2.1.job.toNat ≠ job) ∧ t.chains = s.chains ∧ t.mem = s.mem ∧
        t.queues = s.queues) ∧
    (j.restart.restorePoint = none → exec (.restoreComplete job) s = .next s) ∧
    (j.phase = .restarting → j.restart.rejoined = true →
      ∃ t j', exec (.jobResumed job) s = .next t ∧ t.job? job = some j' ∧ j'.phase = .running ∧ j'.step = j.step ∧
        (∀ q ∈ t.queues, q.job = job → q.state ≠ .frozen) ∧ (∀ q ∈ s.queues, q.job ≠ job → q ∈ t.queues) ∧
        t.cores = s.cores) ∧
    (j.phase = .running → exec (.jobResumed job) s = .next s))

/-! ### Host cores (R421 to R459) -/

/-- SVX operations on integers, and moves: each active element of y_d takes the result of its row modulo the element size, every
inactive element keeps its bits, and no flag changes (R447, R448, R453, R454, R457); SEL writes every element. -/
def Obligations.VectorIntegerElements : Prop :=
  ∀ (s : State) (n : Fin 32) (f : SvxFields), s.svxReady n →
    let w := 8 * 2 ^ f.sz.toNat
    let x := s.yElem n f.a w
    let y := s.yElem n f.b w
    let d := s.yElem n f.d w
    let wrap (k : Nat) (v : Int) : Nat := (v % 2 ^ k).toNat
    let sg (k v : Nat) : Int := if v < 2 ^ (k - 1) then (v : Int) else (v : Int) - 2 ^ k
    let half (h : Bool) (e : Nat) : Nat := e + if h then 1024 / (2 * w) else 0
    let prod (h : Bool) (e : Nat) : Int := sg w (x (half h e)) * sg w (y (half h e))
    let d2 := s.yElem n f.d (2 * w)
    let d4 := s.yElem n f.d (4 * w)
    let dot (v : Nat → Int) : Int := v 0 + v 1 + v 2 + v 3
    let reg := (s.core n.val).reg
    (∀ r ∈ [
        (Instr.svxAdd n f, fun e => x e + y e), (.svxSub n f, fun e => wrap w ((x e : Int) - y e)),
        (.svxMul n f, fun e => x e * y e), (.svxMin n f, fun e => if sg w (x e) ≤ sg w (y e) then x e else y e),
        (.svxMax n f, fun e => if sg w (x e) ≤ sg w (y e) then y e else x e), (.svxAnd n f, fun e => x e &&& y e),
        (.svxOr n f, fun e => x e ||| y e), (.svxXor n f, fun e => x e ^^^ y e),
        (.svxSll n f, fun e => x e * 2 ^ (y e % w)), (.svxSrl n f, fun e => x e / 2 ^ (y e % w)),
        (.svxSra n f, fun e => wrap w (sg w (x e) / 2 ^ (y e % w))), (.svxMinu n f, fun e => min (x e) (y e)),
        (.svxMaxu n f, fun e => max (x e) (y e)), (.svxIma n f, fun e => d e + x e * y e)],
      ∃ t, exec r.1 s = .next t ∧ s.writesVector t n f w r.2 ∧ s.sameFloat t n) ∧
    (∀ h : Bool, f.sz ≠ 3 → ∀ r ∈ [
        (Instr.svxIwmul n h f, fun e => wrap (2 * w) (prod h e)),
        (.svxIwma n h f, fun e => wrap (2 * w) (prod h e + d2 e))],
      ∃ t, exec r.1 s = .next t ∧ s.writesVector t n f (2 * w) r.2 ∧ s.sameFloat t n) ∧
    (f.sz.toNat ≤ 1 → ∀ r ∈ [
        (Instr.svxIdot n f, fun e => wrap (4 * w) (d4 e + dot fun k => sg w (x (4 * e + k)) * sg w (y (4 * e + k)))),
        (.svxIdotu n f, fun e => wrap (4 * w) (d4 e + dot fun k => (x (4 * e + k) : Int) * y (4 * e + k)))],
      ∃ t, exec r.1 s = .next t ∧ s.writesVector t n f (4 * w) r.2 ∧ s.sameFloat t n) ∧
    (f.b = 0 → ∃ t, exec (.svxSplat n f) s = .next t ∧ s.writesVector t n f w (fun _ => (reg f.a.toNat).toNat) ∧ s.sameFloat t n) ∧
    (f.b = 0 → f.sz ≠ 0 → ∃ t, exec (.svxFsplat n f) s = .next t ∧ s.writesVector t n f w (fun _ => x 0) ∧ s.sameFloat t n) ∧
    (f.a = 0 → f.b = 0 → ∃ t, exec (.svxIdx n f) s = .next t ∧ s.writesVector t n f w id ∧ s.sameFloat t n) ∧
    (f.q = 0 → (reg f.b.toNat).toNat < 1024 / w → ∃ t, exec (.svxInsr n f) s = .next t ∧ s.sameFloat t n ∧
      s.writesVector t n f w fun e => if (reg f.b.toNat).toNat = e then (reg f.a.toNat).toNat else d e) ∧
    (f.q = 0 → 1024 / w ≤ (reg f.b.toNat).toNat → ∃ t, exec (.svxInsr n f) s = .next t ∧ s.writesInteger t n 4 0 0) ∧
    ∃ t, exec (.svxSel n f) s = .next t ∧ s.sameFloat t n ∧ s.writesVector t n { f with q := 0 } w fun e =>
      if s.on n f e then x e else y e

/-- SVX operations on floating point: each active element of y_d takes its row's result, rounded once in the mode of `frm`, its
flags accrue, and an inactive element keeps its bits and raises none (R448, R451, R453, R454, R458). -/
def Obligations.VectorFloatElements : Prop :=
  ∀ (s : State) (n : Fin 32) (f : SvxFields) (m : RMode), s.svxReady n → Svx.modeOf (s.core n.val) = some m →
    let w := 8 * 2 ^ f.sz.toNat
    let at_ (r : BitVec 5) (k e : Nat) : Nat := s.yElem n r k e
    let done (i : Instr) (k : Nat) (g : Nat → FOut) : Prop :=
      ∃ t, exec i s = .next t ∧ s.writesVector t n f k (fun e => (g e).1) ∧
        s.accrues t n (1024 / k) (s.on n f) (fun e => (g e).2)
    let half (h : Bool) (k e : Nat) : Nat := e + if h then 1024 / (2 * k) else 0
    (∀ fs, Svx.spec f.sz.toNat = some fs →
      (∀ r ∈ [(Instr.svxFadd n f, fun a b => Ieee.add fs m a b false), (.svxFsub n f, fun a b => Ieee.add fs m a b true),
          (.svxFmul n f, fun a b => Ieee.mul fs fs m a b), (.svxFdiv n f, fun a b => Ieee.div fs m a b),
          (.svxFmin n f, fun a b => Ieee.minMax fs false a b), (.svxFmax n f, fun a b => Ieee.minMax fs true a b),
          (.svxFsgnj n f, fun a b => (Ieee.sgnj fs 0 a b, {})), (.svxFsgnjn n f, fun a b => (Ieee.sgnj fs 1 a b, {})),
          (.svxFsgnjx n f, fun a b => (Ieee.sgnj fs 2 a b, {}))],
        done r.1 w fun e => r.2 (at_ f.a w e) (at_ f.b w e)) ∧
      (f.b = 0 → done (.svxFsqrt n f) w fun e => Ieee.sqrt fs m (at_ f.a w e)) ∧
      done (.svxFma n f) w (fun e => Ieee.fma fs m (at_ f.a w e) (at_ f.b w e) (at_ f.d w e) false false) ∧
      done (.svxFnma n f) w (fun e => Ieee.fma fs m (at_ f.a w e) (at_ f.b w e) (at_ f.d w e) true false) ∧
      (f.b = 12 → done (.svxFcvt n f) w fun e => Ieee.ofInt fs m (signedOf w (at_ f.a w e))) ∧
      (f.b = 13 → done (.svxFcvt n f) w fun e => Ieee.toInt fs m true w (at_ f.a w e)) ∧
      (f.b = 14 → done (.svxFcvt n f) w fun e => Ieee.ofInt fs m (at_ f.a w e)) ∧
      (f.b = 15 → done (.svxFcvt n f) w fun e => Ieee.toInt fs m false w (at_ f.a w e))) ∧
    (∀ (h : Bool) src dst, (f.sz.toNat, src, dst) ∈ [(1, Ieee.f16, f32), (2, f32, f64)] →
      done (.svxFwmul n h f) (2 * w) (fun e => Ieee.mul src dst m (at_ f.a w (half h w e)) (at_ f.b w (half h w e))) ∧
      done (.svxFwma n h f) (2 * w) (fun e =>
        Ieee.sumOf src dst m [(at_ f.a w (half h w e), at_ f.b w (half h w e), false)] (at_ f.d (2 * w) e) false)) ∧
    (∀ k src dst, (f.sz.toNat, k, src, dst) ∈ [(0, 16, Ieee.bf16, f32), (1, 16, Ieee.f16, f32), (2, 32, f32, f64)] →
      done (.svxFdot n f) (2 * k) fun e => Ieee.sumOf src dst m
        [(at_ f.a k (2 * e), at_ f.b k (2 * e), false), (at_ f.a k (2 * e + 1), at_ f.b k (2 * e + 1), false)]
        (at_ f.d (2 * k) e) false) ∧
    (f.sz = 0 → ∀ kind k src dst, (kind, k, src, dst) ∈ [(0, 16, Ieee.f16, f32), (2, 32, f32, f64), (8, 16, Ieee.bf16, f32)] →
      ∀ h : Bool, f.b.toNat = kind + (if h then 1 else 0) →
        done (.svxFcvt n f) (2 * k) fun e => Ieee.cvt src dst m (at_ f.a k (half h k e))) ∧
    (f.sz = 0 → ∀ kind k src dst, (kind, k, src, dst) ∈ [(4, 64, f64, f32), (6, 32, f32, Ieee.f16), (10, 32, f32, Ieee.bf16)] →
      ∀ h : Bool, f.b.toNat = kind + (if h then 1 else 0) →
        let lo := if h then 1024 / k else 0
        let cv (e : Nat) : FOut := Ieee.cvt src dst m (at_ f.a k (e - lo))
        ∃ t, exec (.svxFcvt n f) s = .next t ∧ s.coreSteps t n 4 ∧ (t.core n.val).x = (s.core n.val).x ∧
          (t.core n.val).q = (s.core n.val).q ∧ (∀ i, i ≠ f.d.toNat → (t.core n.val).vreg i = (s.core n.val).vreg i) ∧
          (∀ e, e < 1024 / (k / 2) → t.yElem n f.d (k / 2) e =
            if lo ≤ e ∧ e < lo + 1024 / k ∧ s.on n f e = true then (cv e).1 % 2 ^ (k / 2) else s.yElem n f.d (k / 2) e) ∧
          s.accrues t n (1024 / (k / 2)) (fun e => decide (lo ≤ e) && decide (e < lo + 1024 / k) && s.on n f e) fun e => (cv e).2)

/-- SVX comparisons and predicate operations give the bits of their row below V(s) and 0 above; those with a scalar destination
write it alone; the reductions write f_d, box it and clear the rest of y_d (R446, R447, R457). -/
def Obligations.VectorPredicatesAndScalars : Prop :=
  ∀ (s : State) (n : Fin 32) (f : SvxFields), s.svxReady n →
    let w := 8 * 2 ^ f.sz.toNat
    let v := 1024 / w
    let c := s.core n.val
    let x := s.yElem n f.a w
    let y := s.yElem n f.b w
    let pa (e : Nat) : Bool := (c.preg f.a.toNat).getLsbD e
    let hits := (List.range v).filter fun e => pa e && s.on n f e
    (f.d.toNat < 8 → ∀ r ∈ [
        (Instr.svxCmpeq n f, fun e => x e == y e),
        (.svxCmplt n f, fun e => decide (signedOf w (x e) < signedOf w (y e))), (.svxCmpltu n f, fun e => decide (x e < y e))],
      ∃ t, exec r.1 s = .next t ∧ s.writesPredicate t n f.d v (fun e => s.on n f e && r.2 e) ∧ s.sameFloat t n) ∧
    (f.d.toNat < 8 → ∀ fs, Svx.spec f.sz.toNat = some fs → ∀ r ∈ [
        (Instr.svxFcmpeq n f, fun a b => Ieee.eq fs a b), (.svxFcmplt n f, fun a b => Ieee.lt fs a b),
        (.svxFcmple n f, fun a b => Ieee.le fs a b), (.svxFcmpun n f, fun a b => Ieee.unordered fs a b)],
      ∃ t, exec r.1 s = .next t ∧ s.writesPredicate t n f.d v (fun e => s.on n f e && (r.2 (x e) (y e)).1) ∧
        s.accrues t n v (s.on n f) (fun e => (r.2 (x e) (y e)).2)) ∧
    (f.d.toNat < 8 → f.q = 0 → ∃ t, exec (.svxPrange n f) s = .next t ∧ s.sameFloat t n ∧
      s.writesPredicate t n f.d v fun e => decide ((c.reg f.a.toNat).toNat + e < (c.reg f.b.toNat).toNat)) ∧
    (f.d.toNat < 8 → f.a.toNat < 8 → f.b.toNat < 8 → f.q = 0 → ∃ t, exec (.svxPlog n f) s = .next t ∧ s.sameFloat t n ∧
      s.writesPredicate t n f.d 128 fun e =>
        let b := (c.preg f.b.toNat).getLsbD e
        match f.sz.toNat with
        | 0 => pa e && b
        | 1 => pa e || b
        | 2 => pa e != b
        | _ => pa e && !b) ∧
    (f.d.toNat < 8 → f.b.toNat < 2 → f.q = 0 → f.sz = 0 → ∃ t, exec (.svxXtop n f) s = .next t ∧ s.sameFloat t n ∧
      s.writesPredicate t n f.d 128 fun e =>
        if e / 64 = f.b.toNat then (c.reg f.a.toNat).getLsbD (e % 64) else (c.preg f.d.toNat).getLsbD e) ∧
    (f.a.toNat < 8 → f.b = 0 → ∃ t, exec (.svxPcnt n f) s = .next t ∧ s.writesInteger t n 4 f.d (BitVec.ofNat 64 hits.length)) ∧
    (f.a.toNat < 8 → f.b = 0 → ∃ t, exec (.svxPfirst n f) s = .next t ∧
      s.writesInteger t n 4 f.d (match hits.head? with
        | some e => BitVec.ofNat 64 e
        | none => BitVec.allOnes 64)) ∧
    (f.a.toNat < 8 → f.b.toNat < 2 → f.q = 0 → f.sz = 0 → ∃ t, exec (.svxPtox n f) s = .next t ∧
      s.writesInteger t n 4 f.d (BitVec.extractLsb' (64 * f.b.toNat) 64 (c.preg f.a.toNat))) ∧
    (f.q = 0 → ∃ t, exec (.svxExtr n f) s = .next t ∧ s.writesInteger t n 4 f.d
      (let i := (c.reg f.b.toNat).toNat
       if i < v then BitVec.ofInt 64 (signedOf w (x i)) else 0)) ∧
    (f.b = 0 → ∃ t, exec (.svxAddv n f) s = .next t ∧ s.writesInteger t n 4 f.d
      (BitVec.ofInt 64 (((List.range v).map fun e => if s.on n f e then signedOf w (x e) else 0).sum))) ∧
    (∀ fs m, f.b = 0 → c.fpOn = true → Svx.spec f.sz.toNat = some fs → Svx.modeOf c = some m → ∀ r ∈ [
        (Instr.svxFaddv n f, fun a b => Ieee.add fs m a b false), (.svxFmaxv n f, fun a b => Ieee.minMax fs true a b),
        (.svxFminv n f, fun a b => Ieee.minMax fs false a b)],
      ∃ t, exec r.1 s = .next t ∧ s.coreSteps t n 4 ∧ (t.core n.val).x = c.x ∧ (t.core n.val).q = c.q ∧
        (∀ i, i ≠ f.d.toNat → (t.core n.val).vreg i = c.vreg i) ∧ (t.core n.val).csr.svxcsr = c.csr.svxcsr ∧
        let res := (((List.range v).filter (s.on n f)).foldl (fun a e => (r.2 a (x e)).1) (s.yElem n f.d w 0))
        (t.core n.val).vreg f.d.toNat = BitVec.ofNat 1024 ((2 ^ 64 - 2 ^ w) ||| res))

/-- SVX loads and stores in machine mode, at Edern addresses that take every access of the active elements: a load puts the bytes
of field g of element e, in ascending order, into element e of y(d+g); a store puts them into memory, where the highest element and
field win, and changes no other byte (R448, R450, R455, R456). -/
def Obligations.VectorLoadsAndStores : Prop :=
  ∀ (s : State) (n : Fin 32) (f : SvxFields) (nf : BitVec 2), s.memOk → s.svxReady n → Mmu.dataMode (s.core n.val) = .m →
    let w := 8 * 2 ^ f.sz.toNat
    let v := 1024 / w
    let act (e g : Nat) : Prop := e < v ∧ s.on n f e = true ∧ g ≤ nf.toNat
    let takes (k : Access) (mop : Nat) : Prop := ∀ e g, act e g →
      isEdern (s.svxAt n mop nf.toNat f e g) = true ∧ s.physFault n .m k true (s.svxAt n mop nf.toNat f e g) (w / 8) = none ∧
        s.poisonIn (s.svxAt n mop nf.toNat f e g) (w / 8) = false
    (∀ r ∈ [(Instr.svxVld n nf f, 0), (.svxVlds n nf f, 1), (.svxVldx n nf f, 2), (.svxVldr n nf f, 3)],
      Svx.formOk r.2 nf.toNat f = true → takes .load r.2 →
      ∃ t, exec r.1 s = .next t ∧ t.mem = s.mem ∧ (t.core n.val).pc = (s.core n.val).pc + 4 ∧
        (t.core n.val).x = (s.core n.val).x ∧ (t.core n.val).q = (s.core n.val).q ∧ (t.core n.val).csr.svxstart = 0 ∧
        (∀ i, (i < f.d.toNat ∨ f.d.toNat + nf.toNat < i) → (t.core n.val).vreg i = (s.core n.val).vreg i) ∧
        ∀ e g, e < v → g ≤ nf.toNat →
          Svx.elem ((t.core n.val).vreg (f.d.toNat + g)) w e =
            if s.on n f e then s.read (s.svxAt n r.2 nf.toNat f e g) (w / 8)
            else Svx.elem ((s.core n.val).vreg (f.d.toNat + g)) w e) ∧
    (∀ r ∈ [(Instr.svxVst n nf f, 4), (.svxVsts n nf f, 5), (.svxVstx n nf f, 6)],
      Svx.formOk r.2 nf.toNat f = true → takes .store r.2 →
      ∃ t, exec r.1 s = .next t ∧ (t.core n.val).pc = (s.core n.val).pc + 4 ∧ (t.core n.val).x = (s.core n.val).x ∧
        (t.core n.val).y = (s.core n.val).y ∧ (t.core n.val).q = (s.core n.val).q ∧ (t.core n.val).csr.svxstart = 0 ∧
        (∀ a, (∀ e g, act e g → a < s.svxAt n r.2 nf.toNat f e g ∨ s.svxAt n r.2 nf.toNat f e g + w / 8 ≤ a) →
          t.byte a = s.byte a) ∧
        (∀ e g, act e g →
          (∀ e1 g1, act e1 g1 → (e < e1 ∨ (e = e1 ∧ g < g1)) → s.svxAt n r.2 nf.toNat f e g ≠ s.svxAt n r.2 nf.toNat f e1 g1) →
          t.read (s.svxAt n r.2 nf.toNat f e g) (w / 8) = Svx.elem ((s.core n.val).vreg (f.d.toNat + g)) w e))

/-- Every SVX instruction completes where its core executes it with SVX on (R449, R450), its fields are those of its row (R453 to R458), a
floating-point one has a format for its size and a rounding mode in `frm` (R451), and a load or store meets memory that takes each
access of its active elements: the core goes on to the next instruction; only it, and for a store memory, has changed. -/
def Obligations.SvxInstructionsComplete : Prop :=
  ∀ (s : State) (n : Fin 32) (h : Bool) (nf : BitVec 2) (f : SvxFields), s.memOk → s.svxReady n →
    let sized := (Svx.spec f.sz.toNat).isSome = true
    let moded := (Svx.modeOf (s.core n.val)).isSome = true
    let float := sized ∧ moded
    let pred := fun x : BitVec 5 => x.toNat < 8
    let half := f.b.toNat < 2 ∧ f.q = 0 ∧ f.sz = 0
    let takes := fun (k : Access) (mop : Nat) => ∀ e g, e < 128 / 2 ^ f.sz.toNat → s.on n f e = true → g ≤ nf.toNat →
      let a := s.svxAt n mop nf.toNat f e g
      isEdern a = true ∧ s.physFault n .m k true a (2 ^ f.sz.toNat) = none ∧ s.poisonIn a (2 ^ f.sz.toNat) = false
    (∀ r ∈ ([
      (.svxAdd n f, True), (.svxSub n f, True), (.svxMul n f, True), (.svxMin n f, True), (.svxMax n f, True),
      (.svxAnd n f, True), (.svxOr n f, True), (.svxXor n f, True), (.svxSll n f, True), (.svxSrl n f, True), (.svxSra
      n f, True), (.svxMinu n f, True), (.svxMaxu n f, True), (.svxSel n f, True), (.svxIma n f, True),
      (.svxFadd n f, float), (.svxFsub n f, float), (.svxFmul n f, float), (.svxFdiv n f, float), (.svxFmin n f,
      float), (.svxFmax n f, float), (.svxFsgnj n f, float), (.svxFsgnjn n f, float), (.svxFsgnjx n f, float),
      (.svxFma n f, float), (.svxFnma n f, float),
      (.svxFsqrt n f, float ∧ f.b = 0),
      (.svxFwmul n h f, moded ∧ (f.sz = 1 ∨ f.sz = 2)), (.svxFwma n h f, moded ∧ (f.sz = 1 ∨ f.sz = 2)),
      (.svxIwmul n h f, f.sz ≠ 3), (.svxIwma n h f, f.sz ≠ 3), (.svxFdot n f, moded ∧ f.sz ≠ 3),
      (.svxIdot n f, f.sz.toNat ≤ 1), (.svxIdotu n f, f.sz.toNat ≤ 1),
      (.svxCmpeq n f, pred f.d), (.svxCmplt n f, pred f.d), (.svxCmpltu n f, pred f.d),
      (.svxFcmpeq n f, pred f.d ∧ sized), (.svxFcmplt n f, pred f.d ∧ sized), (.svxFcmple n f, pred f.d ∧ sized),
      (.svxFcmpun n f, pred f.d ∧ sized),
      (.svxPrange n f, pred f.d ∧ f.q = 0), (.svxPlog n f, pred f.d ∧ pred f.a ∧ pred f.b ∧ f.q = 0),
      (.svxPcnt n f, pred f.a ∧ f.b = 0), (.svxPfirst n f, pred f.a ∧ f.b = 0),
      (.svxPtox n f, pred f.a ∧ half), (.svxXtop n f, pred f.d ∧ half), (.svxSplat n f, f.b = 0),
      (.svxFsplat n f, f.b = 0 ∧ f.sz ≠ 0), (.svxExtr n f, f.q = 0), (.svxInsr n f, f.q = 0), (.svxIdx n f, f.a = 0 ∧
      f.b = 0),
      (.svxAddv n f, f.b = 0),
      (.svxFaddv n f, float ∧ f.b = 0 ∧ (s.core n.val).fpOn = true), (.svxFmaxv n f, float ∧ f.b = 0 ∧ (s.core
      n.val).fpOn = true), (.svxFminv n f, float ∧ f.b = 0 ∧ (s.core n.val).fpOn = true),
      (.svxFcvt n f, moded ∧ ((f.b.toNat < 12 ∧ f.sz = 0) ∨ (12 ≤ f.b.toNat ∧ f.b.toNat < 16 ∧ sized)))] :
      List (Instr × Prop)), r.2 → ∃ t, exec r.1 s = .next t ∧ s.coreSteps t n 4) ∧
    (Mmu.dataMode (s.core n.val) = .m →
      ∀ r ∈ ([(.svxVld n nf f, 0), (.svxVlds n nf f, 1), (.svxVldx n nf f, 2), (.svxVldr n nf f, 3), (.svxVst n nf f, 4),
        (.svxVsts n nf f, 5), (.svxVstx n nf f, 6)] : List (Instr × Nat)),
      Svx.formOk r.2 nf.toNat f = true → takes (if r.2 < 4 then .load else .store) r.2 →
      ∃ t, exec r.1 s = .next t ∧ (t.core n.val).pc = (s.core n.val).pc + 4 ∧ (t.core n.val).x = (s.core n.val).x ∧
        (t.core n.val).state = .running ∧ (t.core n.val).csr.svxstart = 0 ∧ (∀ k, k ≠ n.val → t.core k = s.core k) ∧
        t.jobs = s.jobs ∧ t.queues = s.queues ∧ (r.2 < 4 → t.mem = s.mem))

/-- Cache-block operations in machine mode on a block of Edern memory: `cbo.zero` clears its 64 bytes and nothing else;
`cbo.clean` leaves no dirty copy and `cbo.flush` no copy, and neither changes a byte; `cbo.inval` leaves no copy, and where no copy is
dirty changes no byte (R291, R436). FENCE moves the pc on and changes nothing else (R435). -/
def Obligations.CacheBlockOps : Prop :=
  ∀ (s : State) (n : Fin 32) (rs1 : BitVec 5), s.memOk → s.executes n 4 → s.coreShaped n →
    (∀ p q, ∃ t, exec (.hcFence n p q) s = .next t ∧ s.coreSteps t n 4 ∧ s.sameFloat t n ∧ (t.core n.val).x = (s.core n.val).x ∧
      (t.core n.val).y = (s.core n.val).y ∧ (t.core n.val).q = (s.core n.val).q) ∧
    ((s.core n.val).mode = .m → Mmu.dataMode (s.core n.val) = .m →
      let a := ((s.core n.val).reg rs1.toNat).toNat / 64 * 64
      isEdern a = true → s.physFault n .m .load false a 64 = none →
      let kept (t : State) : Prop := (t.core n.val).pc = (s.core n.val).pc + 4 ∧ (t.core n.val).x = (s.core n.val).x ∧
        (t.core n.val).y = (s.core n.val).y ∧ (t.core n.val).q = (s.core n.val).q ∧ ∀ k, k ≠ n.val → t.core k = s.core k
      (∃ t, exec (.cboClean n rs1) s = .next t ∧ kept t ∧ t.mem = s.mem ∧ (∀ b ∈ t.caches, b.addr = a → b.stale = none) ∧
        ∀ b ∈ s.caches, b.addr ≠ a → b ∈ t.caches) ∧
      (∃ t, exec (.cboFlush n rs1) s = .next t ∧ kept t ∧ t.mem = s.mem ∧
        t.caches = s.caches.filter fun b => b.addr != a) ∧
      (∃ t, exec (.cboInval n rs1) s = .next t ∧ kept t ∧ (t.caches = s.caches.filter fun b => b.addr != a) ∧
        ((∀ b ∈ s.caches, b.addr = a → b.stale = none) → t.mem = s.mem)) ∧
      (s.physFault n .m .store false a 64 = none → s.poisonIn a 64 = false →
        ∃ t, exec (.cboZero n rs1) s = .next t ∧ kept t ∧
          ∀ b, t.byte b = if a ≤ b ∧ b < a + 64 then 0 else s.byte b))

/-- Atomics of a host core in machine mode on Edern memory: the word takes its new value at the stack, rd the one before; LR reserves
the line; SC stores and gives 0 with the reservation, gives 1 and stores nothing without it, and ends it (R268, R438). -/
def Obligations.CoreAtomics : Prop :=
  ∀ (s : State) (n : Fin 32) (op : AmoOp) (double : Bool) (rd rs1 rs2 : BitVec 5), s.memOk → s.executes n 4 → s.coreShaped n →
    Mmu.dataMode (s.core n.val) = .m →
    let k := if double then 8 else 4
    let c := s.core n.val
    let a := (c.reg rs1.toNat).toNat
    let v := (c.reg rs2.toNat).toNat % 2 ^ (8 * k)
    let old := s.read a k
    let loads (t : State) (x : W64) : Prop := (t.core n.val).pc = c.pc + 4 ∧ (t.core n.val).y = c.y ∧ (t.core n.val).q = c.q ∧
      (∀ i, (t.core n.val).reg i = if i = rd.toNat ∧ i ≠ 0 then x else c.reg i) ∧ ∀ m, m ≠ n.val → t.core m = s.core m
    let holds (t : State) (x : Nat) : Prop := t.read a k = x ∧ ∀ b, (b < a ∨ a + k ≤ b) → t.byte b = s.byte b
    let held := (n.val, a / 256 * 256) ∈ s.reservations
    isEdern a = true → s.physFault n .m .amo false a k = none → s.poisonIn a k = false →
      (∃ t, exec (.hcAmo n op double rd rs1 rs2) s = .next t ∧ loads t (Amo.extend k old) ∧ holds t (Amo.compute op (8 * k) old v)) ∧
      (s.physFault n .m .lr false a k = none → ∃ t, exec (.lrSc n false double rd rs1 rs2) s = .next t ∧ loads t (Amo.extend k old) ∧ t.mem = s.mem ∧
        (n.val, a / 256 * 256) ∈ t.reservations ∧ ∀ l, (n.val, l) ∈ t.reservations → l = a / 256 * 256) ∧
      (held → ∃ t, exec (.lrSc n true double rd rs1 rs2) s = .next t ∧ loads t 0 ∧ holds t v ∧ ∀ r ∈ t.reservations, r.1 ≠ n.val) ∧
      (¬ held → ∃ t, exec (.lrSc n true double rd rs1 rs2) s = .next t ∧ loads t 1 ∧ t.mem = s.mem ∧
        ∀ r ∈ t.reservations, r.1 ≠ n.val)

/-- Scalar instructions by their words in RISC-V: ADDI and ADD write rd alone, JAL links and jumps, a write of `mscratch` in machine
mode swaps it, and the word 0 is illegal and traps with cause 2; an enabled timer interrupt enters its handler (R425, R428, R441;
the encodings are those of the RISC-V specifications, log 2). -/
def Obligations.ScalarWordsAndTimer : Prop :=
  ∀ (s : State) (n : Fin 32), s.coreShaped n →
    let c := s.core n.val
    (∀ (rd rs1 rs2 : BitVec 5) (imm : BitVec 12), s.executes n 4 →
      (∃ t, exec (.scalarInstruction n (imm ++ rs1 ++ 0#3 ++ rd ++ 0x13#7)) s = .next t ∧
        s.writesInteger t n 4 rd (c.reg rs1.toNat + imm.signExtend 64)) ∧
      (∃ t, exec (.scalarInstruction n (0#7 ++ rs2 ++ rs1 ++ 0#3 ++ rd ++ 0x33#7)) s = .next t ∧
        s.writesInteger t n 4 rd (c.reg rs1.toNat + c.reg rs2.toNat)) ∧
      (c.mode = .m → ∃ t, exec (.scalarInstruction n (0x340#12 ++ rs1 ++ 1#3 ++ rd ++ 0x73#7)) s = .next t ∧
        (t.core n.val).csr.mscratch = c.reg rs1.toNat ∧ (t.core n.val).pc = c.pc + 4 ∧ t.mem = s.mem ∧
        ∀ i, (t.core n.val).reg i = if i = rd.toNat ∧ i ≠ 0 then c.csr.mscratch else c.reg i)) ∧
    (∀ (rd : BitVec 5) (i10 : BitVec 10) (i8 : BitVec 8) (i11 i20 : BitVec 1), s.executes n 4 → c.trace = false →
      ∃ t, exec (.scalarInstruction n (i20 ++ i10 ++ i11 ++ i8 ++ rd ++ 0x6F#7)) s = .next t ∧ s.coreMoves t n ∧
        (t.core n.val).pc = c.pc + (i20 ++ i8 ++ i11 ++ i10 ++ 0#1).signExtend 64 ∧
        ∀ i, (t.core n.val).reg i = if i = rd.toNat ∧ i ≠ 0 then c.pc + 4 else c.reg i) ∧
    (s.executes n 2 → c.mode = .m → c.trace = false →
      ∃ t, exec (.scalarInstruction n 0) s = .next t ∧ (t.core n.val).pc = (c.csr.mtvec &&& ~~~3) ∧
        (t.core n.val).csr.mepc = c.pc ∧ (t.core n.val).csr.mcause = 2 ∧ (t.core n.val).csr.mtval = 0 ∧
        (t.core n.val).mode = .m ∧ (t.core n.val).x = c.x ∧ t.mem = s.mem ∧ ∀ r ∈ t.reservations, r.1 ≠ n.val) ∧
    (c.state = .running ∨ c.state = .wfi → c.csr.mtimecmp.toNat ≤ s.now → s.nextIrq n.val = some 7 → c.csr.mideleg.getLsbD 7 = false →
      c.trace = false →
      ∃ t, exec (.timerInterrupt n) s = .next t ∧ (t.core n.val).mode = .m ∧ (t.core n.val).csr.mepc = c.pc ∧
        (t.core n.val).csr.mcause = 0x8000000000000007 ∧ (t.core n.val).csr.mstatus.getLsbD 3 = false ∧
        (t.core n.val).csr.mstatus.getLsbD 7 = c.csr.mstatus.getLsbD 3 ∧ (t.core n.val).x = c.x ∧ t.mem = s.mem ∧
        (t.core n.val).pc = (c.csr.mtvec &&& ~~~3) + (if c.csr.mtvec.getLsbD 0 then 28 else 0)) ∧
    (s.now < c.csr.mtimecmp.toNat → s.now < c.csr.stimecmp.toNat → c.csr.menvcfg.getLsbD 63 = true →
      exec (.timerInterrupt n) s = .next s)

/-! ### Ethernet, RDMA and Suilo (R490 to R511) -/

/-- An Ethernet port: it comes up where it is enabled and the crystal runs, and its loss puts its queue pairs into the error
state; ARP, Neighbour Discovery and echo are answered for its own addresses, a lease sets them, a pause frame under 802.3 flow
control stops every priority, XON drains to 512 KiB, and a dropped frame is counted (R491 to R494, R499, R500, R524). -/
def Obligations.EthernetPortEvents : Prop :=
  ∀ (s : State) (e : Fin 8), s.eth.length = 8 →
    let x := s.ethPort e.val
    let put (f : EthPort → EthPort) : State := { s with eth := s.eth.modify e.val f }
    let heard (y : EthPort) : EthPort := { y with rxFrames := y.rxFrames + 1 }
    let answers (i : Instr) (bs : List Byte) : Prop := exec i s = .next
      { put (fun y => { heard y with txFrames := y.txFrames + 1 }) with out := s.out ++ [.eth e.val 0 bs] }
    (x.enable = true → s.pacer.crystal = true → x.up = false →
      exec (.ethLinkUp e) s = .next (put fun y => { y with up := true, speedNow := y.speed })) ∧
    (x.up = true ∨ x.enable = false ∨ s.pacer.crystal = false → exec (.ethLinkUp e) s = .next s) ∧
    (x.up = true → s.sessions = [] → exec (.ethLinkDown e) s = .next
      { put (fun y => { y with up := false, fill := 0, xoff := false, paused := List.replicate 8 0 }) with
        qps := s.qps.map fun q => if q.port = e.val then { q with error := true } else q }) ∧
    (x.up = false → exec (.ethLinkDown e) s = .next s ∧ ∀ why, exec (.rxDrop e why) s = .next s) ∧
    (x.up = true →
      (∀ a, s.ownsV4 e.val a = true →
        answers (.arp e a) (toBe 6 (State.macOf e.val) ++ toBe 4 a.toNat) ∧
        ∀ a6 d, a6.setWidth 32 = a → answers (.echo e false a6 d) d) ∧
      (∀ a, s.ownsV6 e.val a = true →
        answers (.neighborDiscovery e a) (toBe 16 a.toNat ++ toBe 6 (State.macOf e.val)) ∧ ∀ d, answers (.echo e true a d) d) ∧
      (∀ a, s.ownsV4 e.val a = false → exec (.arp e a) s = .next (put heard)) ∧
      (∀ a, s.ownsV6 e.val a = false → exec (.neighborDiscovery e a) s = .next (put heard)) ∧
      (x.fixed = none → ∀ v4 v6, exec (.dhcpLease e v4 v6) s = .next
        (put fun y => { heard y with ipv4 := v4.getD y.ipv4, ipv6 := v6.getD y.ipv6 })) ∧
      (x.fc = 1 → ∀ prio quanta, exec (.pauseFrame e prio quanta) s = .next
        (put fun y => { heard y with
          paused := List.replicate 8 (s.now + (512 * quanta + if y.speedNow then 999 else 1999) / if y.speedNow then 1000 else 2000) })) ∧
      (x.xoff = false → exec (.xon e) s = .next (put fun y => { y with fill := min y.fill 0x80000 })) ∧
      exec (.rxDrop e .protocol) s = .next (put fun y => { y with rxDrop := y.rxDrop + 1 }) ∧
      (∀ b, exec (.suiloBad e .tag b) s = .next (put fun y => { heard y with suiloBad := y.suiloBad + 1 })))

/-- A RoCEv2 request on a queue pair that works: a SEND fills the record at write_index and advances it, a WRITE stores its data
in a region that its key grants and nothing outside, a READ answers with the region's bytes and changes no memory, and each is
acknowledged; a range that no key grants errors the pair, as an atomic does; a CNP halves the READ rate (R495, R497 to R499). -/
def Obligations.RoceRequests : Prop :=
  ∀ (s : State) (n : Nat) (q : Qp), s.memOk → s.qp? n = some q → q.error = false → (s.ethPort q.port).up = true → q.port < s.eth.length →
    let frame (r : State.RoceReply) (more : List Byte) : Sent :=
      .eth q.port ((0 : BitVec 32) ++ q.gid) (toLe 1 r.code ++ toBe 3 q.hostQpn ++ toBe 3 q.hostPsn ++ more)
    let done (t : State) (len : Nat) (more : List Byte) : Prop :=
      t.out = s.out ++ [frame .ack more] ∧ t.qp? n = some { q with hostPsn := (q.hostPsn + max 1 (ceilDiv len q.mtu)) % 2 ^ 24 } ∧
        t.jobs.map Job.id = s.jobs.map Job.id ∧ t.queues = s.queues ∧ t.sessions = s.sessions
    (∀ imm data, data.length ≤ 4096 → s.qpFull q = false → 0 < q.ringSlots → s.qpLine q data.length = none →
      let a := q.ringBase + 0x40 + ((s.read64 q.ringBase).toNat % q.ringSlots) * 0x1040
      ∃ t, exec (.send n imm false data) s = .next t ∧ done t data.length [] ∧
        t.bytes a (64 + data.length) = toLe 4 data.length ++ toLe 4 (match imm with
          | some v => v.toNat
          | none => 0) ++ toLe 1 (if imm.isSome then 1 else 0) ++ List.replicate 55 0 ++ data ∧
        t.read64 q.ringBase = s.read64 q.ringBase + 1 ∧
        ∀ b, (b < q.ringBase ∨ q.ringBase + 8 ≤ b) → (b < a ∨ a + 64 + data.length ≤ b) → t.byte b = s.byte b) ∧
    (∀ imm data, data.length ≤ 4096 → s.qpFull q = true →
      ∃ t, exec (.send n imm false data) s = .next t ∧ t.out = s.out ++ [frame .rnr (toLe 1 q.rnr)] ∧ t.mem = s.mem ∧
        t.qp? n = some q) ∧
    (∀ key va data, data.length ≤ 2 ^ 31 → 0 < data.length → isEdern va.toNat = true → s.rdmaDoorbell? q key va data.length = none →
      s.rdmaAllowed q true key va data.length = true → s.poisonIn va.toNat data.length = false →
      ∃ t, exec (.rdmaWrite n key va none false data) s = .next t ∧ done t data.length [] ∧ t.bytes va.toNat data.length = data ∧
        ∀ b, (b < va.toNat ∨ va.toNat + data.length ≤ b) → t.byte b = s.byte b) ∧
    (∀ key va len, len ≤ 2 ^ 31 → s.rdmaAllowed q false key va len = true → s.poisonIn va.toNat len = false →
      ∃ t, exec (.rdmaRead n key va len false) s = .next t ∧ done t len (s.bytes va.toNat len) ∧ t.mem = s.mem) ∧
    (∀ key va len, len ≤ 2 ^ 31 → s.rdmaAllowed q false key va len = false →
      ∃ t, exec (.rdmaRead n key va len false) s = .next t ∧ t.out = s.out ++ [frame .nakAccess []] ∧ t.mem = s.mem ∧
        t.qp? n = some { q with error := true }) ∧
    (∃ t, exec (.rdmaAtomic n) s = .next t ∧ t.out = s.out ++ [frame .nakInvalid []] ∧ t.mem = s.mem ∧
      t.qp? n = some { q with error := true }) ∧
    (∃ t, exec (.cnp n) s = .next t ∧ t.qp? n = some { q with rateExp := q.rateExp + 1, cnpHeard := some s.now } ∧
      t = { s with qps := t.qps }) ∧
    (∀ h, q.cnpHeard = some h → h + 5000 ≤ s.now → q.rateNum + 2 ^ q.rateExp < 16 * 2 ^ q.rateExp →
      ∃ t, exec (.cnpRateRecovery n) s = .next t ∧
        t.qp? n = some { q with rateNum := q.rateNum + 2 ^ q.rateExp, cnpHeard := some (h + 5000) } ∧ t = { s with qps := t.qps }) ∧
    (q.cnpHeard = none → ∃ t, exec (.cnpRateRecovery n) s = .next t ∧ t.qp? n = some q ∧ t = { s with qps := t.qps })

/-- HELLO opens a handshake on the lowest free mailbox and answers HELLO_REPLY, or ends with a REFUSE that carries the status;
AUTH with a valid proof opens the session with its device event queue, one without ends it and, for a claim, counts (R505, R506,
R508, R509). -/
def Obligations.HandshakesOpenSessions : Prop :=
  ∀ (s : State) (k : SuiloPacket), k.serial = s.serial → k.relayed = false → k.port.val < s.eth.length →
    let sent (t : State) (type : Nat) (id : W32) (bs : List Byte) : Prop :=
      t.out = s.out ++ [.suilo k.port.val k.from_ type id 0 0 false bs]
    let s0 := s.countFrame k.port.val
    (∀ st, s0.helloRefusal k.payload = some st →
      ∃ t, exec (.suiloHello k) s = .next t ∧ sent t 5 0 (toLe 2 st.code) ∧ t.sessions = s.sessions ∧ t.mem = s.mem ∧
        t.starter = s.starter) ∧
    (s0.helloRefusal k.payload = none → s.sessions.length ≤ 16 → ∀ m, s.freeMailbox = some m →
      ∃ t x, exec (.suiloHello k) s = .next t ∧ t.sessions = s.sessions ++ [x] ∧ x.state = .handshake ∧ x.mailbox = m ∧
        (∀ y ∈ s.sessions, y.id ≠ x.id) ∧ x.id ≠ 0 ∧ x.claim = Hello.claim k.payload ∧ x.keyId = Hello.keyId k.payload ∧
        x.port = k.port.val ∧ x.addr = k.from_ ∧ x.eqBase = Hello.eqBase k.payload ∧ x.eqSlots = Hello.eqSlots k.payload ∧
        x.hello = k.payload ∧ x.startedAt = s.now ∧ sent t 2 x.id x.hreply ∧ t.mem = s.mem ∧ t.rings = s.rings) ∧
    (∀ x, s.session? k.session = some x → x.state = .handshake → x.relayed = false → x.port < s.eth.length → x.unacked = [] →
      x.queued = [] → 0 < x.window → s.pair.mode = .unpaired →
      (s.authHolds x k.payload = true →
        ∃ t y, exec (.suiloAuth k) s = .next t ∧ t.session? k.session = some y ∧
          y.state = (if x.claim then .claim else .opened) ∧ y.mailbox = x.mailbox ∧ y.txSeq = x.txSeq + 1 ∧
          y.unacked.map Unacked.type = [4] ∧ (y.keyIn, y.keyOut) = Config.sessionKeys (x.hello ++ x.hreply) ∧
          (∃ r ∈ t.rings, r.id = 0xFF00 + x.mailbox ∧ r.kind = .event ∧ r.base = x.eqBase ∧ r.slots = x.eqSlots) ∧
          (x.claim = true → t.starter.claimFail = 0 ∧ t.starter.lockUntil = 0) ∧ t.jobs.map Job.id = s.jobs.map Job.id) ∧
      (s.authHolds x k.payload = false →
        ∃ t, exec (.suiloAuth k) s = .next t ∧ t.out = s.out ++ [.suilo x.port x.addr 5 x.id 0 0 false (toLe 2 Status.noAuth.code)] ∧
          (t.sessions = s.sessions.filter fun y => y.id != x.id) ∧ t.mem = s.mem ∧
          t.starter.claimFail = (if x.claim then s.starter.claimFail + 1 else s.starter.claimFail) ∧
          (x.claim = true → 4 ≤ s.starter.claimFail →
            t.starter.lockUntil = s.now + 100000000 * min 86400 (60 * 2 ^ (s.starter.claimFail - 4)))))

/-- A protected packet in its place on the session's path: its sequence number is taken, and its message acts: MBX fills the
session's free mailbox and rings it, DOORBELL rings its queue, ACK and KEEPALIVE do no more, PATH is answered on its path, CLOSE ends
a session with nothing unacknowledged; a sequence number that was taken before does nothing again (R502, R503, R505, R510). -/
def Obligations.SessionPacketsAct : Prop :=
  ∀ (s : State) (k : SuiloPacket) (x : Session), s.memOk → k.serial = s.serial → s.session? k.session = some x →
    (x.state = .opened ∨ x.state = .claim) → k.ackValid = false → k.more = false → x.ahead = [] → x.partialMsg = [] → x.probing = false →
    x.ackCount < 7 → x.port = k.port.val → x.addr = k.from_ → x.relayed = k.relayed → k.relayed = false →
    k.port.val < s.eth.length →
    let took (t : State) : Prop := ∃ y, t.session? k.session = some y ∧ y.rxSeq = x.rxSeq + 1 ∧ y.lastRx = s.now ∧
      y.ackCount = x.ackCount + 1 ∧ y.state = x.state ∧ y.ahead = [] ∧ y.partialMsg = []
    (k.seq.toNat = x.rxSeq →
      ((s.mbox x.mailbox).busy = false → x.mailbox < 16 → x.mailbox < s.mailboxes.length →
        ∃ t, exec (.suiloMbx k) s = .next t ∧ took t ∧ (t.mbox x.mailbox).busy = true ∧ (t.mbox x.mailbox).done = false ∧
          t.bytes (State.mboxArea x.mailbox) (k.payload.take 4096).length = k.payload.take 4096 ∧
          (∀ b, (b < State.mboxArea x.mailbox ∨ State.mboxArea x.mailbox + (k.payload.take 4096).length ≤ b) → t.byte b = s.byte b) ∧
          t.queues = s.queues) ∧
      ((s.mbox x.mailbox).busy = true → x.mailbox < 16 → x.mailbox < s.mailboxes.length →
        ∃ t, exec (.suiloMbx k) s = .next t ∧ took t ∧ (t.mbox x.mailbox).overrun = true ∧ t.mem = s.mem) ∧
      (∀ q : CmdQueue, k.payload.length = 16 → s.queue? (leNat (k.payload.take 2)) = some q → q.state = .running →
        let v := BitVec.ofNat 64 (leNat (k.payload.drop 8))
        (v - q.write).toNat < 2 ^ 63 → (v - s.qwFree q).toNat ≤ q.slots →
        ∃ t, exec (.suiloDoorbell k) s = .next t ∧ took t ∧ t.mem = s.mem ∧
          t.queue? (leNat (k.payload.take 2)) = some { q with write := v }) ∧
      (∀ i ∈ [Instr.suiloAck k, .suiloKeepalive k], ∃ t, exec i s = .next t ∧ took t ∧ t.mem = s.mem ∧ t.queues = s.queues ∧
        t.mailboxes = s.mailboxes ∧ t.out = s.out) ∧
      (∃ t bs, exec (.suiloPath k) s = .next t ∧ took t ∧ t.mem = s.mem ∧
        t.out = s.out ++ [.suilo k.port.val k.from_ 0x16 x.id x.txSeq (x.rxSeq + 1) false bs]) ∧
      (x.unacked = [] → x.queued = [] → ∃ t, exec (.suiloClose k) s = .next t ∧ (t.sessions = s.sessions.filter fun y => y.id != k.session) ∧ t.mem = s.mem ∧
        (∀ r ∈ t.rings, r.id ≠ 0xFF00 + x.mailbox) ∧ ∀ q ∈ t.qps, q.session ≠ k.session)) ∧
    (k.seq.toNat < x.rxSeq → ∀ i ∈ [Instr.suiloMbx k, .suiloDoorbell k, .suiloPath k, .suiloClose k],
      ∃ t y, exec i s = .next t ∧ t.session? k.session = some y ∧ y.rxSeq = x.rxSeq ∧ y.state = x.state ∧ t.mem = s.mem ∧
        t.mailboxes = s.mailboxes ∧ t.queues = s.queues ∧ t.out = s.out)

/-- The timers of a session: each acts once its time has passed and nothing before: a resend with its bytes unchanged and twice the
interval, ACK after 1 ms, KEEPALIVE after 10 ms, the end after 30 s of silence, REFUSE with some status after 1 s of handshake, the end of closing
after 100 ms, probes after 30 ms or a lost port, and again each 100 ms (R502, R505, R508, R510). -/
def Obligations.SessionTimersAct : Prop :=
  ∀ (s : State) (x : Session), s.session? x.id = some x → x.relayed = false → x.port < s.eth.length →
    let sent (t : State) (type : Nat) : Prop :=
      ∃ bs, t.out = s.out ++ [.suilo x.port x.addr type x.id x.txSeq x.rxSeq false bs] ∧ t.mem = s.mem ∧
        ∃ y, t.session? x.id = some y ∧ y.txSeq = x.txSeq + 1 ∧ y.lastTx = s.now ∧ y.ackSince = none ∧ y.state = x.state
    let ends (i : Instr) : Prop := exec i s = .next { s with
      sessions := s.sessions.filter (fun y => y.id != x.id), qps := s.qps.filter (fun q => q.session != x.id)
      rings := s.rings.filter fun r => r.id != 0xFF00 + x.mailbox }
    (∀ u, x.unacked.filter (fun v => v.seq == u.seq) = [u] →
      (u.interval < s.now - u.sentAt →
        ∃ t y v, exec (.suiloRetransmit x.id u.seq) s = .next t ∧
          t.out = s.out ++ [.suilo x.port x.addr u.type x.id u.seq u.ack false u.payload] ∧ t.mem = s.mem ∧
          t.session? x.id = some y ∧ v ∈ y.unacked ∧ v.seq = u.seq ∧ v.sentAt = s.now ∧ v.interval = min 3200000 (2 * u.interval) ∧
          v.payload = u.payload ∧ y.txSeq = x.txSeq) ∧
      (s.now - u.sentAt ≤ u.interval → exec (.suiloRetransmit x.id u.seq) s = .next s)) ∧
    (x.queued = [] → x.unacked.length < x.window → ∀ a, x.ackSince = some a →
      (a + 100000 ≤ s.now → ∃ t, exec (.suiloAckTimer x.id) s = .next t ∧ sent t 0x14) ∧
      (s.now < a + 100000 → exec (.suiloAckTimer x.id) s = .next s)) ∧
    (x.queued = [] → x.unacked.length < x.window → x.state ≠ .handshake → x.lastTx + 1000000 ≤ s.now →
      ∃ t, exec (.keepaliveTimer x.id) s = .next t ∧ sent t 0x15) ∧
    (s.now < x.lastTx + 1000000 → exec (.keepaliveTimer x.id) s = .next s) ∧
    (x.state ≠ .handshake → x.lastRx + 3000000000 < s.now → ends (.sessionIdleTimeout x.id)) ∧
    (s.now ≤ x.lastRx + 3000000000 → exec (.sessionIdleTimeout x.id) s = .next s) ∧
    (x.state = .handshake → x.startedAt + 100000000 < s.now →
      ∃ t bs, exec (.handshakeTimeout x.id) s = .next t ∧ bs.length = 2 ∧
        t.out = s.out ++ [.suilo x.port x.addr 5 x.id 0 0 false bs] ∧ t.mem = s.mem ∧
        t.sessions = s.sessions.filter fun y => y.id != x.id) ∧
    (s.now ≤ x.startedAt + 100000000 → exec (.handshakeTimeout x.id) s = .next s) ∧
    (x.state = .closing → x.closeAt + 10000000 < s.now → ends (.closingTimeout x.id)) ∧
    (s.now ≤ x.closeAt + 10000000 → exec (.closingTimeout x.id) s = .next s) ∧
    (x.state = .opened → x.probing = false → x.pathRx + 3000000 < s.now ∨ (s.ethPort x.port).up = false →
      ∃ t y, exec (.pathLoss x.id) s = .next t ∧ t.session? x.id = some y ∧ y.probing = true ∧ y.probe = x.probe + 1 ∧
        y.probedAt = s.now ∧ y.port = x.port ∧ t.mem = s.mem) ∧
    (s.now ≤ x.pathRx + 3000000 → (s.ethPort x.port).up = true → exec (.pathLoss x.id) s = .next s) ∧
    (x.probing = true → x.probedAt + 10000000 ≤ s.now →
      ∃ t y, exec (.pathProbeRetry x.id) s = .next t ∧ t.session? x.id = some y ∧ y.probe = x.probe + 1 ∧ y.probedAt = s.now ∧
        t.mem = s.mem) ∧
    (x.probing = false → exec (.pathProbeRetry x.id) s = .next s)

/-! ### Every step -/

/-- At reset the block is whole (`State.kept`): the counts of units are the spec's, the canonical form of memory is the model's. -/
def Obligations.ResetIsWhole : Prop :=
 State.reset.kept

/-- The block stays whole: whatever state is whole and whatever command waits first, a step leaves memory in canonical form and
every unit and register file in place. -/
def Obligations.EveryStepKeepsTheBlockWhole : Prop :=
  ∀ s t : State, s.kept → step s = .next t → t.kept

/-- No command reaches the queue of waiting commands or the identity of the device (R463), and once a device is unfit no command makes
it fit again (R22; that a reset keeps it is the model's reading, log 45). -/
def Obligations.CommandsLeaveQueueAndIdentity : Prop :=
  ∀ (c : Instr) (s t : State), exec c s = .next t →
    t.pending = s.pending ∧ t.serial = s.serial ∧ (s.unfit = true → t.unfit = true)

/-! ### Numbers (R38 to R43) -/

/-- Every pattern of a floating-point format that is not a NaN is the pattern of its own value, so no two patterns share a value but
the zeros by sign; for FP19, whose 13 low bits are 0, of the patterns it has (R39, R42, R43). The integers round-trip too. -/
def Obligations.FormatPatternsRoundTrip : Prop :=
  (∀ (f : Fmt) (fs : FloatSpec), f.spec = some fs → ∀ raw, raw < 2 ^ f.bits → raw % 2 ^ fs.shift = 0 →
    fs.decode raw ≠ .nan → fs.encode (fs.decode raw) = raw) ∧
  (∀ (f : Fmt) n, f.intBits = some n → ∀ raw, raw < 2 ^ n → unsignedOf n (signedOf n raw) = raw)

/-- A conversion between integer formats is exact when widening and saturates when narrowing (R59). SCE8 converts to and from FP32
alone: 0xFF gives the canonical NaN, code c of 1 to 254 gives 2^(c − 127), 0 gives +0; a NaN gives 0xFF, a zero 0, an infinity 0xFE,
and a finite nonzero x gives floor(log2|x|) + 127, which is its exponent field, whatever its sign and the rounding mode (R60). -/
def Obligations.IntegerAndScaleConversions : Prop :=
  (∀ (a b : Fmt) n m, a.intBits = some n → b.intBits = some m → ∀ (mode : RMode) (sat : Bool) (r raw : Nat), raw < 2 ^ n →
    let y := (convertElem false b mode sat r (readElem a raw)).1
    y < 2 ^ m ∧ (n ≤ m → signedOf m y = signedOf n raw) ∧
      signedOf m y = max (-(2 ^ (m - 1) : Int)) (min (2 ^ (m - 1) - 1) (signedOf n raw))) ∧
  (∀ f : Fmt, (pairDefined .sce8 f = true ↔ f = .fp32) ∧ (pairDefined f .sce8 = true ↔ f = .fp32)) ∧
  ∀ (mode : RMode) (sat : Bool) (r : Nat),
    (∀ c, c < 256 → (convertElem false .fp32 mode sat r (readElem .sce8 c)).1 =
      if c = 255 then 0x7FC00000 else if c = 0 then 0 else c * 2 ^ 23) ∧
    ∀ raw, raw < 2 ^ 32 →
      let e := raw / 2 ^ 23 % 256
      let frac := raw % 2 ^ 23
      (convertElem false .sce8 mode sat r (readElem .fp32 raw)).1 =
        if e = 255 then (if frac = 0 then 0xFE else 0xFF) else e

/-- y0 to y31 are 32 registers of 1,024 bits and q0 to q7 eight of 128; fn is bits [63:0] of yn; q0 reads all ones and discards
writes (R445). The supervisor timer interrupt is pending while `time` is at least `stimecmp`, unsigned, under Sstc, and the machine
timer interrupt follows `mtimecmp` in the same way (R441). -/
def Obligations.VectorRegistersAndTimers : Prop :=
  (∀ c ∈ State.reset.cores, c.y.length = 32 ∧ c.q.length = 8) ∧
  (∀ (c : HostCore) (v : PReg), c.preg 0 = BitVec.allOnes 128 ∧ c.setPreg 0 v = c) ∧
  (∀ (c : HostCore) (i : Nat) (v : VReg), i < c.y.length → (c.setVreg i v).freg i = BitVec.extractLsb' 0 64 v) ∧
  ∀ (s : State) (n : Nat),
    ((s.core n).csr.menvcfg.getLsbD 63 = true → ((s.mipOf n).testBit 5 = true ↔ (s.core n).csr.stimecmp.toNat ≤ s.now)) ∧
    ((s.mipOf n).testBit 7 = true ↔ (s.core n).csr.mtimecmp.toNat ≤ s.now)
end

