-- ==== Sys2Proof/Laws/Memory.lean ====
section
/-! SUPPORT. Memory: every operation keeps the canonical form, a read after a write to the same byte gives the value written, and
a write leaves every other byte alone. -/

namespace Sys2Proof.Machine

namespace Memory

/-! ### The canonical form -/

theorem sortedFrom_mono {m : Memory} {n k : Nat} (h : sortedFrom n m = true) (hk : k ≤ n) : sortedFrom k m = true := by
  cases m with
  | nil => rfl
  | cons c m => simp only [sortedFrom, Bool.and_eq_true, decide_eq_true_eq] at h ⊢; exact ⟨⟨by omega, h.1.2⟩, h.2⟩

theorem get_below {m : Memory} {n a : Nat} (h : sortedFrom n m = true) (ha : a < n) : get m a = 0 := by
  cases m with
  | nil => rfl
  | cons c m =>
    simp only [sortedFrom, Bool.and_eq_true, decide_eq_true_eq] at h
    have : a ≠ c.1 := by omega
    have : a < c.1 := by omega
    simp [get, *]

theorem sortedFrom_set {m : Memory} {n : Nat} (h : sortedFrom n m = true) (k : Nat) (v : Byte) (hk : n ≤ k) :
    sortedFrom n (set m k v) = true := by
  induction m generalizing n with
  | nil => simp only [set]; split <;> simp_all [sortedFrom]
  | cons c m ih =>
    simp only [sortedFrom, Bool.and_eq_true, decide_eq_true_eq] at h
    obtain ⟨⟨h1, h2⟩, h3⟩ := h
    unfold set
    split
    · split
      · simp only [sortedFrom, Bool.and_eq_true, decide_eq_true_eq]; exact ⟨⟨h1, h2⟩, h3⟩
      · rename_i hlt hv
        simp only [sortedFrom, Bool.and_eq_true, decide_eq_true_eq, bne_iff_ne, ne_eq]
        exact ⟨⟨hk, hv⟩, ⟨by omega, by simpa using h2⟩, h3⟩
    · split
      · split
        · exact sortedFrom_mono h3 (by omega)
        · rename_i _ hka hv
          simp only [sortedFrom, Bool.and_eq_true, decide_eq_true_eq, bne_iff_ne, ne_eq]
          exact ⟨⟨hk, hv⟩, hka ▸ h3⟩
      · simp only [sortedFrom, Bool.and_eq_true, decide_eq_true_eq]
        exact ⟨⟨h1, h2⟩, ih h3 (by omega)⟩

theorem wf_set {m : Memory} (h : m.wf = true) (k : Nat) (v : Byte) : (set m k v).wf = true :=
  sortedFrom_set h k v (Nat.zero_le k)

theorem wf_setBytes {m : Memory} (h : m.wf = true) (a : Nat) (bs : List Byte) : (setBytes m a bs).wf = true := by
  induction bs generalizing m a with
  | nil => exact h
  | cons b bs ih => exact ih (wf_set h a b) (a + 1)

theorem sortedFrom_filter {m : Memory} {n : Nat} (h : sortedFrom n m = true) (p : Host.Cell → Bool) :
    sortedFrom n (m.filter p) = true := by
  induction m generalizing n with
  | nil => rfl
  | cons c m ih =>
    simp only [sortedFrom, Bool.and_eq_true, decide_eq_true_eq] at h
    rw [List.filter_cons]
    split
    · simp only [sortedFrom, Bool.and_eq_true, decide_eq_true_eq]; exact ⟨h.1, ih h.2⟩
    · exact sortedFrom_mono (ih h.2) (by omega)

theorem wf_slice {m : Memory} (h : m.wf = true) (base len : Nat) : Memory.wf (slice m base len) = true := sortedFrom_filter h _

theorem wf_without {m : Memory} (h : m.wf = true) (base len : Nat) : Memory.wf (without m base len) = true := sortedFrom_filter h _

theorem wf_foldl_set {m : Memory} (h : m.wf = true) (cells : List Host.Cell) :
    Memory.wf (cells.foldl (fun acc c => set acc c.1 c.2) m) = true := by
  induction cells generalizing m with
  | nil => exact h
  | cons c cells ih => exact ih (wf_set h c.1 c.2)

theorem wf_overlay {m : Memory} (h : m.wf = true) (base len : Nat) (cells : List Host.Cell) :
    (overlay m base len cells).wf = true := wf_foldl_set (sortedFrom_filter h _) _

/-! ### Reads after writes -/

theorem get_set_self {m : Memory} {n : Nat} (h : sortedFrom n m = true) (k : Nat) (v : Byte) : get (set m k v) k = v := by
  induction m generalizing n with
  | nil => simp only [set]; split <;> simp_all [get]
  | cons c m ih =>
    simp only [sortedFrom, Bool.and_eq_true, decide_eq_true_eq] at h
    unfold set
    split
    · split
      · rename_i hlt hv
        have : k ≠ c.1 := by omega
        simp [get, this, hlt, hv]
      · simp [get]
    · split
      · split
        · rename_i _ hka hv
          rw [get_below h.2 (by omega), hv]
        · simp [get]
      · rename_i h1 h2
        simp only [get, h2, h1, if_false]
        exact ih h.2

theorem get_set_ne {m : Memory} {n : Nat} (h : sortedFrom n m = true) {k a : Nat} (v : Byte) (ha : a ≠ k) :
    get (set m k v) a = get m a := by
  induction m generalizing n with
  | nil => simp only [set]; split <;> simp_all [get]
  | cons c m ih =>
    simp only [sortedFrom, Bool.and_eq_true, decide_eq_true_eq] at h
    unfold set
    split
    · split
      · rfl
      · rename_i hlt hv
        rw [get.eq_2]
        by_cases h1 : a < k
        · have : a ≠ c.1 := by omega
          have : a < c.1 := by omega
          simp [get, *]
        · simp [ha, h1]
    · split
      · split
        · rename_i _ hka hv
          subst hka
          by_cases h1 : a < c.1
          · rw [get_below h.2 (by omega)]; simp [get, ha, h1]
          · simp [get, ha, h1]
        · rename_i _ hka hv
          subst hka
          simp only [get, if_neg ha]
      · simp only [get]
        split
        · rfl
        · split
          · rfl
          · exact ih h.2

theorem get_setBytes_out {m : Memory} (h : m.wf = true) (a : Nat) (bs : List Byte) {b : Nat} (hb : b < a ∨ a + bs.length ≤ b) :
    get (setBytes m a bs) b = get m b := by
  induction bs generalizing m a with
  | nil => rfl
  | cons x bs ih =>
    simp only [List.length_cons] at hb
    rw [setBytes, ih (wf_set h a x) (a + 1) (by omega)]
    exact get_set_ne h x (by omega)

theorem get_setBytes_in {m : Memory} (h : m.wf = true) (a : Nat) (bs : List Byte) (i : Nat) (hi : i < bs.length) :
    get (setBytes m a bs) (a + i) = bs[i] := by
  induction bs generalizing m a i with
  | nil => simp at hi
  | cons x bs ih =>
    cases i with
    | zero =>
      rw [setBytes, get_setBytes_out (wf_set h a x) (a + 1) bs (by omega), Nat.add_zero]
      exact get_set_self h a x
    | succ i =>
      have := ih (wf_set h a x) (a + 1) i (by simpa using hi)
      rw [setBytes, show a + (i + 1) = a + 1 + i by omega, this]
      rfl

@[simp] theorem getBytes_length (m : Memory) (a n : Nat) : (getBytes m a n).length = n := by
  induction n generalizing a with
  | zero => rfl
  | succ n ih => simp [getBytes, ih]

theorem getBytes_get (m : Memory) (a n i : Nat) (h : i < n) : (getBytes m a n)[i]? = some (get m (a + i)) := by
  induction n generalizing a i with
  | zero => omega
  | succ n ih =>
    cases i with
    | zero => simp [getBytes]
    | succ i => simp only [getBytes, List.getElem?_cons_succ]; rw [ih (a + 1) i (by omega)]; congr 2; omega

/-- Two ranges of equal bytes read the same. -/
theorem getBytes_congr {m m1 : Memory} {a n : Nat} (h : ∀ b, a ≤ b → b < a + n → get m b = get m1 b) :
    getBytes m a n = getBytes m1 a n := by
  induction n generalizing a with
  | zero => rfl
  | succ n ih => simp only [getBytes]; rw [h a (by omega) (by omega), ih fun b h1 h2 => h b (by omega) (by omega)]

theorem getBytes_setBytes {m : Memory} (h : m.wf = true) (a : Nat) (bs : List Byte) :
    getBytes (setBytes m a bs) a bs.length = bs := by
  apply List.ext_getElem?
  intro i
  by_cases hi : i < bs.length
  · rw [getBytes_get _ _ _ _ hi, get_setBytes_in h a bs i hi]; simp [hi]
  · rw [List.getElem?_eq_none (by simpa using Nat.le_of_not_lt hi), List.getElem?_eq_none (Nat.le_of_not_lt hi)]

theorem getBytes_setBytes_out {m : Memory} (h : m.wf = true) (a : Nat) (bs : List Byte) {b n : Nat}
    (hb : b + n ≤ a ∨ a + bs.length ≤ b) : getBytes (setBytes m a bs) b n = getBytes m b n :=
  getBytes_congr fun x h1 h2 => get_setBytes_out h a bs (by omega)

end Memory

/-! ### Bytes and numbers -/

@[simp] theorem toLe_length (n v : Nat) : (toLe n v).length = n := by
  induction n generalizing v with
  | zero => rfl
  | succ n ih => simp [toLe, ih]

/-- The value of the bytes of a number. -/
theorem leNat_toLe (n v : Nat) : leNat (toLe n v) = v % 256 ^ n := by
  induction n generalizing v with
  | zero => simp [toLe, leNat, Nat.mod_one]
  | succ n ih =>
    rw [toLe, leNat, ih, BitVec.toNat_ofNat, show 256 ^ (n + 1) = 256 * 256 ^ n from Nat.pow_succ', Nat.mod_mul]

theorem leNat_lt (bs : List Byte) : leNat bs < 256 ^ bs.length := by
  induction bs with
  | nil => simp [leNat]
  | cons b bs ih =>
    simp only [leNat, List.length_cons, Nat.pow_succ]
    have := b.isLt
    omega

namespace State

/-- What a store writes reads back. -/
theorem bytes_store (s : State) (h : s.memOk) (a : Nat) (bs : List Byte) : (s.store a bs).bytes a bs.length = bs :=
  Memory.getBytes_setBytes h a bs

/-- A store leaves every other byte. -/
theorem byte_store_out (s : State) (h : s.memOk) (a : Nat) (bs : List Byte) {b : Nat} (hb : b < a ∨ a + bs.length ≤ b) :
    (s.store a bs).byte b = s.byte b := Memory.get_setBytes_out h a bs hb

theorem memOk_store (s : State) (h : s.memOk) (a : Nat) (bs : List Byte) : (s.store a bs).memOk := Memory.wf_setBytes h a bs

/-- The memory of the reset state is in canonical form. -/
theorem memOk_reset : reset.memOk := rfl

/-- A doubleword written reads back. -/
theorem read64_store64 (s : State) (h : s.memOk) (a : Nat) (v : W64) : (s.store64 a v).read64 a = v := by
  have h1 := bytes_store s h a (toLe 8 v.toNat)
  rw [toLe_length] at h1
  have h2 : (s.store64 a v).mem.getBytes a 8 = toLe 8 v.toNat := h1
  apply BitVec.eq_of_toNat_eq
  rw [read64, read, h2, leNat_toLe, BitVec.toNat_ofNat, show (256 : Nat) ^ 8 = 2 ^ 64 by norm_num]
  have := v.isLt
  omega

end State

end Sys2Proof.Machine
end

