-- ==== Sys2Proof/Laws/Codes.lean ====
section
/-! SUPPORT. The error-correcting codes: a codeword holds its data first, so the codewords of a line hold the line's bytes. -/

namespace Sys2Proof.Machine

namespace Rs

theorem take_codeword (c : Rs) {d : List Nat} (h : d.length = c.data) : (c.codeword d).take c.data = d := by
  rw [codeword, List.take_append_of_le_length (Nat.le_of_eq h.symm), ← h, List.take_length]

theorem drop_codeword (c : Rs) {d : List Nat} (h : d.length = c.data) : (c.codeword d).drop c.data = c.checks d := by
  rw [codeword, ← h, List.drop_left]

end Rs

namespace Ecc

/-- The two codewords of a line hold its 256 bytes (R269). -/
theorem dataOf_codewords {bs : List Nat} (h : bs.length = 256) : dataOf (codewords bs) = bs := by
  have h1 : (bs.take 128).length = Rs.line.data := by rw [List.length_take, h]; rfl
  have h2 : ((bs.drop 128).take 128).length = Rs.line.data := by rw [List.length_take, List.length_drop, h]; rfl
  have e1 := Rs.take_codeword Rs.line h1
  have e2 := Rs.take_codeword Rs.line h2
  simp only [show Rs.line.data = 128 from rfl] at e1 e2
  simp only [dataOf, codewords, List.flatMap_cons, List.flatMap_nil, List.append_nil, e1, e2]
  rw [List.take_of_length_le (l := bs.drop 128) (by rw [List.length_drop, h]), List.take_append_drop]

end Ecc

namespace State

/-- What a line's codewords hold is its 256 bytes in memory. -/
theorem stored_eq (s : State) (line : Nat) : s.stored line = s.bytes line 256 := by
  have h : ((s.bytes line 256).map BitVec.toNat).length = 256 := by simp [State.bytes, Memory.getBytes_length]
  simp [stored, Ecc.dataOf_codewords h, Function.comp_def]

end State

end Sys2Proof.Machine
end

