-- ==== Sys2Proof/Laws/State.lean ====
section
/-! SUPPORT. Each named update of the state changes its own fields and no other. -/

namespace Sys2Proof.Machine

namespace State

/-! ### `setQueue` -/

@[simp] theorem setQueue_mem (s : State) (q : CmdQueue) : (s.setQueue q).mem = s.mem := rfl
@[simp] theorem setQueue_pending (s : State) (q : CmdQueue) : (s.setQueue q).pending = s.pending := rfl
@[simp] theorem setQueue_free (s : State) (q : CmdQueue) : (s.setQueue q).free = s.free := rfl
@[simp] theorem setQueue_rings (s : State) (q : CmdQueue) : (s.setQueue q).rings = s.rings := rfl
@[simp] theorem setQueue_jobs (s : State) (q : CmdQueue) : (s.setQueue q).jobs = s.jobs := rfl
@[simp] theorem setQueue_unitMap (s : State) (q : CmdQueue) : (s.setQueue q).unitMap = s.unitMap := rfl
@[simp] theorem setQueue_unfit (s : State) (q : CmdQueue) : (s.setQueue q).unfit = s.unfit := rfl
@[simp] theorem setQueue_mapCopies (s : State) (q : CmdQueue) : (s.setQueue q).mapCopies = s.mapCopies := rfl
@[simp] theorem setQueue_retiredCores (s : State) (q : CmdQueue) : (s.setQueue q).retiredCores = s.retiredCores := rfl
@[simp] theorem setQueue_edern (s : State) (q : CmdQueue) : (s.setQueue q).edern = s.edern := rfl
@[simp] theorem setQueue_poisoned (s : State) (q : CmdQueue) : (s.setQueue q).poisoned = s.poisoned := rfl
@[simp] theorem setQueue_caches (s : State) (q : CmdQueue) : (s.setQueue q).caches = s.caches := rfl
@[simp] theorem setQueue_reservations (s : State) (q : CmdQueue) : (s.setQueue q).reservations = s.reservations := rfl
@[simp] theorem setQueue_shadows (s : State) (q : CmdQueue) : (s.setQueue q).shadows = s.shadows := rfl
@[simp] theorem setQueue_shadowRegions (s : State) (q : CmdQueue) : (s.setQueue q).shadowRegions = s.shadowRegions := rfl
@[simp] theorem setQueue_now (s : State) (q : CmdQueue) : (s.setQueue q).now = s.now := rfl
@[simp] theorem setQueue_serial (s : State) (q : CmdQueue) : (s.setQueue q).serial = s.serial := rfl
@[simp] theorem setQueue_dev (s : State) (q : CmdQueue) : (s.setQueue q).dev = s.dev := rfl
@[simp] theorem setQueue_events (s : State) (q : CmdQueue) : (s.setQueue q).events = s.events := rfl
@[simp] theorem setQueue_backlog (s : State) (q : CmdQueue) : (s.setQueue q).backlog = s.backlog := rfl
@[simp] theorem setQueue_backlogLost (s : State) (q : CmdQueue) : (s.setQueue q).backlogLost = s.backlogLost := rfl
@[simp] theorem setQueue_console (s : State) (q : CmdQueue) : (s.setQueue q).console = s.console := rfl
@[simp] theorem setQueue_faultLog (s : State) (q : CmdQueue) : (s.setQueue q).faultLog = s.faultLog := rfl
@[simp] theorem setQueue_faultsEver (s : State) (q : CmdQueue) : (s.setQueue q).faultsEver = s.faultsEver := rfl
@[simp] theorem setQueue_faultCnt (s : State) (q : CmdQueue) : (s.setQueue q).faultCnt = s.faultCnt := rfl
@[simp] theorem setQueue_restarts (s : State) (q : CmdQueue) : (s.setQueue q).restarts = s.restarts := rfl
@[simp] theorem setQueue_jobsHeld (s : State) (q : CmdQueue) : (s.setQueue q).jobsHeld = s.jobsHeld := rfl
@[simp] theorem setQueue_out (s : State) (q : CmdQueue) : (s.setQueue q).out = s.out := rfl
@[simp] theorem setQueue_reply (s : State) (q : CmdQueue) : (s.setQueue q).reply = s.reply := rfl
@[simp] theorem setQueue_replyStatus (s : State) (q : CmdQueue) : (s.setQueue q).replyStatus = s.replyStatus := rfl
@[simp] theorem setQueue_groups (s : State) (q : CmdQueue) : (s.setQueue q).groups = s.groups := rfl
@[simp] theorem setQueue_chains (s : State) (q : CmdQueue) : (s.setQueue q).chains = s.chains := rfl
@[simp] theorem setQueue_chainIds (s : State) (q : CmdQueue) : (s.setQueue q).chainIds = s.chainIds := rfl
@[simp] theorem setQueue_chainEnds (s : State) (q : CmdQueue) : (s.setQueue q).chainEnds = s.chainEnds := rfl
@[simp] theorem setQueue_early (s : State) (q : CmdQueue) : (s.setQueue q).early = s.early := rfl
@[simp] theorem setQueue_judges (s : State) (q : CmdQueue) : (s.setQueue q).judges = s.judges := rfl
@[simp] theorem setQueue_ports (s : State) (q : CmdQueue) : (s.setQueue q).ports = s.ports := rfl
@[simp] theorem setQueue_topo (s : State) (q : CmdQueue) : (s.setQueue q).topo = s.topo := rfl
@[simp] theorem setQueue_pair (s : State) (q : CmdQueue) : (s.setQueue q).pair = s.pair := rfl
@[simp] theorem setQueue_transfers (s : State) (q : CmdQueue) : (s.setQueue q).transfers = s.transfers := rfl
@[simp] theorem setQueue_spareRecords (s : State) (q : CmdQueue) : (s.setQueue q).spareRecords = s.spareRecords := rfl
@[simp] theorem setQueue_notices (s : State) (q : CmdQueue) : (s.setQueue q).notices = s.notices := rfl
@[simp] theorem setQueue_cores (s : State) (q : CmdQueue) : (s.setQueue q).cores = s.cores := rfl
@[simp] theorem setQueue_mailboxes (s : State) (q : CmdQueue) : (s.setQueue q).mailboxes = s.mailboxes := rfl
@[simp] theorem setQueue_starter (s : State) (q : CmdQueue) : (s.setQueue q).starter = s.starter := rfl
@[simp] theorem setQueue_eth (s : State) (q : CmdQueue) : (s.setQueue q).eth = s.eth := rfl
@[simp] theorem setQueue_sessions (s : State) (q : CmdQueue) : (s.setQueue q).sessions = s.sessions := rfl
@[simp] theorem setQueue_qps (s : State) (q : CmdQueue) : (s.setQueue q).qps = s.qps := rfl
@[simp] theorem setQueue_pacer (s : State) (q : CmdQueue) : (s.setQueue q).pacer = s.pacer := rfl
@[simp] theorem setQueue_pace (s : State) (q : CmdQueue) : (s.setQueue q).pace = s.pace := rfl
@[simp] theorem setQueue_temps (s : State) (q : CmdQueue) : (s.setQueue q).temps = s.temps := rfl
@[simp] theorem setQueue_power (s : State) (q : CmdQueue) : (s.setQueue q).power = s.power := rfl
@[simp] theorem setQueue_inputs (s : State) (q : CmdQueue) : (s.setQueue q).inputs = s.inputs := rfl
@[simp] theorem setQueue_telem (s : State) (q : CmdQueue) : (s.setQueue q).telem = s.telem := rfl
@[simp] theorem setQueue_tracks (s : State) (q : CmdQueue) : (s.setQueue q).tracks = s.tracks := rfl
@[simp] theorem setQueue_heats (s : State) (q : CmdQueue) : (s.setQueue q).heats = s.heats := rfl
@[simp] theorem setQueue_worked (s : State) (q : CmdQueue) : (s.setQueue q).worked = s.worked := rfl

/-! ### `modJob` -/

@[simp] theorem modJob_mem (s : State) (id : Nat) (f : Job → Job) : (s.modJob id f).mem = s.mem := rfl
@[simp] theorem modJob_pending (s : State) (id : Nat) (f : Job → Job) : (s.modJob id f).pending = s.pending := rfl
@[simp] theorem modJob_free (s : State) (id : Nat) (f : Job → Job) : (s.modJob id f).free = s.free := rfl
@[simp] theorem modJob_queues (s : State) (id : Nat) (f : Job → Job) : (s.modJob id f).queues = s.queues := rfl
@[simp] theorem modJob_rings (s : State) (id : Nat) (f : Job → Job) : (s.modJob id f).rings = s.rings := rfl
@[simp] theorem modJob_unitMap (s : State) (id : Nat) (f : Job → Job) : (s.modJob id f).unitMap = s.unitMap := rfl
@[simp] theorem modJob_unfit (s : State) (id : Nat) (f : Job → Job) : (s.modJob id f).unfit = s.unfit := rfl
@[simp] theorem modJob_mapCopies (s : State) (id : Nat) (f : Job → Job) : (s.modJob id f).mapCopies = s.mapCopies := rfl
@[simp] theorem modJob_retiredCores (s : State) (id : Nat) (f : Job → Job) : (s.modJob id f).retiredCores = s.retiredCores := rfl
@[simp] theorem modJob_edern (s : State) (id : Nat) (f : Job → Job) : (s.modJob id f).edern = s.edern := rfl
@[simp] theorem modJob_poisoned (s : State) (id : Nat) (f : Job → Job) : (s.modJob id f).poisoned = s.poisoned := rfl
@[simp] theorem modJob_caches (s : State) (id : Nat) (f : Job → Job) : (s.modJob id f).caches = s.caches := rfl
@[simp] theorem modJob_reservations (s : State) (id : Nat) (f : Job → Job) : (s.modJob id f).reservations = s.reservations := rfl
@[simp] theorem modJob_shadows (s : State) (id : Nat) (f : Job → Job) : (s.modJob id f).shadows = s.shadows := rfl
@[simp] theorem modJob_shadowRegions (s : State) (id : Nat) (f : Job → Job) : (s.modJob id f).shadowRegions = s.shadowRegions := rfl
@[simp] theorem modJob_now (s : State) (id : Nat) (f : Job → Job) : (s.modJob id f).now = s.now := rfl
@[simp] theorem modJob_serial (s : State) (id : Nat) (f : Job → Job) : (s.modJob id f).serial = s.serial := rfl
@[simp] theorem modJob_dev (s : State) (id : Nat) (f : Job → Job) : (s.modJob id f).dev = s.dev := rfl
@[simp] theorem modJob_events (s : State) (id : Nat) (f : Job → Job) : (s.modJob id f).events = s.events := rfl
@[simp] theorem modJob_backlog (s : State) (id : Nat) (f : Job → Job) : (s.modJob id f).backlog = s.backlog := rfl
@[simp] theorem modJob_backlogLost (s : State) (id : Nat) (f : Job → Job) : (s.modJob id f).backlogLost = s.backlogLost := rfl
@[simp] theorem modJob_console (s : State) (id : Nat) (f : Job → Job) : (s.modJob id f).console = s.console := rfl
@[simp] theorem modJob_faultLog (s : State) (id : Nat) (f : Job → Job) : (s.modJob id f).faultLog = s.faultLog := rfl
@[simp] theorem modJob_faultsEver (s : State) (id : Nat) (f : Job → Job) : (s.modJob id f).faultsEver = s.faultsEver := rfl
@[simp] theorem modJob_faultCnt (s : State) (id : Nat) (f : Job → Job) : (s.modJob id f).faultCnt = s.faultCnt := rfl
@[simp] theorem modJob_restarts (s : State) (id : Nat) (f : Job → Job) : (s.modJob id f).restarts = s.restarts := rfl
@[simp] theorem modJob_jobsHeld (s : State) (id : Nat) (f : Job → Job) : (s.modJob id f).jobsHeld = s.jobsHeld := rfl
@[simp] theorem modJob_out (s : State) (id : Nat) (f : Job → Job) : (s.modJob id f).out = s.out := rfl
@[simp] theorem modJob_reply (s : State) (id : Nat) (f : Job → Job) : (s.modJob id f).reply = s.reply := rfl
@[simp] theorem modJob_replyStatus (s : State) (id : Nat) (f : Job → Job) : (s.modJob id f).replyStatus = s.replyStatus := rfl
@[simp] theorem modJob_groups (s : State) (id : Nat) (f : Job → Job) : (s.modJob id f).groups = s.groups := rfl
@[simp] theorem modJob_chains (s : State) (id : Nat) (f : Job → Job) : (s.modJob id f).chains = s.chains := rfl
@[simp] theorem modJob_chainIds (s : State) (id : Nat) (f : Job → Job) : (s.modJob id f).chainIds = s.chainIds := rfl
@[simp] theorem modJob_chainEnds (s : State) (id : Nat) (f : Job → Job) : (s.modJob id f).chainEnds = s.chainEnds := rfl
@[simp] theorem modJob_early (s : State) (id : Nat) (f : Job → Job) : (s.modJob id f).early = s.early := rfl
@[simp] theorem modJob_judges (s : State) (id : Nat) (f : Job → Job) : (s.modJob id f).judges = s.judges := rfl
@[simp] theorem modJob_ports (s : State) (id : Nat) (f : Job → Job) : (s.modJob id f).ports = s.ports := rfl
@[simp] theorem modJob_topo (s : State) (id : Nat) (f : Job → Job) : (s.modJob id f).topo = s.topo := rfl
@[simp] theorem modJob_pair (s : State) (id : Nat) (f : Job → Job) : (s.modJob id f).pair = s.pair := rfl
@[simp] theorem modJob_transfers (s : State) (id : Nat) (f : Job → Job) : (s.modJob id f).transfers = s.transfers := rfl
@[simp] theorem modJob_spareRecords (s : State) (id : Nat) (f : Job → Job) : (s.modJob id f).spareRecords = s.spareRecords := rfl
@[simp] theorem modJob_notices (s : State) (id : Nat) (f : Job → Job) : (s.modJob id f).notices = s.notices := rfl
@[simp] theorem modJob_cores (s : State) (id : Nat) (f : Job → Job) : (s.modJob id f).cores = s.cores := rfl
@[simp] theorem modJob_mailboxes (s : State) (id : Nat) (f : Job → Job) : (s.modJob id f).mailboxes = s.mailboxes := rfl
@[simp] theorem modJob_starter (s : State) (id : Nat) (f : Job → Job) : (s.modJob id f).starter = s.starter := rfl
@[simp] theorem modJob_eth (s : State) (id : Nat) (f : Job → Job) : (s.modJob id f).eth = s.eth := rfl
@[simp] theorem modJob_sessions (s : State) (id : Nat) (f : Job → Job) : (s.modJob id f).sessions = s.sessions := rfl
@[simp] theorem modJob_qps (s : State) (id : Nat) (f : Job → Job) : (s.modJob id f).qps = s.qps := rfl
@[simp] theorem modJob_pacer (s : State) (id : Nat) (f : Job → Job) : (s.modJob id f).pacer = s.pacer := rfl
@[simp] theorem modJob_pace (s : State) (id : Nat) (f : Job → Job) : (s.modJob id f).pace = s.pace := rfl
@[simp] theorem modJob_temps (s : State) (id : Nat) (f : Job → Job) : (s.modJob id f).temps = s.temps := rfl
@[simp] theorem modJob_power (s : State) (id : Nat) (f : Job → Job) : (s.modJob id f).power = s.power := rfl
@[simp] theorem modJob_inputs (s : State) (id : Nat) (f : Job → Job) : (s.modJob id f).inputs = s.inputs := rfl
@[simp] theorem modJob_telem (s : State) (id : Nat) (f : Job → Job) : (s.modJob id f).telem = s.telem := rfl
@[simp] theorem modJob_tracks (s : State) (id : Nat) (f : Job → Job) : (s.modJob id f).tracks = s.tracks := rfl
@[simp] theorem modJob_heats (s : State) (id : Nat) (f : Job → Job) : (s.modJob id f).heats = s.heats := rfl
@[simp] theorem modJob_worked (s : State) (id : Nat) (f : Job → Job) : (s.modJob id f).worked = s.worked := rfl

/-! ### `setCore` -/

@[simp] theorem setCore_mem (s : State) (n : Nat) (c : HostCore) : (s.setCore n c).mem = s.mem := rfl
@[simp] theorem setCore_pending (s : State) (n : Nat) (c : HostCore) : (s.setCore n c).pending = s.pending := rfl
@[simp] theorem setCore_free (s : State) (n : Nat) (c : HostCore) : (s.setCore n c).free = s.free := rfl
@[simp] theorem setCore_queues (s : State) (n : Nat) (c : HostCore) : (s.setCore n c).queues = s.queues := rfl
@[simp] theorem setCore_rings (s : State) (n : Nat) (c : HostCore) : (s.setCore n c).rings = s.rings := rfl
@[simp] theorem setCore_jobs (s : State) (n : Nat) (c : HostCore) : (s.setCore n c).jobs = s.jobs := rfl
@[simp] theorem setCore_unitMap (s : State) (n : Nat) (c : HostCore) : (s.setCore n c).unitMap = s.unitMap := rfl
@[simp] theorem setCore_unfit (s : State) (n : Nat) (c : HostCore) : (s.setCore n c).unfit = s.unfit := rfl
@[simp] theorem setCore_mapCopies (s : State) (n : Nat) (c : HostCore) : (s.setCore n c).mapCopies = s.mapCopies := rfl
@[simp] theorem setCore_retiredCores (s : State) (n : Nat) (c : HostCore) : (s.setCore n c).retiredCores = s.retiredCores := rfl
@[simp] theorem setCore_edern (s : State) (n : Nat) (c : HostCore) : (s.setCore n c).edern = s.edern := rfl
@[simp] theorem setCore_poisoned (s : State) (n : Nat) (c : HostCore) : (s.setCore n c).poisoned = s.poisoned := rfl
@[simp] theorem setCore_caches (s : State) (n : Nat) (c : HostCore) : (s.setCore n c).caches = s.caches := rfl
@[simp] theorem setCore_reservations (s : State) (n : Nat) (c : HostCore) : (s.setCore n c).reservations = s.reservations := rfl
@[simp] theorem setCore_shadows (s : State) (n : Nat) (c : HostCore) : (s.setCore n c).shadows = s.shadows := rfl
@[simp] theorem setCore_shadowRegions (s : State) (n : Nat) (c : HostCore) : (s.setCore n c).shadowRegions = s.shadowRegions := rfl
@[simp] theorem setCore_now (s : State) (n : Nat) (c : HostCore) : (s.setCore n c).now = s.now := rfl
@[simp] theorem setCore_serial (s : State) (n : Nat) (c : HostCore) : (s.setCore n c).serial = s.serial := rfl
@[simp] theorem setCore_dev (s : State) (n : Nat) (c : HostCore) : (s.setCore n c).dev = s.dev := rfl
@[simp] theorem setCore_events (s : State) (n : Nat) (c : HostCore) : (s.setCore n c).events = s.events := rfl
@[simp] theorem setCore_backlog (s : State) (n : Nat) (c : HostCore) : (s.setCore n c).backlog = s.backlog := rfl
@[simp] theorem setCore_backlogLost (s : State) (n : Nat) (c : HostCore) : (s.setCore n c).backlogLost = s.backlogLost := rfl
@[simp] theorem setCore_console (s : State) (n : Nat) (c : HostCore) : (s.setCore n c).console = s.console := rfl
@[simp] theorem setCore_faultLog (s : State) (n : Nat) (c : HostCore) : (s.setCore n c).faultLog = s.faultLog := rfl
@[simp] theorem setCore_faultsEver (s : State) (n : Nat) (c : HostCore) : (s.setCore n c).faultsEver = s.faultsEver := rfl
@[simp] theorem setCore_faultCnt (s : State) (n : Nat) (c : HostCore) : (s.setCore n c).faultCnt = s.faultCnt := rfl
@[simp] theorem setCore_restarts (s : State) (n : Nat) (c : HostCore) : (s.setCore n c).restarts = s.restarts := rfl
@[simp] theorem setCore_jobsHeld (s : State) (n : Nat) (c : HostCore) : (s.setCore n c).jobsHeld = s.jobsHeld := rfl
@[simp] theorem setCore_out (s : State) (n : Nat) (c : HostCore) : (s.setCore n c).out = s.out := rfl
@[simp] theorem setCore_reply (s : State) (n : Nat) (c : HostCore) : (s.setCore n c).reply = s.reply := rfl
@[simp] theorem setCore_replyStatus (s : State) (n : Nat) (c : HostCore) : (s.setCore n c).replyStatus = s.replyStatus := rfl
@[simp] theorem setCore_groups (s : State) (n : Nat) (c : HostCore) : (s.setCore n c).groups = s.groups := rfl
@[simp] theorem setCore_chains (s : State) (n : Nat) (c : HostCore) : (s.setCore n c).chains = s.chains := rfl
@[simp] theorem setCore_chainIds (s : State) (n : Nat) (c : HostCore) : (s.setCore n c).chainIds = s.chainIds := rfl
@[simp] theorem setCore_chainEnds (s : State) (n : Nat) (c : HostCore) : (s.setCore n c).chainEnds = s.chainEnds := rfl
@[simp] theorem setCore_early (s : State) (n : Nat) (c : HostCore) : (s.setCore n c).early = s.early := rfl
@[simp] theorem setCore_judges (s : State) (n : Nat) (c : HostCore) : (s.setCore n c).judges = s.judges := rfl
@[simp] theorem setCore_ports (s : State) (n : Nat) (c : HostCore) : (s.setCore n c).ports = s.ports := rfl
@[simp] theorem setCore_topo (s : State) (n : Nat) (c : HostCore) : (s.setCore n c).topo = s.topo := rfl
@[simp] theorem setCore_pair (s : State) (n : Nat) (c : HostCore) : (s.setCore n c).pair = s.pair := rfl
@[simp] theorem setCore_transfers (s : State) (n : Nat) (c : HostCore) : (s.setCore n c).transfers = s.transfers := rfl
@[simp] theorem setCore_spareRecords (s : State) (n : Nat) (c : HostCore) : (s.setCore n c).spareRecords = s.spareRecords := rfl
@[simp] theorem setCore_notices (s : State) (n : Nat) (c : HostCore) : (s.setCore n c).notices = s.notices := rfl
@[simp] theorem setCore_mailboxes (s : State) (n : Nat) (c : HostCore) : (s.setCore n c).mailboxes = s.mailboxes := rfl
@[simp] theorem setCore_starter (s : State) (n : Nat) (c : HostCore) : (s.setCore n c).starter = s.starter := rfl
@[simp] theorem setCore_eth (s : State) (n : Nat) (c : HostCore) : (s.setCore n c).eth = s.eth := rfl
@[simp] theorem setCore_sessions (s : State) (n : Nat) (c : HostCore) : (s.setCore n c).sessions = s.sessions := rfl
@[simp] theorem setCore_qps (s : State) (n : Nat) (c : HostCore) : (s.setCore n c).qps = s.qps := rfl
@[simp] theorem setCore_pacer (s : State) (n : Nat) (c : HostCore) : (s.setCore n c).pacer = s.pacer := rfl
@[simp] theorem setCore_pace (s : State) (n : Nat) (c : HostCore) : (s.setCore n c).pace = s.pace := rfl
@[simp] theorem setCore_temps (s : State) (n : Nat) (c : HostCore) : (s.setCore n c).temps = s.temps := rfl
@[simp] theorem setCore_power (s : State) (n : Nat) (c : HostCore) : (s.setCore n c).power = s.power := rfl
@[simp] theorem setCore_inputs (s : State) (n : Nat) (c : HostCore) : (s.setCore n c).inputs = s.inputs := rfl
@[simp] theorem setCore_telem (s : State) (n : Nat) (c : HostCore) : (s.setCore n c).telem = s.telem := rfl
@[simp] theorem setCore_tracks (s : State) (n : Nat) (c : HostCore) : (s.setCore n c).tracks = s.tracks := rfl
@[simp] theorem setCore_heats (s : State) (n : Nat) (c : HostCore) : (s.setCore n c).heats = s.heats := rfl
@[simp] theorem setCore_worked (s : State) (n : Nat) (c : HostCore) : (s.setCore n c).worked = s.worked := rfl

/-! ### `setPort` -/

@[simp] theorem setPort_mem (s : State) (p : Nat) (x : Port) : (s.setPort p x).mem = s.mem := rfl
@[simp] theorem setPort_pending (s : State) (p : Nat) (x : Port) : (s.setPort p x).pending = s.pending := rfl
@[simp] theorem setPort_free (s : State) (p : Nat) (x : Port) : (s.setPort p x).free = s.free := rfl
@[simp] theorem setPort_queues (s : State) (p : Nat) (x : Port) : (s.setPort p x).queues = s.queues := rfl
@[simp] theorem setPort_rings (s : State) (p : Nat) (x : Port) : (s.setPort p x).rings = s.rings := rfl
@[simp] theorem setPort_jobs (s : State) (p : Nat) (x : Port) : (s.setPort p x).jobs = s.jobs := rfl
@[simp] theorem setPort_unitMap (s : State) (p : Nat) (x : Port) : (s.setPort p x).unitMap = s.unitMap := rfl
@[simp] theorem setPort_unfit (s : State) (p : Nat) (x : Port) : (s.setPort p x).unfit = s.unfit := rfl
@[simp] theorem setPort_mapCopies (s : State) (p : Nat) (x : Port) : (s.setPort p x).mapCopies = s.mapCopies := rfl
@[simp] theorem setPort_retiredCores (s : State) (p : Nat) (x : Port) : (s.setPort p x).retiredCores = s.retiredCores := rfl
@[simp] theorem setPort_edern (s : State) (p : Nat) (x : Port) : (s.setPort p x).edern = s.edern := rfl
@[simp] theorem setPort_poisoned (s : State) (p : Nat) (x : Port) : (s.setPort p x).poisoned = s.poisoned := rfl
@[simp] theorem setPort_caches (s : State) (p : Nat) (x : Port) : (s.setPort p x).caches = s.caches := rfl
@[simp] theorem setPort_reservations (s : State) (p : Nat) (x : Port) : (s.setPort p x).reservations = s.reservations := rfl
@[simp] theorem setPort_shadows (s : State) (p : Nat) (x : Port) : (s.setPort p x).shadows = s.shadows := rfl
@[simp] theorem setPort_shadowRegions (s : State) (p : Nat) (x : Port) : (s.setPort p x).shadowRegions = s.shadowRegions := rfl
@[simp] theorem setPort_now (s : State) (p : Nat) (x : Port) : (s.setPort p x).now = s.now := rfl
@[simp] theorem setPort_serial (s : State) (p : Nat) (x : Port) : (s.setPort p x).serial = s.serial := rfl
@[simp] theorem setPort_dev (s : State) (p : Nat) (x : Port) : (s.setPort p x).dev = s.dev := rfl
@[simp] theorem setPort_events (s : State) (p : Nat) (x : Port) : (s.setPort p x).events = s.events := rfl
@[simp] theorem setPort_backlog (s : State) (p : Nat) (x : Port) : (s.setPort p x).backlog = s.backlog := rfl
@[simp] theorem setPort_backlogLost (s : State) (p : Nat) (x : Port) : (s.setPort p x).backlogLost = s.backlogLost := rfl
@[simp] theorem setPort_console (s : State) (p : Nat) (x : Port) : (s.setPort p x).console = s.console := rfl
@[simp] theorem setPort_faultLog (s : State) (p : Nat) (x : Port) : (s.setPort p x).faultLog = s.faultLog := rfl
@[simp] theorem setPort_faultsEver (s : State) (p : Nat) (x : Port) : (s.setPort p x).faultsEver = s.faultsEver := rfl
@[simp] theorem setPort_faultCnt (s : State) (p : Nat) (x : Port) : (s.setPort p x).faultCnt = s.faultCnt := rfl
@[simp] theorem setPort_restarts (s : State) (p : Nat) (x : Port) : (s.setPort p x).restarts = s.restarts := rfl
@[simp] theorem setPort_jobsHeld (s : State) (p : Nat) (x : Port) : (s.setPort p x).jobsHeld = s.jobsHeld := rfl
@[simp] theorem setPort_out (s : State) (p : Nat) (x : Port) : (s.setPort p x).out = s.out := rfl
@[simp] theorem setPort_reply (s : State) (p : Nat) (x : Port) : (s.setPort p x).reply = s.reply := rfl
@[simp] theorem setPort_replyStatus (s : State) (p : Nat) (x : Port) : (s.setPort p x).replyStatus = s.replyStatus := rfl
@[simp] theorem setPort_groups (s : State) (p : Nat) (x : Port) : (s.setPort p x).groups = s.groups := rfl
@[simp] theorem setPort_chains (s : State) (p : Nat) (x : Port) : (s.setPort p x).chains = s.chains := rfl
@[simp] theorem setPort_chainIds (s : State) (p : Nat) (x : Port) : (s.setPort p x).chainIds = s.chainIds := rfl
@[simp] theorem setPort_chainEnds (s : State) (p : Nat) (x : Port) : (s.setPort p x).chainEnds = s.chainEnds := rfl
@[simp] theorem setPort_early (s : State) (p : Nat) (x : Port) : (s.setPort p x).early = s.early := rfl
@[simp] theorem setPort_judges (s : State) (p : Nat) (x : Port) : (s.setPort p x).judges = s.judges := rfl
@[simp] theorem setPort_topo (s : State) (p : Nat) (x : Port) : (s.setPort p x).topo = s.topo := rfl
@[simp] theorem setPort_pair (s : State) (p : Nat) (x : Port) : (s.setPort p x).pair = s.pair := rfl
@[simp] theorem setPort_transfers (s : State) (p : Nat) (x : Port) : (s.setPort p x).transfers = s.transfers := rfl
@[simp] theorem setPort_spareRecords (s : State) (p : Nat) (x : Port) : (s.setPort p x).spareRecords = s.spareRecords := rfl
@[simp] theorem setPort_notices (s : State) (p : Nat) (x : Port) : (s.setPort p x).notices = s.notices := rfl
@[simp] theorem setPort_cores (s : State) (p : Nat) (x : Port) : (s.setPort p x).cores = s.cores := rfl
@[simp] theorem setPort_mailboxes (s : State) (p : Nat) (x : Port) : (s.setPort p x).mailboxes = s.mailboxes := rfl
@[simp] theorem setPort_starter (s : State) (p : Nat) (x : Port) : (s.setPort p x).starter = s.starter := rfl
@[simp] theorem setPort_eth (s : State) (p : Nat) (x : Port) : (s.setPort p x).eth = s.eth := rfl
@[simp] theorem setPort_sessions (s : State) (p : Nat) (x : Port) : (s.setPort p x).sessions = s.sessions := rfl
@[simp] theorem setPort_qps (s : State) (p : Nat) (x : Port) : (s.setPort p x).qps = s.qps := rfl
@[simp] theorem setPort_pacer (s : State) (p : Nat) (x : Port) : (s.setPort p x).pacer = s.pacer := rfl
@[simp] theorem setPort_pace (s : State) (p : Nat) (x : Port) : (s.setPort p x).pace = s.pace := rfl
@[simp] theorem setPort_temps (s : State) (p : Nat) (x : Port) : (s.setPort p x).temps = s.temps := rfl
@[simp] theorem setPort_power (s : State) (p : Nat) (x : Port) : (s.setPort p x).power = s.power := rfl
@[simp] theorem setPort_inputs (s : State) (p : Nat) (x : Port) : (s.setPort p x).inputs = s.inputs := rfl
@[simp] theorem setPort_telem (s : State) (p : Nat) (x : Port) : (s.setPort p x).telem = s.telem := rfl
@[simp] theorem setPort_tracks (s : State) (p : Nat) (x : Port) : (s.setPort p x).tracks = s.tracks := rfl
@[simp] theorem setPort_heats (s : State) (p : Nat) (x : Port) : (s.setPort p x).heats = s.heats := rfl
@[simp] theorem setPort_worked (s : State) (p : Nat) (x : Port) : (s.setPort p x).worked = s.worked := rfl

/-! ### `modMbox` -/

@[simp] theorem modMbox_mem (s : State) (m : Nat) (f : Mailbox → Mailbox) : (s.modMbox m f).mem = s.mem := rfl
@[simp] theorem modMbox_pending (s : State) (m : Nat) (f : Mailbox → Mailbox) : (s.modMbox m f).pending = s.pending := rfl
@[simp] theorem modMbox_free (s : State) (m : Nat) (f : Mailbox → Mailbox) : (s.modMbox m f).free = s.free := rfl
@[simp] theorem modMbox_queues (s : State) (m : Nat) (f : Mailbox → Mailbox) : (s.modMbox m f).queues = s.queues := rfl
@[simp] theorem modMbox_rings (s : State) (m : Nat) (f : Mailbox → Mailbox) : (s.modMbox m f).rings = s.rings := rfl
@[simp] theorem modMbox_jobs (s : State) (m : Nat) (f : Mailbox → Mailbox) : (s.modMbox m f).jobs = s.jobs := rfl
@[simp] theorem modMbox_unitMap (s : State) (m : Nat) (f : Mailbox → Mailbox) : (s.modMbox m f).unitMap = s.unitMap := rfl
@[simp] theorem modMbox_unfit (s : State) (m : Nat) (f : Mailbox → Mailbox) : (s.modMbox m f).unfit = s.unfit := rfl
@[simp] theorem modMbox_mapCopies (s : State) (m : Nat) (f : Mailbox → Mailbox) : (s.modMbox m f).mapCopies = s.mapCopies := rfl
@[simp] theorem modMbox_retiredCores (s : State) (m : Nat) (f : Mailbox → Mailbox) : (s.modMbox m f).retiredCores = s.retiredCores := rfl
@[simp] theorem modMbox_edern (s : State) (m : Nat) (f : Mailbox → Mailbox) : (s.modMbox m f).edern = s.edern := rfl
@[simp] theorem modMbox_poisoned (s : State) (m : Nat) (f : Mailbox → Mailbox) : (s.modMbox m f).poisoned = s.poisoned := rfl
@[simp] theorem modMbox_caches (s : State) (m : Nat) (f : Mailbox → Mailbox) : (s.modMbox m f).caches = s.caches := rfl
@[simp] theorem modMbox_reservations (s : State) (m : Nat) (f : Mailbox → Mailbox) : (s.modMbox m f).reservations = s.reservations := rfl
@[simp] theorem modMbox_shadows (s : State) (m : Nat) (f : Mailbox → Mailbox) : (s.modMbox m f).shadows = s.shadows := rfl
@[simp] theorem modMbox_shadowRegions (s : State) (m : Nat) (f : Mailbox → Mailbox) : (s.modMbox m f).shadowRegions = s.shadowRegions := rfl
@[simp] theorem modMbox_now (s : State) (m : Nat) (f : Mailbox → Mailbox) : (s.modMbox m f).now = s.now := rfl
@[simp] theorem modMbox_serial (s : State) (m : Nat) (f : Mailbox → Mailbox) : (s.modMbox m f).serial = s.serial := rfl
@[simp] theorem modMbox_dev (s : State) (m : Nat) (f : Mailbox → Mailbox) : (s.modMbox m f).dev = s.dev := rfl
@[simp] theorem modMbox_events (s : State) (m : Nat) (f : Mailbox → Mailbox) : (s.modMbox m f).events = s.events := rfl
@[simp] theorem modMbox_backlog (s : State) (m : Nat) (f : Mailbox → Mailbox) : (s.modMbox m f).backlog = s.backlog := rfl
@[simp] theorem modMbox_backlogLost (s : State) (m : Nat) (f : Mailbox → Mailbox) : (s.modMbox m f).backlogLost = s.backlogLost := rfl
@[simp] theorem modMbox_console (s : State) (m : Nat) (f : Mailbox → Mailbox) : (s.modMbox m f).console = s.console := rfl
@[simp] theorem modMbox_faultLog (s : State) (m : Nat) (f : Mailbox → Mailbox) : (s.modMbox m f).faultLog = s.faultLog := rfl
@[simp] theorem modMbox_faultsEver (s : State) (m : Nat) (f : Mailbox → Mailbox) : (s.modMbox m f).faultsEver = s.faultsEver := rfl
@[simp] theorem modMbox_faultCnt (s : State) (m : Nat) (f : Mailbox → Mailbox) : (s.modMbox m f).faultCnt = s.faultCnt := rfl
@[simp] theorem modMbox_restarts (s : State) (m : Nat) (f : Mailbox → Mailbox) : (s.modMbox m f).restarts = s.restarts := rfl
@[simp] theorem modMbox_jobsHeld (s : State) (m : Nat) (f : Mailbox → Mailbox) : (s.modMbox m f).jobsHeld = s.jobsHeld := rfl
@[simp] theorem modMbox_out (s : State) (m : Nat) (f : Mailbox → Mailbox) : (s.modMbox m f).out = s.out := rfl
@[simp] theorem modMbox_reply (s : State) (m : Nat) (f : Mailbox → Mailbox) : (s.modMbox m f).reply = s.reply := rfl
@[simp] theorem modMbox_replyStatus (s : State) (m : Nat) (f : Mailbox → Mailbox) : (s.modMbox m f).replyStatus = s.replyStatus := rfl
@[simp] theorem modMbox_groups (s : State) (m : Nat) (f : Mailbox → Mailbox) : (s.modMbox m f).groups = s.groups := rfl
@[simp] theorem modMbox_chains (s : State) (m : Nat) (f : Mailbox → Mailbox) : (s.modMbox m f).chains = s.chains := rfl
@[simp] theorem modMbox_chainIds (s : State) (m : Nat) (f : Mailbox → Mailbox) : (s.modMbox m f).chainIds = s.chainIds := rfl
@[simp] theorem modMbox_chainEnds (s : State) (m : Nat) (f : Mailbox → Mailbox) : (s.modMbox m f).chainEnds = s.chainEnds := rfl
@[simp] theorem modMbox_early (s : State) (m : Nat) (f : Mailbox → Mailbox) : (s.modMbox m f).early = s.early := rfl
@[simp] theorem modMbox_judges (s : State) (m : Nat) (f : Mailbox → Mailbox) : (s.modMbox m f).judges = s.judges := rfl
@[simp] theorem modMbox_ports (s : State) (m : Nat) (f : Mailbox → Mailbox) : (s.modMbox m f).ports = s.ports := rfl
@[simp] theorem modMbox_topo (s : State) (m : Nat) (f : Mailbox → Mailbox) : (s.modMbox m f).topo = s.topo := rfl
@[simp] theorem modMbox_pair (s : State) (m : Nat) (f : Mailbox → Mailbox) : (s.modMbox m f).pair = s.pair := rfl
@[simp] theorem modMbox_transfers (s : State) (m : Nat) (f : Mailbox → Mailbox) : (s.modMbox m f).transfers = s.transfers := rfl
@[simp] theorem modMbox_spareRecords (s : State) (m : Nat) (f : Mailbox → Mailbox) : (s.modMbox m f).spareRecords = s.spareRecords := rfl
@[simp] theorem modMbox_notices (s : State) (m : Nat) (f : Mailbox → Mailbox) : (s.modMbox m f).notices = s.notices := rfl
@[simp] theorem modMbox_cores (s : State) (m : Nat) (f : Mailbox → Mailbox) : (s.modMbox m f).cores = s.cores := rfl
@[simp] theorem modMbox_starter (s : State) (m : Nat) (f : Mailbox → Mailbox) : (s.modMbox m f).starter = s.starter := rfl
@[simp] theorem modMbox_eth (s : State) (m : Nat) (f : Mailbox → Mailbox) : (s.modMbox m f).eth = s.eth := rfl
@[simp] theorem modMbox_sessions (s : State) (m : Nat) (f : Mailbox → Mailbox) : (s.modMbox m f).sessions = s.sessions := rfl
@[simp] theorem modMbox_qps (s : State) (m : Nat) (f : Mailbox → Mailbox) : (s.modMbox m f).qps = s.qps := rfl
@[simp] theorem modMbox_pacer (s : State) (m : Nat) (f : Mailbox → Mailbox) : (s.modMbox m f).pacer = s.pacer := rfl
@[simp] theorem modMbox_pace (s : State) (m : Nat) (f : Mailbox → Mailbox) : (s.modMbox m f).pace = s.pace := rfl
@[simp] theorem modMbox_temps (s : State) (m : Nat) (f : Mailbox → Mailbox) : (s.modMbox m f).temps = s.temps := rfl
@[simp] theorem modMbox_power (s : State) (m : Nat) (f : Mailbox → Mailbox) : (s.modMbox m f).power = s.power := rfl
@[simp] theorem modMbox_inputs (s : State) (m : Nat) (f : Mailbox → Mailbox) : (s.modMbox m f).inputs = s.inputs := rfl
@[simp] theorem modMbox_telem (s : State) (m : Nat) (f : Mailbox → Mailbox) : (s.modMbox m f).telem = s.telem := rfl
@[simp] theorem modMbox_tracks (s : State) (m : Nat) (f : Mailbox → Mailbox) : (s.modMbox m f).tracks = s.tracks := rfl
@[simp] theorem modMbox_heats (s : State) (m : Nat) (f : Mailbox → Mailbox) : (s.modMbox m f).heats = s.heats := rfl
@[simp] theorem modMbox_worked (s : State) (m : Nat) (f : Mailbox → Mailbox) : (s.modMbox m f).worked = s.worked := rfl

/-! ### `setGroup` -/

@[simp] theorem setGroup_mem (s : State) (g : Group) : (s.setGroup g).mem = s.mem := rfl
@[simp] theorem setGroup_pending (s : State) (g : Group) : (s.setGroup g).pending = s.pending := rfl
@[simp] theorem setGroup_free (s : State) (g : Group) : (s.setGroup g).free = s.free := rfl
@[simp] theorem setGroup_queues (s : State) (g : Group) : (s.setGroup g).queues = s.queues := rfl
@[simp] theorem setGroup_rings (s : State) (g : Group) : (s.setGroup g).rings = s.rings := rfl
@[simp] theorem setGroup_jobs (s : State) (g : Group) : (s.setGroup g).jobs = s.jobs := rfl
@[simp] theorem setGroup_unitMap (s : State) (g : Group) : (s.setGroup g).unitMap = s.unitMap := rfl
@[simp] theorem setGroup_unfit (s : State) (g : Group) : (s.setGroup g).unfit = s.unfit := rfl
@[simp] theorem setGroup_mapCopies (s : State) (g : Group) : (s.setGroup g).mapCopies = s.mapCopies := rfl
@[simp] theorem setGroup_retiredCores (s : State) (g : Group) : (s.setGroup g).retiredCores = s.retiredCores := rfl
@[simp] theorem setGroup_edern (s : State) (g : Group) : (s.setGroup g).edern = s.edern := rfl
@[simp] theorem setGroup_poisoned (s : State) (g : Group) : (s.setGroup g).poisoned = s.poisoned := rfl
@[simp] theorem setGroup_caches (s : State) (g : Group) : (s.setGroup g).caches = s.caches := rfl
@[simp] theorem setGroup_reservations (s : State) (g : Group) : (s.setGroup g).reservations = s.reservations := rfl
@[simp] theorem setGroup_shadows (s : State) (g : Group) : (s.setGroup g).shadows = s.shadows := rfl
@[simp] theorem setGroup_shadowRegions (s : State) (g : Group) : (s.setGroup g).shadowRegions = s.shadowRegions := rfl
@[simp] theorem setGroup_now (s : State) (g : Group) : (s.setGroup g).now = s.now := rfl
@[simp] theorem setGroup_serial (s : State) (g : Group) : (s.setGroup g).serial = s.serial := rfl
@[simp] theorem setGroup_dev (s : State) (g : Group) : (s.setGroup g).dev = s.dev := rfl
@[simp] theorem setGroup_events (s : State) (g : Group) : (s.setGroup g).events = s.events := rfl
@[simp] theorem setGroup_backlog (s : State) (g : Group) : (s.setGroup g).backlog = s.backlog := rfl
@[simp] theorem setGroup_backlogLost (s : State) (g : Group) : (s.setGroup g).backlogLost = s.backlogLost := rfl
@[simp] theorem setGroup_console (s : State) (g : Group) : (s.setGroup g).console = s.console := rfl
@[simp] theorem setGroup_faultLog (s : State) (g : Group) : (s.setGroup g).faultLog = s.faultLog := rfl
@[simp] theorem setGroup_faultsEver (s : State) (g : Group) : (s.setGroup g).faultsEver = s.faultsEver := rfl
@[simp] theorem setGroup_faultCnt (s : State) (g : Group) : (s.setGroup g).faultCnt = s.faultCnt := rfl
@[simp] theorem setGroup_restarts (s : State) (g : Group) : (s.setGroup g).restarts = s.restarts := rfl
@[simp] theorem setGroup_jobsHeld (s : State) (g : Group) : (s.setGroup g).jobsHeld = s.jobsHeld := rfl
@[simp] theorem setGroup_out (s : State) (g : Group) : (s.setGroup g).out = s.out := rfl
@[simp] theorem setGroup_reply (s : State) (g : Group) : (s.setGroup g).reply = s.reply := rfl
@[simp] theorem setGroup_replyStatus (s : State) (g : Group) : (s.setGroup g).replyStatus = s.replyStatus := rfl
@[simp] theorem setGroup_chains (s : State) (g : Group) : (s.setGroup g).chains = s.chains := rfl
@[simp] theorem setGroup_chainIds (s : State) (g : Group) : (s.setGroup g).chainIds = s.chainIds := rfl
@[simp] theorem setGroup_chainEnds (s : State) (g : Group) : (s.setGroup g).chainEnds = s.chainEnds := rfl
@[simp] theorem setGroup_early (s : State) (g : Group) : (s.setGroup g).early = s.early := rfl
@[simp] theorem setGroup_judges (s : State) (g : Group) : (s.setGroup g).judges = s.judges := rfl
@[simp] theorem setGroup_ports (s : State) (g : Group) : (s.setGroup g).ports = s.ports := rfl
@[simp] theorem setGroup_topo (s : State) (g : Group) : (s.setGroup g).topo = s.topo := rfl
@[simp] theorem setGroup_pair (s : State) (g : Group) : (s.setGroup g).pair = s.pair := rfl
@[simp] theorem setGroup_transfers (s : State) (g : Group) : (s.setGroup g).transfers = s.transfers := rfl
@[simp] theorem setGroup_spareRecords (s : State) (g : Group) : (s.setGroup g).spareRecords = s.spareRecords := rfl
@[simp] theorem setGroup_notices (s : State) (g : Group) : (s.setGroup g).notices = s.notices := rfl
@[simp] theorem setGroup_cores (s : State) (g : Group) : (s.setGroup g).cores = s.cores := rfl
@[simp] theorem setGroup_mailboxes (s : State) (g : Group) : (s.setGroup g).mailboxes = s.mailboxes := rfl
@[simp] theorem setGroup_starter (s : State) (g : Group) : (s.setGroup g).starter = s.starter := rfl
@[simp] theorem setGroup_eth (s : State) (g : Group) : (s.setGroup g).eth = s.eth := rfl
@[simp] theorem setGroup_sessions (s : State) (g : Group) : (s.setGroup g).sessions = s.sessions := rfl
@[simp] theorem setGroup_qps (s : State) (g : Group) : (s.setGroup g).qps = s.qps := rfl
@[simp] theorem setGroup_pacer (s : State) (g : Group) : (s.setGroup g).pacer = s.pacer := rfl
@[simp] theorem setGroup_pace (s : State) (g : Group) : (s.setGroup g).pace = s.pace := rfl
@[simp] theorem setGroup_temps (s : State) (g : Group) : (s.setGroup g).temps = s.temps := rfl
@[simp] theorem setGroup_power (s : State) (g : Group) : (s.setGroup g).power = s.power := rfl
@[simp] theorem setGroup_inputs (s : State) (g : Group) : (s.setGroup g).inputs = s.inputs := rfl
@[simp] theorem setGroup_telem (s : State) (g : Group) : (s.setGroup g).telem = s.telem := rfl
@[simp] theorem setGroup_tracks (s : State) (g : Group) : (s.setGroup g).tracks = s.tracks := rfl
@[simp] theorem setGroup_heats (s : State) (g : Group) : (s.setGroup g).heats = s.heats := rfl
@[simp] theorem setGroup_worked (s : State) (g : Group) : (s.setGroup g).worked = s.worked := rfl

/-! ### `modSession` -/

@[simp] theorem modSession_mem (s : State) (id : W32) (f : Session → Session) : (s.modSession id f).mem = s.mem := rfl
@[simp] theorem modSession_pending (s : State) (id : W32) (f : Session → Session) : (s.modSession id f).pending = s.pending := rfl
@[simp] theorem modSession_free (s : State) (id : W32) (f : Session → Session) : (s.modSession id f).free = s.free := rfl
@[simp] theorem modSession_queues (s : State) (id : W32) (f : Session → Session) : (s.modSession id f).queues = s.queues := rfl
@[simp] theorem modSession_rings (s : State) (id : W32) (f : Session → Session) : (s.modSession id f).rings = s.rings := rfl
@[simp] theorem modSession_jobs (s : State) (id : W32) (f : Session → Session) : (s.modSession id f).jobs = s.jobs := rfl
@[simp] theorem modSession_unitMap (s : State) (id : W32) (f : Session → Session) : (s.modSession id f).unitMap = s.unitMap := rfl
@[simp] theorem modSession_unfit (s : State) (id : W32) (f : Session → Session) : (s.modSession id f).unfit = s.unfit := rfl
@[simp] theorem modSession_mapCopies (s : State) (id : W32) (f : Session → Session) : (s.modSession id f).mapCopies = s.mapCopies := rfl
@[simp] theorem modSession_retiredCores (s : State) (id : W32) (f : Session → Session) : (s.modSession id f).retiredCores = s.retiredCores := rfl
@[simp] theorem modSession_edern (s : State) (id : W32) (f : Session → Session) : (s.modSession id f).edern = s.edern := rfl
@[simp] theorem modSession_poisoned (s : State) (id : W32) (f : Session → Session) : (s.modSession id f).poisoned = s.poisoned := rfl
@[simp] theorem modSession_caches (s : State) (id : W32) (f : Session → Session) : (s.modSession id f).caches = s.caches := rfl
@[simp] theorem modSession_reservations (s : State) (id : W32) (f : Session → Session) : (s.modSession id f).reservations = s.reservations := rfl
@[simp] theorem modSession_shadows (s : State) (id : W32) (f : Session → Session) : (s.modSession id f).shadows = s.shadows := rfl
@[simp] theorem modSession_shadowRegions (s : State) (id : W32) (f : Session → Session) : (s.modSession id f).shadowRegions = s.shadowRegions := rfl
@[simp] theorem modSession_now (s : State) (id : W32) (f : Session → Session) : (s.modSession id f).now = s.now := rfl
@[simp] theorem modSession_serial (s : State) (id : W32) (f : Session → Session) : (s.modSession id f).serial = s.serial := rfl
@[simp] theorem modSession_dev (s : State) (id : W32) (f : Session → Session) : (s.modSession id f).dev = s.dev := rfl
@[simp] theorem modSession_events (s : State) (id : W32) (f : Session → Session) : (s.modSession id f).events = s.events := rfl
@[simp] theorem modSession_backlog (s : State) (id : W32) (f : Session → Session) : (s.modSession id f).backlog = s.backlog := rfl
@[simp] theorem modSession_backlogLost (s : State) (id : W32) (f : Session → Session) : (s.modSession id f).backlogLost = s.backlogLost := rfl
@[simp] theorem modSession_console (s : State) (id : W32) (f : Session → Session) : (s.modSession id f).console = s.console := rfl
@[simp] theorem modSession_faultLog (s : State) (id : W32) (f : Session → Session) : (s.modSession id f).faultLog = s.faultLog := rfl
@[simp] theorem modSession_faultsEver (s : State) (id : W32) (f : Session → Session) : (s.modSession id f).faultsEver = s.faultsEver := rfl
@[simp] theorem modSession_faultCnt (s : State) (id : W32) (f : Session → Session) : (s.modSession id f).faultCnt = s.faultCnt := rfl
@[simp] theorem modSession_restarts (s : State) (id : W32) (f : Session → Session) : (s.modSession id f).restarts = s.restarts := rfl
@[simp] theorem modSession_jobsHeld (s : State) (id : W32) (f : Session → Session) : (s.modSession id f).jobsHeld = s.jobsHeld := rfl
@[simp] theorem modSession_out (s : State) (id : W32) (f : Session → Session) : (s.modSession id f).out = s.out := rfl
@[simp] theorem modSession_reply (s : State) (id : W32) (f : Session → Session) : (s.modSession id f).reply = s.reply := rfl
@[simp] theorem modSession_replyStatus (s : State) (id : W32) (f : Session → Session) : (s.modSession id f).replyStatus = s.replyStatus := rfl
@[simp] theorem modSession_groups (s : State) (id : W32) (f : Session → Session) : (s.modSession id f).groups = s.groups := rfl
@[simp] theorem modSession_chains (s : State) (id : W32) (f : Session → Session) : (s.modSession id f).chains = s.chains := rfl
@[simp] theorem modSession_chainIds (s : State) (id : W32) (f : Session → Session) : (s.modSession id f).chainIds = s.chainIds := rfl
@[simp] theorem modSession_chainEnds (s : State) (id : W32) (f : Session → Session) : (s.modSession id f).chainEnds = s.chainEnds := rfl
@[simp] theorem modSession_early (s : State) (id : W32) (f : Session → Session) : (s.modSession id f).early = s.early := rfl
@[simp] theorem modSession_judges (s : State) (id : W32) (f : Session → Session) : (s.modSession id f).judges = s.judges := rfl
@[simp] theorem modSession_ports (s : State) (id : W32) (f : Session → Session) : (s.modSession id f).ports = s.ports := rfl
@[simp] theorem modSession_topo (s : State) (id : W32) (f : Session → Session) : (s.modSession id f).topo = s.topo := rfl
@[simp] theorem modSession_pair (s : State) (id : W32) (f : Session → Session) : (s.modSession id f).pair = s.pair := rfl
@[simp] theorem modSession_transfers (s : State) (id : W32) (f : Session → Session) : (s.modSession id f).transfers = s.transfers := rfl
@[simp] theorem modSession_spareRecords (s : State) (id : W32) (f : Session → Session) : (s.modSession id f).spareRecords = s.spareRecords := rfl
@[simp] theorem modSession_notices (s : State) (id : W32) (f : Session → Session) : (s.modSession id f).notices = s.notices := rfl
@[simp] theorem modSession_cores (s : State) (id : W32) (f : Session → Session) : (s.modSession id f).cores = s.cores := rfl
@[simp] theorem modSession_mailboxes (s : State) (id : W32) (f : Session → Session) : (s.modSession id f).mailboxes = s.mailboxes := rfl
@[simp] theorem modSession_starter (s : State) (id : W32) (f : Session → Session) : (s.modSession id f).starter = s.starter := rfl
@[simp] theorem modSession_eth (s : State) (id : W32) (f : Session → Session) : (s.modSession id f).eth = s.eth := rfl
@[simp] theorem modSession_qps (s : State) (id : W32) (f : Session → Session) : (s.modSession id f).qps = s.qps := rfl
@[simp] theorem modSession_pacer (s : State) (id : W32) (f : Session → Session) : (s.modSession id f).pacer = s.pacer := rfl
@[simp] theorem modSession_pace (s : State) (id : W32) (f : Session → Session) : (s.modSession id f).pace = s.pace := rfl
@[simp] theorem modSession_temps (s : State) (id : W32) (f : Session → Session) : (s.modSession id f).temps = s.temps := rfl
@[simp] theorem modSession_power (s : State) (id : W32) (f : Session → Session) : (s.modSession id f).power = s.power := rfl
@[simp] theorem modSession_inputs (s : State) (id : W32) (f : Session → Session) : (s.modSession id f).inputs = s.inputs := rfl
@[simp] theorem modSession_telem (s : State) (id : W32) (f : Session → Session) : (s.modSession id f).telem = s.telem := rfl
@[simp] theorem modSession_tracks (s : State) (id : W32) (f : Session → Session) : (s.modSession id f).tracks = s.tracks := rfl
@[simp] theorem modSession_heats (s : State) (id : W32) (f : Session → Session) : (s.modSession id f).heats = s.heats := rfl
@[simp] theorem modSession_worked (s : State) (id : W32) (f : Session → Session) : (s.modSession id f).worked = s.worked := rfl

/-! ### `store` -/

@[simp] theorem store_pending (s : State) (a : Nat) (bs : List Byte) : (s.store a bs).pending = s.pending := rfl
@[simp] theorem store_free (s : State) (a : Nat) (bs : List Byte) : (s.store a bs).free = s.free := rfl
@[simp] theorem store_queues (s : State) (a : Nat) (bs : List Byte) : (s.store a bs).queues = s.queues := rfl
@[simp] theorem store_rings (s : State) (a : Nat) (bs : List Byte) : (s.store a bs).rings = s.rings := rfl
@[simp] theorem store_unitMap (s : State) (a : Nat) (bs : List Byte) : (s.store a bs).unitMap = s.unitMap := rfl
@[simp] theorem store_unfit (s : State) (a : Nat) (bs : List Byte) : (s.store a bs).unfit = s.unfit := rfl
@[simp] theorem store_mapCopies (s : State) (a : Nat) (bs : List Byte) : (s.store a bs).mapCopies = s.mapCopies := rfl
@[simp] theorem store_retiredCores (s : State) (a : Nat) (bs : List Byte) : (s.store a bs).retiredCores = s.retiredCores := rfl
@[simp] theorem store_edern (s : State) (a : Nat) (bs : List Byte) : (s.store a bs).edern = s.edern := rfl
@[simp] theorem store_shadows (s : State) (a : Nat) (bs : List Byte) : (s.store a bs).shadows = s.shadows := rfl
@[simp] theorem store_shadowRegions (s : State) (a : Nat) (bs : List Byte) : (s.store a bs).shadowRegions = s.shadowRegions := rfl
@[simp] theorem store_now (s : State) (a : Nat) (bs : List Byte) : (s.store a bs).now = s.now := rfl
@[simp] theorem store_serial (s : State) (a : Nat) (bs : List Byte) : (s.store a bs).serial = s.serial := rfl
@[simp] theorem store_dev (s : State) (a : Nat) (bs : List Byte) : (s.store a bs).dev = s.dev := rfl
@[simp] theorem store_events (s : State) (a : Nat) (bs : List Byte) : (s.store a bs).events = s.events := rfl
@[simp] theorem store_backlog (s : State) (a : Nat) (bs : List Byte) : (s.store a bs).backlog = s.backlog := rfl
@[simp] theorem store_backlogLost (s : State) (a : Nat) (bs : List Byte) : (s.store a bs).backlogLost = s.backlogLost := rfl
@[simp] theorem store_console (s : State) (a : Nat) (bs : List Byte) : (s.store a bs).console = s.console := rfl
@[simp] theorem store_faultLog (s : State) (a : Nat) (bs : List Byte) : (s.store a bs).faultLog = s.faultLog := rfl
@[simp] theorem store_faultsEver (s : State) (a : Nat) (bs : List Byte) : (s.store a bs).faultsEver = s.faultsEver := rfl
@[simp] theorem store_faultCnt (s : State) (a : Nat) (bs : List Byte) : (s.store a bs).faultCnt = s.faultCnt := rfl
@[simp] theorem store_restarts (s : State) (a : Nat) (bs : List Byte) : (s.store a bs).restarts = s.restarts := rfl
@[simp] theorem store_jobsHeld (s : State) (a : Nat) (bs : List Byte) : (s.store a bs).jobsHeld = s.jobsHeld := rfl
@[simp] theorem store_out (s : State) (a : Nat) (bs : List Byte) : (s.store a bs).out = s.out := rfl
@[simp] theorem store_reply (s : State) (a : Nat) (bs : List Byte) : (s.store a bs).reply = s.reply := rfl
@[simp] theorem store_replyStatus (s : State) (a : Nat) (bs : List Byte) : (s.store a bs).replyStatus = s.replyStatus := rfl
@[simp] theorem store_groups (s : State) (a : Nat) (bs : List Byte) : (s.store a bs).groups = s.groups := rfl
@[simp] theorem store_chains (s : State) (a : Nat) (bs : List Byte) : (s.store a bs).chains = s.chains := rfl
@[simp] theorem store_chainIds (s : State) (a : Nat) (bs : List Byte) : (s.store a bs).chainIds = s.chainIds := rfl
@[simp] theorem store_chainEnds (s : State) (a : Nat) (bs : List Byte) : (s.store a bs).chainEnds = s.chainEnds := rfl
@[simp] theorem store_early (s : State) (a : Nat) (bs : List Byte) : (s.store a bs).early = s.early := rfl
@[simp] theorem store_judges (s : State) (a : Nat) (bs : List Byte) : (s.store a bs).judges = s.judges := rfl
@[simp] theorem store_ports (s : State) (a : Nat) (bs : List Byte) : (s.store a bs).ports = s.ports := rfl
@[simp] theorem store_topo (s : State) (a : Nat) (bs : List Byte) : (s.store a bs).topo = s.topo := rfl
@[simp] theorem store_pair (s : State) (a : Nat) (bs : List Byte) : (s.store a bs).pair = s.pair := rfl
@[simp] theorem store_transfers (s : State) (a : Nat) (bs : List Byte) : (s.store a bs).transfers = s.transfers := rfl
@[simp] theorem store_spareRecords (s : State) (a : Nat) (bs : List Byte) : (s.store a bs).spareRecords = s.spareRecords := rfl
@[simp] theorem store_notices (s : State) (a : Nat) (bs : List Byte) : (s.store a bs).notices = s.notices := rfl
@[simp] theorem store_cores (s : State) (a : Nat) (bs : List Byte) : (s.store a bs).cores = s.cores := rfl
@[simp] theorem store_mailboxes (s : State) (a : Nat) (bs : List Byte) : (s.store a bs).mailboxes = s.mailboxes := rfl
@[simp] theorem store_starter (s : State) (a : Nat) (bs : List Byte) : (s.store a bs).starter = s.starter := rfl
@[simp] theorem store_eth (s : State) (a : Nat) (bs : List Byte) : (s.store a bs).eth = s.eth := rfl
@[simp] theorem store_sessions (s : State) (a : Nat) (bs : List Byte) : (s.store a bs).sessions = s.sessions := rfl
@[simp] theorem store_qps (s : State) (a : Nat) (bs : List Byte) : (s.store a bs).qps = s.qps := rfl
@[simp] theorem store_pacer (s : State) (a : Nat) (bs : List Byte) : (s.store a bs).pacer = s.pacer := rfl
@[simp] theorem store_pace (s : State) (a : Nat) (bs : List Byte) : (s.store a bs).pace = s.pace := rfl
@[simp] theorem store_temps (s : State) (a : Nat) (bs : List Byte) : (s.store a bs).temps = s.temps := rfl
@[simp] theorem store_power (s : State) (a : Nat) (bs : List Byte) : (s.store a bs).power = s.power := rfl
@[simp] theorem store_inputs (s : State) (a : Nat) (bs : List Byte) : (s.store a bs).inputs = s.inputs := rfl
@[simp] theorem store_telem (s : State) (a : Nat) (bs : List Byte) : (s.store a bs).telem = s.telem := rfl
@[simp] theorem store_tracks (s : State) (a : Nat) (bs : List Byte) : (s.store a bs).tracks = s.tracks := rfl
@[simp] theorem store_heats (s : State) (a : Nat) (bs : List Byte) : (s.store a bs).heats = s.heats := rfl
@[simp] theorem store_worked (s : State) (a : Nat) (bs : List Byte) : (s.store a bs).worked = s.worked := rfl

/-! ### What an update leaves in its own field -/

@[simp] theorem setQueue_queues (s : State) (q : CmdQueue) :
    (s.setQueue q).queues = s.queues.map fun x => if x.id == q.id then q else x := rfl

@[simp] theorem modJob_jobs (s : State) (id : Nat) (f : Job → Job) :
    (s.modJob id f).jobs = s.jobs.map fun x => if x.id == id then f x else x := rfl

@[simp] theorem setCore_cores (s : State) (n : Nat) (c : HostCore) : (s.setCore n c).cores = s.cores.set n c := rfl

@[simp] theorem setPort_ports (s : State) (p : Nat) (x : Port) : (s.setPort p x).ports = s.ports.set p x := rfl

@[simp] theorem store_mem (s : State) (a : Nat) (bs : List Byte) : (s.store a bs).mem = s.mem.setBytes a bs := rfl

/-- A queue that is there is found as it was set. -/
theorem queue?_setQueue (s : State) (q q0 : CmdQueue) (h : s.queue? q.id = some q0) : (s.setQueue q).queue? q.id = some q := by
  unfold queue? at h ⊢
  rw [setQueue_queues, List.find?_map]
  have : ((fun c : CmdQueue => c.id == q.id) ∘ fun x : CmdQueue => if x.id == q.id then q else x) = fun x => x.id == q.id := by
    funext x; simp only [Function.comp]; split <;> simp_all
  rw [this, h]
  have := List.find?_some h
  simp_all

/-- Another queue is found as it was. -/
theorem queue?_setQueue_ne (s : State) (q : CmdQueue) {n : Nat} (h : n ≠ q.id) : (s.setQueue q).queue? n = s.queue? n := by
  unfold queue?
  rw [setQueue_queues]
  induction s.queues with
  | nil => rfl
  | cons x xs ih =>
    simp only [List.map_cons, List.find?_cons]
    rw [ih]
    by_cases hx : x.id = q.id
    · have h1 : (q.id == n) = false := by simp; omega
      simp [hx, h1]
    · simp [hx]

/-- A core of the block is read as it was set. -/
theorem core_setCore (s : State) (n : Nat) (c : HostCore) (h : n < s.cores.length) : (s.setCore n c).core n = c := by
  simp [core, setCore, List.getD, h]

theorem core_setCore_ne (s : State) (n : Nat) (c : HostCore) {k : Nat} (h : k ≠ n) : (s.setCore n c).core k = s.core k := by
  simp [core, setCore, List.getD, List.getElem?_set_ne (Ne.symm h)]

end State

end Sys2Proof.Machine
end

