-- ==== Sys2Proof/Tests/Slice0.lean ====
section
/-! SUPPORT. Tests on single steps over small states, a smoke test of every well-formedness check, and for each statement with
hypotheses named theorems that show a state and operands that meet them. -/

set_option Elab.async false

namespace Sys2Proof.Tests

open Sys2Proof.Machine

/-! ### Helpers -/

/-- A job with a descriptor table of 64 entries at 0x10000000 and an event queue. -/
def tJob : Job :=
  { id := 5, zeroPolicy := false, lapStart := 0, lapRecovery := 0, lap := 0, seed := 9, descBase := 0x10000000, descEntries := 64
    stashBase := 0, stashBytes := 0, watchBase := 0, watchSlots := 0, eq := 0x5000, eqBase := 0x20000000, eqSlots := 64, step := 0
    lastSkip := false, skipping := false, updateArmed := false, ckptRequested := false, ckptSteps := 64, ckptSeconds := 60
    ranges := [], pools := [], newPolicy := none, lastFreeze := 0, owed := false, freezeAt := none
    wholeNext := true, map := [], gens := [], restoreQueues := [], restoreSeqs := [], watch := {}, digest := 0, ownDigests := []
    twinDigests := [], lastMismatch := none, phase := .running, restorePoint := 0
    restart := { smallest := 0, changedAt := 0 }, spares := [], faultStep := false }

def tCommitted : Committed := { position := 0, sregs := List.replicate 64 0, laps := [], generate := false, hurdles := [] }

/-- A running queue of that job with one command at its base. -/
def tQueue : CmdQueue :=
  { id := 33, job := 5, base := 0x08000000, slots := 64, cq := 0x5001, eq := 0x5000, state := .running, status := 0
    team := 1, share := 0, hdr := 0, shareOff := 0, write := 1, pos := 0, next := 0, lastOpcode := 0, lastTag := 0, count := 0
    sregs := List.replicate 64 7, laps := [], generate := false, wait := .none, cur := 0, breaks := List.replicate 4 {}
    resumedAt := none, committed := tCommitted, armed := [] }

/-- The command that a queue has in hand. -/
def tCmd (s : State) : Cmd := (s.inHand 33).getD { q := tQueue, job := tJob, slot := 0, pos := 0 }

/-- The cells of bytes from an address. -/
def cells (a : Nat) (bs : List Byte) : Memory := (bs.zipIdx.filter fun b => b.1 != 0).map fun b => (a + b.2, b.1)

/-- A slot: opcode, handles, and values at bit positions. -/
def tSlot (o : Op) (hs : List Nat) (fs : List (Nat × Nat)) : Nat :=
  fs.foldl (fun w f => w ||| f.2 <<< f.1) (o.code ||| (List.range 6).foldl (fun w i => w ||| hs.getD i noHandle <<< (64 + 24 * i)) 0)

/-- A linear FP32 tensor of rank 1: base and elements (R207). -/
def tDesc (base n : Nat) : Nat := base ||| 1 <<< 52 ||| 1 <<< 60 ||| n <<< 128 ||| 4 <<< 272

/-- A device that is READY with the job, the queue, the slot at its position and the tensors 0, 1, … of the job. -/
def tState (slot : Nat) (ds : List Nat) : State :=
  { State.reset with
    dev := .ready, jobs := [tJob], queues := [tQueue]
    mem := cells 0x08000000 (toLe 64 slot) ++ ds.zipIdx.flatMap fun d => cells (0x10000000 + 64 * d.2) (toLe 64 d.1) }

def nextOf (o : Host.Outcome State Fault Refusal) : Option State :=
  match o with
  | .next s => some s
  | _ => none

/-- Whether a command stops as ill-formed. -/
def illFormed (o : Host.Outcome State Fault Refusal) : Bool :=
  match o with
  | .fault .illFormed => true
  | _ => false

/-- Whether a body ends in OK and leaves its queue there. -/
def bodyOk (r : Res) : Bool :=
  match r with
  | .ok s _ _ => (s.queue? 33).any fun q => !s.cqBlocked q .ok
  | _ => false

/-- A command in hand of an opcode that passes its checks. -/
abbrev ready (o : Op) (chk : Cmd → State → List Fail) (s : State) : Prop :=
  s.inHand 33 = some (tCmd s) ∧ State.isOp o (tCmd s).slot = true ∧ worst (chk (tCmd s) (s.deciding (tCmd s))) = none ∧
    s.cqBlocked (tCmd s).q .ok = false

/-! ### Well-formedness -/

/-- A packet with 32 · n bytes of payload, its CRC in place (R325, R328). -/
def tPk (t : PType) (vc job group bucket first stage : Nat) (carry : Nat) (contrib : W64) (payload : List Byte) : Packet :=
  let k : Packet :=
    { ptype := BitVec.ofNat 4 t.code, vc := BitVec.ofNat 2 vc, job := BitVec.ofNat 10 job, group := BitVec.ofNat 14 group
      bucket := BitVec.ofNat 32 bucket, first := BitVec.ofNat 32 first, carry := BitVec.ofNat 3 carry
      len := BitVec.ofNat 8 (payload.length / 32), stage := BitVec.ofNat 4 stage, contrib := contrib, dstValid := false, dst := 0
      srcValid := false, src := 0, pcrc := 0, payload := payload }
  { k with pcrc := Pkt.crc k }

/-- A flit on port 0, its CRC in place (R313, R315). -/
def tFlit (type seq ack first : Nat) : Flit :=
  let c : W64 := BitVec.ofNat 64 (type <<< 61 ||| seq <<< 49 ||| ack <<< 37 ||| first <<< 11)
  let pay : List Byte := List.replicate 500 0
  { slot := 0, errors := [[]], control := c, payload := pay, crc := crc32c (toLe 8 c.toNat ++ pay) }

/-- A reading with a temperature of the hub. -/
def tReading (hub : Int) : SensorReading :=
  { cd0 := 60, cd1 := 61, hub := hub, dram := [70, 71, 86, 72, 73, 74, 75, 76], optics := List.replicate 6 40 }

theorem test_ill_formed_packet :
    let k := { tPk .beat 0 0 0 0 0 0 0 0 (List.replicate 32 0) with payload := List.replicate 31 0 }
    k.wf = false ∧ illFormed (exec (.beatPacket k) State.reset) = true := by decide +kernel

theorem test_ill_formed_flit :
    let f := { tFlit 0 0 0 0xFFF with payload := [] }
    f.wf 0 = false ∧ illFormed (exec (.flitReceived 0 f) State.reset) = true := by decide +kernel

theorem test_ill_formed_reading :
    let r := { tReading 70 with dram := [] }
    r.wf = false ∧ illFormed (exec (.sensorReading r) State.reset) = true := by decide +kernel

/-! ### Macro-ops -/

def tTensors : List Nat := [tDesc 0x20010000 4, tDesc 0x20020000 4, tDesc 0x20030000 4]

def tFill : State := tState (tSlot .fill [0] []) tTensors
def tCopy : State := tState (tSlot .copy [0, 1] []) tTensors

theorem witness_TensorMacroOps_fill :
    ready .fill fillChecks tFill ∧ bodyOk (fillBody (tCmd tFill) (tFill.deciding (tCmd tFill))) = true := by decide +kernel

theorem witness_TensorMacroOps_copy :
    ready .copy (moveChecks true) tCopy ∧ bodyOk (copyBody true [] (tCmd tCopy) (tCopy.deciding (tCmd tCopy))) = true := by
  decide +kernel

/-- A tensor of rank 1 (e1 = 0) or 2 with 4-byte elements: format, kind, base and extents (R207). -/
def tMat (fmt kind base e0 e1 : Nat) : Nat :=
  base ||| fmt <<< 52 ||| kind <<< 56 ||| (if e1 = 0 then 1 else 2) <<< 60 ||| e0 <<< 128 ||| e1 <<< 160 ||| 4 <<< 272 |||
    (4 * e0) <<< 312

/-- FP32 tensors of four elements, of 2 × 2 and of 2 × 2 × 2 elements, by their number. -/
def tRow (kind i : Nat) : Nat := tMat 1 kind (0x20000000 + 0x10000 * i) 4 0
def tSquare (kind i : Nat) : Nat := tMat 1 kind (0x20000000 + 0x10000 * i) 2 2
def tCube (i : Nat) : Nat := tSquare 0 i ||| 1 <<< 60 ||| 2 <<< 192 ||| 16 <<< 352

/-- A lane program that loads stream 0 and stores it as stream 1 (R163, R165). -/
def tProgram : List Byte :=
  toLe 4 (1 <<< 24 ||| 1 <<< 22 ||| 2 <<< 11) ++ toLe 2 (1 ||| 1 <<< 7) ++ toLe 10 0 ++ toLe 4 (0x20 <<< 26) ++
    toLe 4 (0x21 <<< 26 ||| 1 <<< 18)

/-- A macro-op over tensors: its scalar registers hold about 1.0 as FP64 and 1.0 as FP32, the program stands at 0x40000000, the queue has a stash share. -/
def tMacro (o : Op) (fs : List (Nat × Nat)) (ds : List Nat) : State :=
  let s := tState (tSlot o (List.range ds.length) fs) ds
  { s with
    mem := s.mem ++ cells 0x40000000 tProgram
    jobs := s.jobs.map fun j => { j with stashBase := 0x51000000, stashBytes := 4096 }
    queues := s.queues.map fun q =>
      { q with share := 4096, hdr := 0x50000000, sregs := List.replicate 64 0x3FF000003F800000 } }

/-- What TensorMacroOpsComplete asks of a state, but for the premise of its op. -/
def meets (o : Op) (chk : Cmd → State → List Fail) (s : State) : Bool :=
  s.inHand 33 == some (tCmd s) && State.isOp o (tCmd s).slot && (worst (chk (tCmd s) (s.deciding (tCmd s)))).isNone &&
    s.poisoned.isEmpty && s.mem.wf && s.rings.all fun x => decide (0 < x.slots)

theorem witness_TensorMacroOpsComplete_moves :
    (meets .load loadChecks (tMacro .load [] [tRow 0 0, tMat 1 0 0x100000000000 4 0]) &&
      meets .store storeChecks (tMacro .store [] [tMat 1 0 0x100000000000 4 0, tRow 0 1]) &&
      meets .copy (moveChecks true) (tMacro .copy [] [tRow 0 0, tRow 0 1]) &&
      meets .convert (moveChecks false) (tMacro .convert [] [tRow 0 0, tRow 0 1]) &&
      meets .fill fillChecks (tMacro .fill [] [tRow 0 0]) && meets .rng rngChecks (tMacro .rng [] [tRow 11 0]) &&
      meets .gather gatherChecks (tMacro .gather [] [tSquare 0 0, tMat 10 10 0x20010000 2 0, tSquare 0 2]) &&
      meets .scatter scatterChecks (tMacro .scatter [] [tSquare 0 0, tMat 10 10 0x20010000 2 0, tSquare 0 2])) = true := by
  decide +kernel

theorem witness_TensorMacroOpsComplete_matrices :
    (meets .gemm (Gemm.checks (· == 2)) (tMacro .gemm [] [tSquare 0 0, tSquare 0 1, tSquare 0 2]) &&
      (let s := tMacro .gemm [] [tSquare 0 0, tSquare 0 1, tSquare 0 2]
       let c := tCmd s
       match c.tensor? s 0, c.tensor? s 1 with
       | some a, some b => match Gemm.cls c.warm a b with
         | some k => Gemm.boundsOk c.slot (Gemm.scalar (Gemm.accOf c.slot k).working (c.reg c.slot.sC))
             (Gemm.scalar (Gemm.accOf c.slot k).working (c.reg c.slot.sD))
         | none => false
       | _, _ => false) &&
      meets .bgemm (Gemm.checks fun k => decide (3 ≤ k) && decide (k ≤ 6)) (tMacro .bgemm [] [tCube 0, tCube 1, tCube 2]) &&
      meets .bwd2 Bwd.checks (tMacro .bwd2 [] [tSquare 6 0, tSquare 1 1, tSquare 4 2, tSquare 6 3,
        tSquare 7 4 ||| 0xFFFFFF <<< 96])) = true := by decide +kernel

theorem witness_TensorMacroOpsComplete_rows :
    (meets .ewise (Ew.checks false) (tMacro .ewise [(256, 0x40000000)] [tRow 0 0, tRow 0 1]) &&
      meets .stencil (Ew.checks true) (tMacro .stencil [(256, 0x40000000)] [tRow 0 0, tRow 0 1]) &&
      meets .reduce Reduce.checks (tMacro .reduce [] [tRow 0 0, tMat 1 0 0x20010000 1 0]) &&
      meets .argred Argred.checks (tMacro .argred [] [tRow 0 0, tMat 1 0 0x20010000 1 0, tMat 10 10 0x20020000 1 0]) &&
      meets .norm Rows.normChecks (tMacro .norm [] [tRow 0 0, tRow 0 1]) &&
      Rows.epsOk (Rows.epsOf (tCmd (tMacro .norm [] [tRow 0 0, tRow 0 1]))) &&
      meets .normb Rows.normbChecks (tMacro .normb [] [tRow 4 0, tRow 6 1, tRow 0 2, tRow 6 3]) &&
      meets .smax Rows.smaxChecks (tMacro .smax [] [tRow 0 0, tRow 0 1]) &&
      meets .smaxb Rows.smaxbChecks (tMacro .smaxb [] [tRow 0 0, tRow 6 1, tRow 6 2])) = true := by decide +kernel

/-- UNSTASH of the tensor that STASH has put away. -/
def tStashed : State :=
  let s := tMacro .stash [] [tRow 0 0]
  let t := (nextOf (exec (.stash 33) s)).getD s
  { t with
    mem := (tMacro .unstash [] [tRow 0 0]).mem.foldl (fun m c => Memory.set m c.1 c.2) t.mem
    queues := t.queues.map fun q => { q with state := .running, write := 1, pos := 0, next := 0 } }

theorem witness_TensorMacroOpsComplete_stash :
    (let s := tMacro .stash [] [tRow 0 0]
     let c := tCmd s
     meets .stash Stash.checks s && c.q.share != 0 && decide (s.read (c.q.hdr + 0xC) 4 < 1023) &&
       (c.tensor? s 0).any fun d => decide (s.read c.q.hdr 8 + Stash.up (Stash.addrs d c.warm).length ≤ c.q.share)) &&
      (let s := tStashed
       let c := tCmd s
       meets .unstash Stash.unChecks s && c.q.share != 0 && (c.tensor? s 0).any fun d =>
         match Stash.find s c.q.hdr (min (s.read (c.q.hdr + 0xC) 4) 1023) d.handle with
         | some i => (Stash.addrs d c.warm).length == s.read (Stash.entryAddr c.q.hdr i + 16) 8
         | none => false) = true := by decide +kernel

/-- FILL writes the FP32 pattern of sA to each element (R217): 7.0 held as FP64. -/
theorem test_fill_writes_every_element :
    (nextOf (exec (.fill 33) { tFill with queues := [{ tQueue with sregs := List.replicate 64 0x401C000000000000 }] })).map
      (fun t => t.bytes 0x20010000 17) = some ((List.replicate 4 [0, 0, 0xE0, 0x40]).flatten ++ [0]) := by decide +kernel

def tBadHandle : State := tState (tSlot .load [0, 64] []) tTensors

theorem witness_FailedDecodeWritesNothing :
    tBadHandle.inHand 33 = some (tCmd tBadHandle) ∧ State.isOp .load (tCmd tBadHandle).slot = true ∧
      worst (loadChecks (tCmd tBadHandle) (tBadHandle.deciding (tCmd tBadHandle))) = some (.badHandle, some 1) ∧
      tBadHandle.cqBlocked (tCmd tBadHandle).q .badHandle = false ∧ (∀ x ∈ tBadHandle.rings, 0 < x.slots) ∧
      tBadHandle.poisoned = [] ∧ tBadHandle.mem.wf = true := by decide +kernel

/-- A completion queue of four slots at 0x30000000. -/
def tRing : RingQ := { id := 0x5001, kind := .completion, job := some 5, base := 0x30000000, slots := 4, core := none }

theorem witness_CompletionRecordIsWritten :
    let s : State := { tFill with rings := [tRing] }
    let q := { tQueue with cur := 0x2000 }
    s.mem.wf = true ∧ s.ring? q.cq = some tRing ∧ tRing.kind = .completion ∧ 0 < tRing.slots ∧
      State.writesRecord q.cur.toNat .ok = true ∧ State.doneEvent q.cur.toNat .ok = none ∧ s.ringLine tRing = none := by decide +kernel

def tScal (o : Nat) : State := tState (tSlot .scal [] [(240, o), (32, 1), (38, 2), (44, 3)]) []

theorem witness_ScalarAndControlOps_scal :
    ∀ o ∈ [1, 2, 3, 4, 5, 6, 7, 8, 9, 10, 11, 12, 13], ready .scal Scal.checks (tScal o) ∧ Scal.op (tCmd (tScal o)).slot = o := by
  decide +kernel

theorem witness_ScalarAndControlOps_move :
    let s := tState (tSlot .scal [] [(32, 1), (44, 3)]) []
    ready .scal Scal.checks s ∧ Scal.op (tCmd s).slot = 0 := by decide +kernel

theorem witness_ScalarAndControlOps_control :
    ready .nop nopChecks (tState 0 []) ∧
      (∀ o ∈ [Op.tag, .ckpt, .fence, .halt], ready o bareChecks (tState (tSlot o [] []) [])) ∧
      ready .phase phaseChecks (tState (tSlot .phase [] [(240, 1)]) []) ∧
      (tCmd (tState (tSlot .fence [] []) [])).q.armed = [] ∧
      (tState (tSlot .halt [] []) []).cqBlocked (tCmd (tState (tSlot .halt [] []) [])).q .halted = false := by decide +kernel

/-- BR always, with offset 2: taken and held. -/
def tBr (cond off : Nat) : State := tState (tSlot .br [] [(243, cond), (320, off), (32, if cond = 0 then 0 else 1), (38, if cond = 0 then 0 else 2)]) []

theorem witness_BranchesAndLaps_br :
    (∀ p ∈ [(0, 2), (2, 2), (0, 70)], ready .br Branch.checks (tBr p.1 p.2)) ∧
      (let c := tCmd (tBr 0 2)
       Branch.taken (Branch.cond c.slot) (Branch.compare (Branch.type c.slot) (c.reg c.slot.sA) (c.reg c.slot.sB)) = true) ∧
      (let c := tCmd (tBr 2 2)
       Branch.taken (Branch.cond c.slot) (Branch.compare (Branch.type c.slot) (c.reg c.slot.sA) (c.reg c.slot.sB)) = false) := by
  decide +kernel

def tLap (n : Nat) : State := tState (tSlot .lap [] [(240, 1), (256, n), (320, 3)]) []

/-- An ENDLAP at position 3 of a Lap at position 0 whose body ran once. -/
def tEndlap (count : Nat) : State :=
  let s := tState 0 []
  { s with
    mem := cells 0x080000C0 (toLe 64 (tSlot .endlap [] [(320, 3)]))
    queues := [{ tQueue with pos := 3, next := 3, write := 4, laps := [{ pos := 0, d := 3, count := BitVec.ofNat 64 count, iter := 0 }] }] }

theorem witness_BranchesAndLaps_lap :
    ready .lap LapOp.checks (tLap 0) ∧ ready .lap LapOp.checks (tLap 2) ∧ (tCmd (tLap 2)).q.laps.length < 8 ∧
      ready .endlap LapOp.endChecks (tEndlap 1) ∧ ready .endlap LapOp.endChecks (tEndlap 2) ∧
      (tCmd (tEndlap 2)).pos = 0 + BitVec.ofNat 64 3 ∧ (tCmd (tEndlap 2)).slot.operand 0x28 0 32 = 3 := by decide +kernel

/-- A command on the signal word at 0x40000000, which holds 5. -/
def tSync (o : Op) (fs : List (Nat × Nat)) : State :=
  let s := tState (tSlot o [] ([(256, 0x40000000)] ++ fs)) []
  { s with mem := s.mem ++ [(0x40000000, 5)] }

/-- A message queue of 64 slots. -/
def tMsg : RingQ := { id := 0xD000, kind := .message, job := some 5, base := 0x30000000, slots := 64, core := none }

def tPost : State := { tState (tSlot .signal [] [(240, 3), (256, 0xD000), (320, 9)]) [] with rings := [tMsg] }

theorem witness_QueuesSignalAndWait_start :
    ready .wait Sync.waitChecks (tSync .wait [(240, 1), (320, 5)]) ∧ ready .wait Sync.waitChecks (tSync .wait [(240, 1), (320, 6)]) ∧
      isSignal false (tCmd (tSync .signal [(240, 1), (320, 1)])).slot = true ∧
      ready .signal Sync.addChecks (tSync .signal [(240, 1), (320, 1)]) ∧
      isSignal true (tCmd tPost).slot = true ∧ ready .signal Sync.postChecks tPost ∧ tPost.ring? 0xD000 = some tMsg ∧
      tPost.ringFull tMsg = false ∧ tPost.ringLine tMsg = none ∧ isHurdle false (tCmd (tSync .hurdle [(320, 6)])).slot = true ∧
      ready .hurdle Sync.localChecks (tSync .hurdle [(320, 6)]) ∧ ready .hurdle Sync.localChecks (tSync .hurdle [(320, 9)]) ∧
      (tSync .wait [(240, 1), (320, 5)]).poisonIn 0x40000000 8 = false := by decide +kernel

/-- A queue of the job that waits. -/
def tWaiting (w : Wait) : State :=
  { tSync .wait [] with queues := [{ tQueue with state := .waiting, wait := w, next := 1 }], rings := [tMsg] }

theorem witness_QueuesSignalAndWait_go :
    (tWaiting (.word 0x40000000 5)).queue? 33 = some { tQueue with state := .waiting, wait := .word 0x40000000 5, next := 1 } ∧
      (tWaiting (.word 0x40000000 5)).unfit = false ∧
      ((tWaiting .fence).stackWord 0x40000000 - 5).toNat < 2 ^ 63 ∧
      (tWaiting (.word 0x40000000 5)).cqBlocked { tQueue with state := .waiting, wait := .word 0x40000000 5, next := 1 } .ok = false ∧
      (tWaiting (.post 0xD000 3)).ring? 0xD000 = some tMsg ∧ (tWaiting (.post 0xD000 3)).ringFull tMsg = false ∧
      (tWaiting (.post 0xD000 3)).ringLine tMsg = none := by decide +kernel

theorem witness_QueuesSignalAndWait_held :
    let d : Done := { status := .ok, next := 1, countA := 0, countB := 0 }
    let q := { tQueue with state := .waitCq, wait := .cq d }
    let s : State := { tState 0 [] with queues := [q] }
    s.queue? 33 = some q ∧ q.state = .waitCq ∧ q.wait = .cq d ∧ s.cqBlocked q d.status = false := by decide +kernel

theorem witness_QueuesSignalAndWait_break :
    let q := { tQueue with breaks := [{ kind := .count, value := 0, mask := 0 }, {}, {}, {}] }
    let s : State := { tState 0 [] with queues := [q] }
    s.queue? 33 = some q ∧ s.job? q.job = some tJob ∧ State.queueReady q = true ∧ s.runsJob tJob = true ∧
      State.breakHit q (s.slotAt q q.next).tag = some 0 := by decide +kernel

theorem witness_DoorbellIsJudgedByItsBounds :
    let s := tState 0 []
    s.queue? 33 = some tQueue ∧ tQueue.state ≠ .unbound ∧ ((64 : W64) - tQueue.write).toNat < 2 ^ 63 ∧
      ((64 : W64) - s.qwFree tQueue).toNat ≤ tQueue.slots ∧ ¬ ((65 : W64) - s.qwFree tQueue).toNat ≤ tQueue.slots := by decide +kernel

def tCommit : State := tState (tSlot .commit [] []) []

theorem witness_CommitClosesTheStep :
    ready .commit bareChecks tCommit ∧
      (let s : State := { tCommit with queues := [{ tQueue with state := .waiting, wait := .commit, next := 1 }] }
       s.job? 5 = some tJob ∧ s.commitReady tJob = true ∧ s.pair.mode ≠ .mirror ∧ s.poisoned = []) := by decide +kernel

/-! ### Mailbox commands -/

/-- Fields at byte offsets: offset and value. -/
def tBytes (n : Nat) (fs : List (Nat × Nat)) : List Byte := toLe n (fs.foldl (fun w f => w ||| f.2 <<< (8 * f.1)) 0)

/-- A request of `n` bytes of arguments in a mailbox. -/
def tAskAt (m : Nat) (s : State) (code n : Nat) (fs : List (Nat × Nat)) : State :=
  (s.store (State.mboxArea m) (toLe 2 code ++ toLe 2 7 ++ toLe 2 n ++ List.replicate 10 0 ++ tBytes n fs)).modMbox m
    fun x => { x with busy := true }

/-- A request of the device's own firmware. -/
def tAsk : State → Nat → Nat → List (Nat × Nat) → State := tAskAt 56

def tRings : List RingQ :=
  [{ id := 0x5000, kind := .event, job := some 5, base := 0x20000000, slots := 64, core := none }
    , { id := 0x5001, kind := .completion, job := some 5, base := 0x20010000, slots := 64, core := none }, tMsg]

/-- A device that is READY with a job, its rings and a queue of a state. -/
def tDev (q : QState) : State := { tState 0 [] with queues := [{ tQueue with state := q }], rings := tRings }

def tHeld : State := { tDev .idle with jobs := [{ tJob with phase := .held 1 }] }

/-- A NEIGHBOURS group of the job on port 0. -/
def tGroup : Group :=
  { id := 2, job := 5, geometry := .neighbours, ports := [0], rank := 0, ext := [0, 0, 0], rings := [], budget := 5000000
    mDecl := 0, m := 0, serials := [], seq := 0, round := 0, arrivals := 0, sentAt := none, barrier := {}, heard := [] }

def tGrouped : State := { tDev .idle with groups := [tGroup] }

/-- A session that is open on mailbox 3, and one with which an owner claims the device. -/
def tSession : Session :=
  { id := 0x99, mailbox := 3, state := .opened, claim := false, keyId := 0, addrA := 1, addrB := 2, port := 0, addr := 1
    relayed := false, eqBase := 0x22000000, eqSlots := 64, hello := [], hreply := [], startedAt := 0, lastRx := 0, lastTx := 0
    regions := [{ key := 8, base := 0x30000000, len := 4096, read := true, write := true }], subs := [(0x5001, 0)] }

def tOwned : State :=
  { tDev .idle with
    sessions := [tSession], starter := { State.reset.starter with owners := [List.replicate 133 1, List.replicate 133 2] }
    qps := [{ qpn := 2, port := 0, session := 0x99, mtu := 1024, rnr := 0, hostQpn := 1, hostPsn := 0, psn := 0, gid := 0
              ringBase := 0x31000000, ringSlots := 64 }] }

/-- Whether a mailbox accepts what it holds. -/
def takes (m : Fin 64) (g : Gate) (len : State → Nat → Nat) (fails : State → Nat → List Deny) (s : State) : Bool :=
  (s.mbox m.val).busy && !s.starter.stopped && (s.reqCode m.val == g.code) &&
    (s.refuses g m.val (len s m.val) (fails s m.val)).isNone && s.pair.detach.isNone && s.mem.wf

/-- What `takes` shows is the hypothesis of the statements. -/
theorem takes_accepts {m : Fin 64} {g : Gate} {len : State → Nat → Nat} {fails : State → Nat → List Deny} {s : State}
    (h : takes m g len fails s = true) : s.pair.detach = none ∧ s.accepts g m (len s m.val) (fails s m.val) ∧ s.memOk := by
  simp only [takes, Bool.and_eq_true, Option.isNone_iff_eq_none, beq_iff_eq, Bool.not_eq_true'] at h
  exact ⟨h.1.2, ⟨h.1.1.1.1.1, h.1.1.1.1.2, h.1.1.1.2, h.1.1.2⟩, h.2⟩

def tCreate : State :=
  tAsk (tDev .idle) 0x201 0x58 [(0, 6), (4, 3), (6, 4), (8, 77), (0x10, 0x11000000), (0x18, 64), (0x3C, 0x6000), (0x40, 0x21000000), (0x48, 64)]

/-- The same on a spare that has received the job's record: step 9, lap counter 5. -/
def tSpareCreate : State := { tCreate with spareRecords := [(6, toLe 16 9 ++ toLe 8 5)] }

/-- The same from a generation record at 0x34000000 that holds step 9. -/
def tRestored : State :=
  let s := tDev .idle
  tAsk { s with mem := s.mem ++ [(0x34000000, 9)] } 0x201 0x58
    [(0, 6), (2, 2), (4, 3), (6, 4), (8, 77), (0x10, 0x11000000), (0x18, 64), (0x3C, 0x6000), (0x40, 0x21000000), (0x48, 64), (0x50, 0x34000000)]

theorem witness_AcceptedRequestRuns_jobs :
    takes 56 (gateScf 0x201) (fun _ _ => 0x58) State.jobCreateFails tCreate &&
      takes 56 (gateScf 0x201) (fun _ _ => 0x58) State.jobCreateFails tSpareCreate &&
      takes 56 (gateScf 0x201) (fun _ _ => 0x58) State.jobCreateFails tRestored &&
      takes 56 (gateScf 0x202) (fun _ _ => 2) State.noJob (tAsk (tDev .idle) 0x202 2 [(0, 5)]) &&
      takes 56 (gateScf 0x203) (fun _ _ => 2) (fun s m =>
        s.noJob m ++ deny ((s.job? (s.arg m 0 2)).isSome && !s.isHeld (s.arg m 0 2)) .badState 0)
        (tAsk tHeld 0x203 2 [(0, 5)]) &&
      takes 56 { code := 0x204, auth := [.s, .f] } (fun _ _ => 0x10) (fun s m =>
        s.noJob m ++ deny (decide (64 < s.arg m 2 2)) .badOperand 2 ++ deny (s.arg m 4 4 != 0) .badOperand 4 ++
          deny (s.arg m 2 2 != 0 && !inEdern (s.arg m 8 8) (8 * s.arg m 2 2)) .badOperand 8)
        (tAsk (tDev .idle) 0x204 0x10 [(0, 5)]) &&
      takes 56 (gateScf 0x205) (fun _ _ => 2) State.noJob (tAsk (tDev .idle) 0x205 2 [(0, 5)]) = true := by decide +kernel

def tNewQueue : State := tAsk (tDev .idle) 0x301 0x18 [(0, 40), (2, 5), (8, 0x09000000), (0x10, 64), (0x14, 0x5001), (0x16, 0x5000)]
def tBind (q : QState) : State := tAsk (tDev q) 0x302 0x30 [(0, 33), (8, 1)]
def tResume (q : QState) (mode : Nat) : State := tAsk (tDev q) 0x303 3 [(0, 33), (2, mode)]
def tSreg (op : Nat) : State := tAsk (tDev .idle) 0x304 (if op = 0 then 16 else 8) [(0, 33), (2, op), (3, 63), (4, 1), (8, 99)]
def tDrop : State := tAsk (tDev .halted) 0x305 2 [(0, 33)]
def tBreak (kind : Nat) : State := tAsk (tDev .running) 0xC01 0x10 [(0, 33), (2, 3), (3, kind), (4, 0xFF), (8, 4)]

theorem witness_AcceptedRequestRuns_queues :
    takes 56 (gateScf 0x301) (fun _ _ => 0x18) State.queueCreateFails tNewQueue &&
      ([QState.unbound, .stopped].all fun q => takes 56 (gateScf 0x302) (fun _ _ => 0x30) State.queueBindFails (tBind q)) &&
      ([(QState.stopped, 0), (.stopped, 1), (.halted, 0)].all fun q => takes 56 (gateScf 0x303) (fun _ _ => 3) State.queueResumeFails (tResume q.1 q.2)) &&
      ([0, 1].all fun o => takes 56 (gateScf 0x304) State.sregLen State.queueSregFails (tSreg o)) &&
      takes 56 (gateScf 0x305) (fun _ _ => 2) State.queueDestroyFails tDrop &&
      ([0, 1, 2].all fun k => takes 56 (gateScf 0xC01) (fun _ _ => 0x10) State.debugBreakFails (tBreak k)) = true := by decide +kernel

def tLoadDesc : State := tAsk (tDev .idle) 0x401 0x50 [(0, 5), (2, 1), (4, 63), (0x10, tDesc 0x20030000 4)]
def tPolicy : State := tAsk (tDev .idle) 0x601 0x98 ((0, 5) :: (List.range 8).map fun e => (0x18 + 16 * e, e * stackStride))
def tLeave : State := tAsk tGrouped 0x502 4 [(0, 5), (2, 2)]
def tAssign (j : Nat) : State := tAsk (tDev .idle) 0xA01 4 [(0, 31), (2, j)]
def tPace (p : Nat) : State := tAsk (tDev .idle) 0x801 1 [(0, p)]

theorem witness_AcceptedRequestRuns_device :
    takes 56 (gateScf 0x401) State.descLoadLen State.descLoadFails tLoadDesc &&
      takes 56 (gateScf 0x501) (fun _ _ => 0x20) (fun s m => Join.fails s (Join.read s m))
        (tAsk (tDev .idle) 0x501 0x20 [(0, 5), (2, 2), (4, 2), (5, 1)]) &&
      takes 56 (gateScf 0x502) (fun _ _ => 4) State.groupLeaveFails tLeave &&
      takes 56 (gateScf 0x601) (fun _ _ => 0x98) State.ckptPolicyFails tPolicy &&
      takes 56 { code := 0x701, auth := [.s, .f, .p] } (fun _ _ => 0x88) State.pairModeFails
        (tAsk (tDev .idle) 0x701 0x88 ((List.range 8).map fun e => (8 + 16 * e, e * stackStride))) &&
      takes 56 { code := 0x702, auth := [.s, .f, .p] } (fun _ _ => 0) (fun _ _ => []) (tAsk (tDev .idle) 0x702 0 []) &&
      takes 56 { code := 0x801, auth := [.s, .f] } (fun _ _ => 1) State.paceFails (tPace 2) &&
      takes 56 { code := 0x901, auth := [.s, .c, .f, .p], early := true } (fun _ _ => 0xA) State.telemetryFails
        (tAsk (tDev .idle) 0x901 0xA [(0, 0x18), (8, 1)]) &&
      takes 56 { code := 0x903, auth := [.s, .f] } (fun _ _ => 0x10) State.tuneFails
        (tAsk (tDev .idle) 0x903 0x10 [(0, 0x18), (8, 16)]) &&
      ([5, 0xFFFF].all fun j => takes 56 (gateScf 0xA01) (fun _ _ => 4) State.assignFails (tAssign j)) &&
      takes 56 { code := 0xB02, auth := [.s, .c, .f, .p], unowned := true, early := true } (fun _ _ => 0x41)
        (fun s m => deny (decide (1 < s.arg m 0x40 1)) .badOperand 0x40) (tAsk (tDev .idle) 0xB02 0x41 []) &&
      takes 3 { code := 0x104, auth := [.s], unowned := true, early := true } (fun _ _ => 0) (fun s m =>
        deny (!s.sessionIs m fun x => x.state == .opened || x.state == .claim) .badState 0) (tAskAt 3 tOwned 0x104 0 []) = true := by
  decide +kernel

theorem sum_map_le {α : Type} (f : α → Nat) (b : Nat) (h : ∀ x, f x ≤ b) : ∀ l : List α, (l.map f).sum ≤ l.length * b
  | [] => by simp
  | x :: l => by
    have h1 := sum_map_le f b h l
    have h2 := h x
    simp only [List.map_cons, List.sum_cons, List.length_cons, Nat.add_mul, Nat.one_mul]
    omega

theorem photoBytes_le : State.photoBytes ≤ 2 ^ 28 := by
  have h := sum_map_le (fun u => 16 + State.inboundBytes u + 8 * State.counterCount u.1) 262224 (fun u => by
    have h1 : State.inboundOf u < 2 ^ 16 := Nat.mod_lt _ (by decide)
    have h2 : State.counterCount u.1 ≤ 6 := by cases u.1 <;> decide
    have h3 : State.inboundBytes u ≤ 4 * State.inboundOf u + 7 := by
      unfold State.inboundBytes ceilDiv; omega
    omega) State.photoUnits
  rw [show State.photoUnits.length = 951 from by decide +kernel] at h
  unfold State.photoBytes
  omega

def tPhoto : State := tAsk (tDev .idle) 0x902 0x10 [(0, 0x40000000), (8, 2 ^ 28)]

theorem witness_AcceptedRequestRuns_photo : takes 56 (gateScf 0x902) (fun _ _ => 0x10) State.photoFails tPhoto = true := by
  have h : (decide (tPhoto.arg 56 8 8 < State.photoBytes)) = false := by
    rw [show tPhoto.arg 56 8 8 = 2 ^ 28 from by decide +kernel]
    simpa using photoBytes_le
  unfold takes State.photoFails
  simp only [show (56 : Fin 64).val = 56 from rfl, h]
  decide +kernel

/-- An image of Aimucor of 512 bytes at 0x40000000, its header as R514 gives it. -/
def tImage : State :=
  let s := tAsk (tDev .idle) 0xB01 0x18 [(8, 0x40000000), (16, 512)]
  s.store 0x40000000 (toLe 4 0x4D494B4E)

/-- Where its digest and signature hold. -/
theorem witness_AcceptedRequestRuns_fwUpdate
    (h : State.Image.signed tImage.starter.owners (tImage.argImage 56) = true) :
    takes 56 { code := 0xB01, auth := [.s, .f] } (fun _ _ => 0x18) State.fwUpdateFails tImage = true := by
  unfold takes State.fwUpdateFails
  simp only [show (56 : Fin 64).val = 56 from rfl, h]
  decide +kernel

/-- session.enrol of a kind. -/
def tEnrol (kind n : Nat) (fs : List (Nat × Nat)) : State := tAskAt 3 tOwned 0x103 (8 + n) ((0, kind) :: fs)

def tGate : Gate := { code := 0x103, auth := [.s], unowned := true, early := true }

theorem witness_EnrolKindsRun :
    (List.range 9).all fun k =>
      let s := tEnrol k 17 []
      s.sessionAt 3 == some tSession && tSession.state == .opened && s.arg 3 0 1 == k && s.arg 3 1 7 == 0 := by decide +kernel

theorem witness_EnrolKindsRun_accepts :
    takes 3 tGate (fun _ _ => 8 + keyLen) State.ownerAddFails (tEnrol 0 keyLen [(8, 3)]) &&
      takes 3 tGate (fun _ _ => 25) State.regionAddFails (tEnrol 2 17 [(8, 0x32000000), (16, 256), (24, 3)]) &&
      takes 3 tGate (fun _ _ => 12) State.regionRemoveFails (tEnrol 3 4 [(8, 8)]) &&
      takes 3 tGate (fun _ _ => 46) State.qpConnectFails (tEnrol 4 38 [(34, 0x33000000), (42, 64)]) &&
      takes 3 tGate (fun _ _ => 11) State.qpDestroyFails (tEnrol 5 3 [(8, 2)]) &&
      takes 3 tGate (fun _ _ => 10) State.subscribeFails (tEnrol 6 2 [(8, 0x5000)]) &&
      takes 3 tGate (fun _ _ => 10) State.unsubscribeFails (tEnrol 7 2 [(8, 0x5001)]) &&
      takes 3 tGate (fun _ _ => 28) State.netPortFails (tEnrol 8 20 [(8, 7), (18, 32)]) = true := by decide +kernel

theorem witness_EnrolKindsRun_revoke (h : ownerKeyId (List.replicate 133 2) = 4) :
    takes 3 tGate (fun _ _ => 16) State.ownerRevokeFails (tEnrol 1 8 [(8, 4)]) = true := by
  have h1 : ((tEnrol 1 8 [(8, 4)]).starter.owners.any fun k => ownerKeyId k == (tEnrol 1 8 [(8, 4)]).argKeyId 3) = true := by
    rw [show (tEnrol 1 8 [(8, 4)]).starter.owners = [List.replicate 133 1, List.replicate 133 2] from by decide +kernel,
      show (tEnrol 1 8 [(8, 4)]).argKeyId 3 = 4 from by decide +kernel]
    simp only [List.any_cons, h]
    simp
  unfold takes State.ownerRevokeFails
  simp only [show (3 : Fin 64).val = 3 from rfl, h1]
  decide +kernel

theorem witness_Enrolments_effect :
    (let s := tEnrol 2 17 [(8, 0x32000000), (16, 256), (24, 3)]
     s.session? tSession.id == some tSession && decide (3 < s.mailboxes.length) && decide (s.rdmaKeys.length < 2 ^ 16) &&
       s.eth.length == 8 && s.arg 3 0 1 == 2 && tSession.state == .opened) = true := by decide +kernel

/-- Region 8 is there; a new one joins it under another key (R497, R509). -/
theorem test_region_add :
    (nextOf (exec (.regionAdd 3) (tEnrol 2 17 [(8, 0x32000000), (16, 256), (24, 1)]))).bind (fun t => (t.session? 0x99).map fun x =>
      x.regions.map fun r => (r.base, r.len, r.read, r.write)) =
      some [(0x30000000, 4096, true, true), (0x32000000, 256, true, false)] := by decide +kernel

theorem witness_AcceptedRequestRuns_effect :
    (let s := tAsk (tDev .idle) 0x205 2 [(0, 5)]
     s.mem.wf && decide (56 < s.mailboxes.length) && s.early.isEmpty && (s.job? (s.arg 56 0 2)).any (fun j => j.phase == .running)) &&
      (let s := tAsk (tDev .idle) 0x701 0x88 ((List.range 8).map fun e => (8 + 16 * e, e * stackStride))
       PairMode.ofCode (s.arg 56 0 1) == some .shadow && !s.pair.joined) &&
      ({ tDev .idle with pair := { (tDev .idle).pair with joined := true, twin := some .shadow } } : State).pair.joined &&
      tPhoto.telem.running.isNone && decide (0 < tPhoto.judges.length) && decide (0 < tPhoto.edern.length) &&
      decide (0 < tPhoto.tracks.length) && bitAt 0 0 == false && bitAt 1 0 &&
      tOwned.sessionAt 3 == some tSession && (tOwned.session? 0x99 == some tSession) = true := by decide +kernel

theorem witness_RefusedRequestIsAnswered :
    (let s := tAsk (tDev .idle) 0x502 4 [(0, 5), (2, 9)]
     (s.mbox 56).busy && !s.starter.stopped && s.reqCode 56 == 0x502 && s.reqLen 56 == 4 && s.dev == .ready &&
       s.groupLeaveFails 56 == [(.noSuch, 2)]) &&
      (let s := tAsk (tDev .idle) 0x502 3 []
       s.reqLen 56 != 4) &&
      (let s := tAsk { tDev .idle with dev := .osBoot } 0x502 4 []
       s.reqLen 56 == 4 && decide (s.dev.code < DevState.ready.code)) &&
      (let s := tAsk (tDev .idle) 0xFFF 4 []
       (s.mbox 56).busy && !s.starter.stopped && !commandCodes.contains (s.reqCode 56)) = true := by decide +kernel

/-- Of two failed checks the one with the lower status code is answered (R470): BAD_OPERAND before NO_SUCH. -/
theorem test_worst_check_is_answered :
    (nextOf (exec (.groupLeave 56) (tAsk (tDev .idle) 0x502 4 [(0, 7), (2, 9)]))).map
        (fun t => ((t.mbox 56).result, (t.mbox 56).busy, (t.mbox 56).done)) = some (Status.noSuch.code, false, true) ∧
      (nextOf (exec (.queueResume 56) (tAsk (tDev .idle) 0x303 3 [(0, 33), (2, 2)]))).map
        (fun t => (t.mbox 56).result) = some Status.badOperand.code := by decide +kernel

theorem witness_ResponseIsWritten : tCreate.memOk ∧ ((56 : Fin 64).val < tCreate.mailboxes.length) := by
  unfold State.memOk; decide +kernel

theorem witness_MailboxDoorbellIsAccepted :
    let s := State.reset
    (17 : Fin 64).val < s.mailboxes.length ∧ s.refusal .starter true (State.mboxArea 17 + 0x1000) 8 = none ∧
      (s.mbox 17).busy = false ∧ ((tAskAt 17 s 0x205 2 []).mbox 17).busy = true := by decide +kernel

theorem witness_JobCreateMakesTheJob :
    (tCreate.arg 56 2 1).testBit 1 = false ∧ (tRestored.arg 56 2 1).testBit 1 = true := by decide +kernel

theorem test_job_create :
    (nextOf (exec (.jobCreate 56) tRestored)).bind (fun t => (t.job? 6).map fun j => (j.step, j.lap, j.seed.toNat)) =
      some (9, 3, 77) ∧
    (nextOf (exec (.jobCreate 56) tSpareCreate)).bind (fun t => (t.job? 6).map fun j => (j.step, j.lap, j.seed.toNat)) =
      some (9, 5, 77) := by decide +kernel

/-- A restored job with the committed state of queue 40 in its record. -/
def tRejoined : State :=
  let s := tDev .idle
  tAsk { s with jobs := [{ tJob with restoreQueues := [(40, { tCommitted with position := 12 })] }] } 0x301 0x18
    [(0, 40), (2, 5), (8, 0x09000000), (0x10, 64), (0x14, 0x5001), (0x16, 0x5000)]

theorem witness_QueueCreateMakesTheQueue :
    takes 56 (gateScf 0x301) (fun _ _ => 0x18) State.queueCreateFails tRejoined && tNewQueue.arg 56 4 1 == 0 &&
      ((tNewQueue.job? 5).any fun j => (j.restoreQueues.find? fun e => e.1 == 40).isNone) &&
      (tRejoined.job? 5).any (fun j => (j.restoreQueues.find? fun e => e.1 == 40).isSome) = true := by decide +kernel

theorem witness_QueueCommandsChangeTheirQueue :
    (tBind .idle).arg 56 0x18 8 = 0 ∧ (tBind .idle).queue? ((tBind .idle).arg 56 0 2) = some { tQueue with state := .idle } ∧
      (tResume .stopped 0).arg 56 2 1 = 0 ∧ (tResume .stopped 1).arg 56 2 1 = 1 ∧ tQueue.status ≠ Status.break_.code ∧
      (tSreg 0).arg 56 2 1 = 0 ∧ (tSreg 1).arg 56 2 1 = 1 ∧ tQueue.sregs.length = 64 := by decide +kernel

/-- A queue that a debug break halted. -/
def tBroken : State :=
  tAsk { tDev .halted with queues := [{ tQueue with state := .halted, status := Status.break_.code }] } 0x303 3 [(0, 33)]

theorem witness_QueueCommandsChangeTheirQueue_break :
    takes 56 (gateScf 0x303) (fun _ _ => 3) State.queueResumeFails tBroken = true := by decide +kernel

/-- queue.sreg writes register 63 (R476). -/
theorem test_queue_sreg :
    (nextOf (exec (.queueSreg 56) (tSreg 0))).bind (fun t => (t.queue? 33).map fun q => (q.sregs[62]?, q.sregs[63]?)) =
      some (some 7, some 99) := by decide +kernel

theorem witness_JobAndDeviceCommands :
    takes 56 (gateScf 0x203) (fun _ _ => 2) (fun _ _ => []) (tAsk tHeld 0x203 2 [(0, 5)]) &&
      takes 56 { code := 0x204, auth := [.s, .f] } (fun _ _ => 0x10) (fun _ _ => []) (tAsk (tDev .idle) 0x204 0x10 [(0, 5)]) &&
      (tHeld.job? 5).any (fun j => j.phase == .held 1) && decide ((tAssign 5).arg 56 0 1 < (tAssign 5).cores.length) &&
      (tLoadDesc.job? 5).isSome && (tPolicy.job? 5).isSome = true := by decide +kernel

theorem witness_PaceSetRequestsAPace :
    takes 56 { code := 0x801, auth := [.s, .f] } (fun _ _ => 1) (fun _ _ => []) (tPace 2) &&
      takes 56 { code := 0x801, auth := [.s, .f] } (fun _ _ => 1) (fun _ _ => []) (tPace 1) &&
      Pace.ofCode ((tPace 2).arg 56 0 1) == some .sprint && !(tPace 2).paceWaits 56 && (tPace 1).pace.inForce == .nominal &&
      !(tPace 1).pace.ramping &&
      (let s := tAsk { tDev .idle with pace := { State.reset.pace with ramping := true } } 0x801 1 [(0, 2)]
       takes 56 { code := 0x801, auth := [.s, .f] } (fun _ _ => 1) (fun _ _ => []) s && !s.paceWaits 56 && s.pace.ramping) =
    true := by decide +kernel

/-! ### Memory, registers and stacks -/

/-- A store, and reads of lines that are clean, poisoned, and refused. -/
def tPlain : State := { State.reset with mem := [(0x1000, 7), (0x1008, 0x80)], poisoned := [0x2000] }

theorem witness_StoreChangesItsBytesOnly : tPlain.memOk := by unfold State.memOk; decide +kernel

theorem witness_LineReadCorrectsOrFaults :
    isEdern 0x1000 && (tPlain.refusal .starter false 0x1000 1).isNone && !tPlain.poisoned.contains (0x1000 / 256 * 256) &&
      (tPlain.stack (State.stackOf 0x1000)).markedDie.isNone && (tPlain.stack (State.stackOf 0x1000)).corrected.isEmpty &&
      decide (State.stackOf 0x1000 < tPlain.edern.length) && isEdern 0x2010 && (tPlain.refusal .starter false 0x2010 1).isNone &&
      tPlain.poisoned.contains (0x2010 / 256 * 256) = true := by decide +kernel

/-- Up to 8 symbols in error are corrected, and the codeword is counted (R270, R271). -/
theorem test_line_read_corrects :
    (nextOf (exec (.lineRead .starter 0x1000 { first := [0, 1, 2, 3, 4, 5, 6, 143], second := [] }) tPlain)).map
        (fun t => (t.reply.take 9, (t.stack 0).eccCe)) = some ([7, 0, 0, 0, 0, 0, 0, 0, 0x80], 1) := by decide +kernel

theorem witness_LineWriteStoresItsBytes :
    (tPlain.refusal (.heat 0) true 0x10FF 1).isNone && !tPlain.poisoned.contains (0x10FF / 256 * 256) &&
      (tPlain.refusal (.heat 0) true 0x2000 256).isNone && (tPlain.refusal (.external 1) true 0x1000 8 == some .noperm) = true := by
  decide +kernel

theorem witness_StackAmoIsReadModifyWrite :
    isEdern 0x1008 && !tPlain.poisonIn 0x1008 8 && !tPlain.poisonIn 0x1000 4 = true := by decide +kernel

/-- A signed minimum compares the words as signed integers (R268). -/
theorem test_stack_amo_min :
    (nextOf (exec (.stackAmo 0x1008 .min false 0xFFFFFFFF) tPlain)).map (fun t => (t.read 0x1008 4, t.reply)) =
      some (0xFFFFFFFF, [0x80, 0, 0, 0]) := by decide +kernel

theorem witness_PatrolAndRefresh :
    (let s : State := { tPlain with power := { tPlain.power with tested := true } }
     s.power.tested && Patrol.due (s.stack 3) s.now && !s.physPoisoned (3 * stackStride + (s.stack 3).patrolPos) &&
       decide ((s.stack 3).patrolPos / 256 + 1 < Patrol.lines)) && !tPlain.power.tested = true := by decide +kernel

/-- REFRESH of tensor 0 of the job, by stack 0. -/
def tInv (chain : Option (Nat × Nat)) : Invocation :=
  { stack := 0, prog := .builtin 5, streams := [0xFFFFFF, 0, 0xFFFFFF, 0xFFFFFF, 0xFFFFFF, 0xFFFFFF], params := 0x40000000, u0 := 0
    u1 := 1, job := 5, chain := chain }

def tUpdState : State := tState 0 [tDesc 0x20010000 4]

/-- A bucket in its UPDATE entry, of a chain of the job's group. -/
def tChain (x : Bucket) : Chain :=
  { id := 1, job := 5, group := 2, addr := 0x41000000, word := 0, queue := 33, seq0 := 0, staging := 0, sstride := 0, statusBase := 0
    nb := 1, ranges := [(0, 1024)], entries := [.update (.builtin 5) [noHandle, 0, noHandle, noHandle, noHandle] 0x40000000]
    buckets := [x], verdict := {}, total := none, skipped := false, armedAt := 0, status := .ok }

def tUpdChain (st : BucketStage) : State :=
  { tUpdState with groups := [tGroup], chains := [tChain { seq := 0, stage := st }] }

/-- A bucket of one unit in its UPDATE, after its REDUCE_SCATTER, in a torus of one member: the piece is the bucket. -/
def tUpdOwn : State :=
  { tUpdState with
    groups := [{ tGroup with geometry := .torus, ports := [], ext := [1, 1, 1], m := 1, mDecl := 1, serials := [1] }]
    chains := [{ tChain { seq := 0, entry := 1, stage := .update } with
      ranges := [(0, 1024), (0, 1024)]
      entries := [.reduceScatter 0 false 0 noHandle, .update (.builtin 5) [0, noHandle, noHandle, noHandle, noHandle] 0x40000000] }] }

theorem witness_UpdateInvocationRuns :
    tUpdState.job? 5 == some tJob && tJob.phase == .running && !tJob.skipping && !tUpdState.unfit && tUpdState.early.isEmpty &&
      (worst (Update.progFails tUpdState tJob 0 (tInv none).prog ((tInv none).streams.map BitVec.toNat) 0x40000000 0 1)).isNone &&
      (match Update.apply tUpdState tJob 0 (tInv none).prog ((tInv none).streams.map BitVec.toNat) 0x40000000 0 1 with
       | .ok s => (s.stack 0).invocations == 1
       | _ => false) &&
      (worst (Update.progFails tUpdState tJob 0 (.builtin 6) ((tInv none).streams.map BitVec.toNat) 0x40000000 0 1) ==
        some (.badOperand, none)) = true := by decide +kernel

theorem witness_UpdateInvocationRuns_runs :
    tUpdState.poisoned.isEmpty && (let hs := (tInv none).streams.map BitVec.toNat
      decide ((tInv none).u1 ≤ Update.unitsOf (Update.used (Update.find tUpdState tJob 0 (tInv none).prog hs).1
        (Update.tensors tUpdState tJob hs)))) = true := by decide +kernel

theorem witness_UpdateInvocationRuns_chain :
    ((tUpdChain .reduce).spot? 1 0).any (fun x => x.x.stage != .update) &&
      (tUpdOwn.spot? 1 0).any (fun x => x.x.stage == .update && State.issues x (tInv (some (1, 0))) &&
        !tUpdOwn.waitsForEarlier x 0 && !State.issues x { tInv (some (1, 0)) with u1 := 2 }) &&
      ((tUpdOwn.invoke (tInv (some (1, 0)))).spot? 1 0).isSome = true := by decide +kernel

/-- A generation of step 3 of a job whose checkpoint set is one granule of stack 0. -/
def tGen (streamed : List Nat) : Gen :=
  { step := 3, record := [], map := [], cells := [(0x40000000, 9)], committed := [], seqs := [], lap := 2, warm := true, state := .frozen
    streamed := streamed, lostLocal := false }

def tGenState (g : Gen) (p : JobPhase) : State :=
  let s := tDev .frozen
  let up (x : Port) : Port := { x with state := .up }
  { s with
    jobs := [{ tJob with gens := [g], ranges := [⟨0x40000000, 0x10000⟩], phase := p, restart := { tJob.restart with restorePoint := some 3 } }]
    pair := { s.pair with mode := .shadow, joined := true }, ports := s.ports.modify 6 up }

theorem witness_GenerationReachesTheTwin :
    (let s := tGenState (tGen []) .running
     s.shadowing && (s.job? 5).any (fun j => State.toStream j 0 == some (tGen []) && (tGen []).poisoned.isEmpty)) &&
      (let s := tGenState (tGen [0, 1, 2, 3, 4, 5, 6, 7]) .running
       (s.job? 5).any fun j => j.gens.contains (tGen [0, 1, 2, 3, 4, 5, 6, 7]) && (tGen []).state == .frozen && !(tGen []).lostLocal) &&
      (let g := { tGen [0, 1, 2, 3, 4, 5, 6, 7] with sent := [recordAddr] }
       !g.streamed.contains streamRefused && g.sent.contains recordAddr && (List.range 8).all g.streamed.contains) =
    true := by decide +kernel

theorem witness_LocalRestoreBringsTheGenerationBack :
    (let s := tGenState (tGen []) .restarting
     s.mem.wf && Memory.wf (tGen []).cells && (s.job? 5).any fun j =>
       State.localGen? j 3 == some (tGen []) && j.phase == .restarting && j.restart.restorePoint == some 3 && !j.restart.restored) =
    true := by decide +kernel

/-- LOCAL_RESTORE brings the byte of the generation back (R302). -/
theorem test_local_restore :
    (nextOf (exec (.localRestore 5 3) (tGenState (tGen []) .restarting))).map
      (fun t => (t.byte 0x40000000, (t.job? 5).map fun j => (j.step, j.lap))) = some (9, some (3, 2)) := by decide +kernel

/-- A Judge's rate takes 10 to 16 and ignores 9 and 17 (R383). -/
theorem test_judge_rate :
    [9, 10, 16, 17].map (fun v => (nextOf (exec (.registerWrite .starter (csrBase + 0x18 * 0x100_0000) (toLe 8 v)) State.reset)).map
      fun t => (t.judges.getD 0 {}).rate) = [some 10, some 10, some 16, some 10] := by decide +kernel

theorem witness_ControlBitsAndDebugAccess :
    (let s := State.reset
     s.unitMap.state[50]? == some .spare && s.unitMap.state[0]? == some .active && decide (s.ports.length = 7) &&
       decide (s.cores.length = 32) && !(s.port 0).enable && s.jobs.isEmpty && (s.port 0).state == .off) &&
      ((State.setPort State.reset 0 { state := .up, enable := true }).port 0).state == .up &&
      (let m := UnitMap.firstPowerUp
       { m with state := m.state.set 50 .retired }.state[50]? == some .retired) = true := by decide +kernel

/-- Every root of the generator is a root of a codeword, here a short one, and of no word with one symbol changed (R269, R309). -/
theorem test_codes :
    ([Rs.line, Rs.partner].all fun c =>
       let w := c.codeword [7, 0, 200]
       c.holds w && w.length == 3 + c.check && !c.holds (w.set 1 1)) = true := by decide +kernel

/-- The codewords of a line hold its bytes as they are (R269). -/
theorem test_line_data (bs : List Nat) (h : bs.length = 256) : Ecc.dataOf (Ecc.codewords bs) = bs := Ecc.dataOf_codewords h

/-! ### Reset, power, clocks and service ports -/

/-- A device that is running after power-up, with the crystal locked. -/
def tUp : State :=
  let s := State.reset
  { s with
    dev := .ready, now := 5000000000, pacer := { s.pacer with state := 1, crystal := true }
    power := { s.power with image := true, tested := true, pairing := true, links := true } }

theorem witness_ResetHoldsTheDevice :
    tUp.mem.wf && tUp.inputs.resetN && !tUp.power.held && (tUp.inputs.chatter.getD 0 (0, 0)).1 != 10000 &&
      !({ tUp.inputs with resetN := false } : Inputs).resetN = true := by decide +kernel

def tHeldReset (stopped : Bool) : State :=
  { tUp with power := { tUp.power with held := true }, starter := { tUp.starter with stopped := stopped } }

set_option maxRecDepth 20000 in
theorem witness_ResetReleaseStartsTheDevice :
    [true, false].all (fun b =>
      let s := tHeldReset b
      s.power.held && s.power.good && s.inputs.resetN && !s.extestHolds && s.starter.stopped == b &&
        s.mapCopies.any fun c => crc32c (State.mapBytes c.map) == c.crc) && !tUp.power.held = true := by
  decide +kernel

def tBadCopy : State :=
  { tHeldReset false with mapCopies := [{ State.mapCopy .firstPowerUp with crc := 0 }, State.mapCopy .firstPowerUp] }

set_option maxRecDepth 20000 in
/-- A copy that fails its CRC raises BOOTSTORE, and the other is loaded (R28, R462). -/
theorem test_bad_map_copy :
    (nextOf (exec (.resetRelease { pairSide := false, ethSpeed := false, siteId := 0 }) tBadCopy)).map (fun t =>
      (t.starter.nmi, t.unitMap == .firstPowerUp, t.faultsEver - tBadCopy.faultsEver)) = some (16, true, 1) := by decide +kernel

set_option maxRecDepth 20000 in
/-- The copies at first power-up hold the map with the CRC-32C of their bytes (R24). -/
theorem test_first_map : State.reset.mapCopies = [State.mapCopy .firstPowerUp, State.mapCopy .firstPowerUp] := by decide +kernel

theorem witness_WatchdogResetsAtTwiceTheLimit :
    ([10000000, 10000001, 20000000].all fun n =>
        let s := { tUp with now := n }
        (decide (s.now - s.starter.kickedAt ≤ 10000000) || !s.starter.nmi.getLsbD 3) && decide (s.now - s.starter.kickedAt ≤ 20000000)) &&
      decide (2 * tUp.starter.wdogLimit.toNat < tUp.now - tUp.starter.kickedAt) = true := by decide +kernel

/-- Twice the limit is not above twice the limit (R464). -/
theorem test_watchdog_bounds :
    [10000000, 20000000, 20000001].map (fun n =>
      (nextOf (exec .starterWatchdog { tUp with now := n })).map fun t => (t.power.held, t.starter.nmi.getLsbD 3)) =
      [some (false, false), some (false, true), some (true, false)] := by decide +kernel

theorem witness_SupplyFollowsTheInput :
    tUp.power.vin && tUp.power.good && tUp.power.rails && !tUp.power.held = true := by decide +kernel

def tAlert (n own : Bool) : State := { tUp with inputs := { tUp.inputs with alertN := n, drive := own } }

theorem witness_BoardInputsAreNoted :
    !tUp.power.held && tUp.inputs.pairPresent == false && (tAlert true false).inputs.alertN && !(tAlert true false).inputs.drive &&
      !(tAlert true false).inputs.masked && (tAlert true true).inputs.drive && !(tAlert false false).inputs.alertN &&
      (tAlert true false).inputs.releasedAt.isNone &&
      (let i := { tUp.inputs with releasedAt := some 4999999900 }
       i.releasedAt == some 4999999900 && decide (100 ≤ tUp.now - 4999999900) && i.alertN) = true := by decide +kernel

theorem witness_SmbusReadsAnswer : tUp.power.good && !tUp.inputs.drive && (tAlert true true).inputs.drive = true := by decide +kernel

theorem witness_TestAccessPort : State.tapListed 0x37 = false := by decide +kernel

def tPacer (st good first bad : Nat) : State :=
  { tUp with pacer := { tUp.pacer with state := st, goodRun := good, first := first, bad := bad, crystal := decide (st = 1) } }

theorem witness_PacerJudgesTheCrystal :
    (tPacer 0 3 65536 0).pacer.goodRun == 3 && (tPacer 0 2 65536 0).pacer.state == 0 && (tPacer 1 4 65536 0).pacer.state == 1 &&
      (tPacer 1 4 65536 0).early.isEmpty && !(tPacer 1 4 65536 0).power.held = true := by decide +kernel

/-- 131 and 1,310 counts are within the tolerances of R519 and R521, 132 and 1,311 are not. -/
theorem test_pacer_bounds :
    [(3, 65536 + 131), (3, 65536 + 132)].map (fun r =>
        (nextOf (exec (.pacerWindow r.2) (tPacer 0 r.1 65536 0))).map fun t => t.pacer.state) = [some 1, some 0] ∧
      [65536 + 1310, 65536 + 1311, 65536 - 1311].map (fun n =>
        (nextOf (exec (.pacerWindow n) (tPacer 1 4 65536 0))).map fun t => t.pacer.bad) = [some 0, some 1, some 1] := by
  decide +kernel

theorem witness_CrystalLossIsReported :
    let s := tPacer 1 4 65536 1
    !s.power.held && s.pacer.state == 1 && s.pacer.bad != 0 && s.jobs.isEmpty && s.early.isEmpty && s.sessions.isEmpty && s.poisoned.isEmpty &&
      s.ports.all (fun p => p.state == .off) && s.eth.all (fun e => !e.up) = true := by decide +kernel

theorem witness_OscillatorFailures :
    !tUp.pacer.intFault && tUp.jobs.isEmpty && tUp.poisoned.isEmpty && (tPacer 0 0 0 0).pacer.state == 0 && !(tPacer 0 0 0 0).pacer.lateNoted &&
      decide (10000000 < (tPacer 0 0 0 0).now) && (tUp.pacer.state != 0) = true := by decide +kernel

def tPaceState (p : PaceCtl) : State := { tUp with pace := p }

theorem witness_PacesFollowRequestAndHeat :
    (let p : PaceCtl := { ramping := true }
     p.ramping && p.waiting.isNone && p.later.isEmpty) &&
      (let p : PaceCtl := { hot := true }
       p.hot && decide (1000000 < tUp.now - p.movedAt)) &&
      (let p : PaceCtl := { coolSince := some 0, limit := .frugal }
       decide (100000000 < tUp.now - 0) && decide (p.limit.code < p.requested.code)) &&
      (tPaceState {}).pace.coolSince.isNone && !(tPaceState {}).pace.hot && !(tPaceState {}).pace.ramping = true := by decide +kernel

theorem witness_SensorsSetTemperaturesOrTrip :
    SensorReading.wf (tReading 70) && SensorReading.wf (tReading 111) && !tUp.power.held && tUp.early.isEmpty && tUp.jobs.isEmpty &&
      tUp.power.thermTripN && ((tReading 70).dram.all fun d => decide (d ≤ 105)) &&
      ((tReading 70).optics.all fun d => decide (d ≤ 95)) = true := by decide +kernel

/-- Only the stack above 85 °C refreshes at half the interval (R274). -/
theorem test_refresh_halved :
    (nextOf (exec (.sensorReading (tReading 70)) tUp)).map (fun t => (t.temps.dram, t.edern.map Edern.refreshHalved)) =
      some (86, [false, false, true, false, false, false, false, false]) := by decide +kernel

def tBoot (d : DevState) (p : Power) (core : CoreState) : State :=
  { tUp with
    dev := d, power := p, cores := tUp.cores.map fun c => { c with state := core }
    ports := tUp.ports.map fun x => { x with everUp := true } }

theorem witness_BringUpEvents :
    ((tBoot .reset {} .off).power.held == false && (tBoot .reset {} .off).power.image == false) &&
      (let s := tBoot .pairing { image := true, tested := true } .off
       s.power.tested && !s.power.pairing && !s.inputs.pairPresent && !s.power.links) &&
      (let s := tBoot .links { image := true, tested := true, pairing := true } .off
       s.power.tested && !s.power.links && s.power.pairing && (List.range 6).all fun p => (s.port p).everUp) &&
      (tBoot .addressing {} .off).eth.all (fun e => !e.up) && (tBoot .osBoot {} .off).cores.all (fun c => c.state == .off) &&
      decide (3 ∉ (tBoot .osBoot {} .off).retiredCores) && ({ tUp with retiredCores := [3] } : State).retiredCores.contains 3 &&
      (let s := tBoot .osBoot {} .running
       s.pacer.crystal && !s.starter.trialBoot && s.cores.any (fun c => c.state != .off)) &&
      !({ tUp with pacer := {} } : State).pacer.crystal = true := by decide +kernel

theorem witness_SelfTestAndTrial :
    (let s := tBoot .selftest { image := true } .off
     s.mem.wf && !s.power.held && s.power.image && !s.power.tested && Temps.released s.temps && decide (s.ports.length = 7)) &&
      tUp.power.tested &&
      (let s : State := { tBoot .osBoot {} .off with starter := { tUp.starter with trialBoot := true } }
       s.starter.trialBoot && !s.power.held && decide (s.dev.code < DevState.ready.code) && decide (4500000000 < s.now)) = true := by
  decide +kernel

/-! ### The Relay link, packets and the pair -/

/-- A device whose port p is as given. -/
def tPort (p : Nat) (x : Port) : State := { tUp with ports := tUp.ports.set p x }

def tLink : Port := { state := .up, credits := [32768, 32768, 32768, 32768] }

/-- Symbols 0 to 16 of the codeword of flit 0 in error: one more than the code corrects. -/
def tLost : List (List Nat) := [List.range 17]

theorem witness_FlitIsJudged :
    ((tFlit 0 0 0 0xFFF).wf 0 && ((tPort 0 tLink).port 0).state == .up && (tFlit 0 0 0 0xFFF).wf 0 &&
       ({ tFlit 0 0 0 0xFFF with errors := tLost } : Flit).wf 0 &&
       !((State.wordsOf tLink 0 { tFlit 0 0 0 0xFFF with errors := tLost }).all fun w => w.corrects 0) &&
       ((State.wordsOf tLink 0 { tFlit 0 0 0 0xFFF with errors := [List.range 16] }).all fun w => w.corrects 0) &&
       (Rx.flit tLink (tFlit 0 0 0 5).control (tFlit 0 0 0 5).payload).first.getD 0xFFF != 5 &&
       ((tFlit 0 0 0 0xFFF).control >>> 61).toNat == 0 &&
       (Rx.flit tLink (tFlit 0 0 0 0xFFF).control (tFlit 0 0 0 0xFFF).payload).first.getD 0xFFF == 0xFFF &&
       (let x := { tLink with txNext := 3 }
        let a := ((tFlit 1 0 3 0xFFF).control >>> 37).toNat % 4096
        ((tFlit 1 0 3 0xFFF).control >>> 61).toNat == 1 && decide (0 < (a + 4096 - x.oldest) % 4096) &&
          decide ((a + 4096 - x.oldest) % 4096 ≤ (x.txNext + 4096 - x.oldest) % 4096))) = true := by decide +kernel

set_option maxRecDepth 20000 in
/-- A flit with a codeword that failed is answered with a NAK of the next expected number, and the codeword is counted
(R309, R314, R316). -/
theorem test_bad_flit_is_refused :
    (nextOf (exec (.flitReceived 0 { tFlit 0 0 0 0xFFF with errors := tLost }) (tPort 0 { tLink with rxNext := 9 }))).map
      (fun t => (t.out.map fun o => match o with
          | .flit 0 f false => (Ctl.ftype f.control, Ctl.ack f.control)
          | _ => (9, 9),
        (t.port 0).rxNext, (t.port 0).fecUe)) = some ([(2, 9)], 9, 1) := by decide +kernel

theorem witness_ReplayAndAckReturn :
    ((let x := { tLink with txNext := 2, sentAt := [0, 0] }
      decide (x.oldest ≠ x.txNext) && decide (2000 < tUp.now - x.sentAt.headD tUp.now) && decide (x.replays < 8)) && tLink.oldest == tLink.txNext &&
      decide (tLink.rxNext < 4096) && decide (tLink.txNext < 4096)) = true := by decide +kernel

theorem witness_RetrainEndsUpOrDown :
    ((let x : Port := { tLink with state := .retrain, retrainAt := 4999500000 }
      ((tPort 0 x).port 0).state == .retrain && decide ((tPort 0 x).now - ((tPort 0 x).port 0).retrainAt ≤ 500000)) &&
       (let x : Port := { tLink with state := .retrain }
        decide (500000 < (tPort 0 x).now - ((tPort 0 x).port 0).retrainAt))) = true := by decide +kernel

/-- Its flits carry the CRC that R315 asks for. -/
theorem witness_FlitIsJudged_crc (type seq ack first : Nat) :
    (tFlit type seq ack first).crc = crc32c (toLe 8 (tFlit type seq ack first).control.toNat ++ (tFlit type seq ack first).payload) := rfl

def tHelloMsg (side : Bool) : HelloMsg := { tUp.ownHello 0 with pairSide := side }

theorem witness_PortBringUp :
    ((let x : Port := { state := .training, enable := true }
      x.state == .training && !x.locked && decide (200000 ≤ tUp.now - x.enabledAt) && decide (10000000 ≤ tUp.now - x.trainedAt) &&
        decide (3000000000 < tUp.now - x.enabledAt) && !x.everUp) &&
       (let x : Port := { state := .training, enable := true, locked := true, fec := true, helloed := true, enabledAt := 4999900000 }
        x.locked && x.fec && x.helloed && !x.loopback && tUp.pacer.crystal && decide (tUp.now - x.enabledAt < 200000)) &&
       (tHelloMsg true).pairSide != tUp.inputs.straps.pairSide && (tHelloMsg false).pairSide == tUp.inputs.straps.pairSide) = true := by
  decide +kernel

theorem witness_LaneLossIsMarked :
    (let lanes := fun x : Port => ((List.range 128).filter fun i => x.lost.getLsbD i).length
     tLink.state == .up && !tLink.lost.getLsbD 5 && !tLink.laneBad.getLsbD 5 && decide (lanes tLink < 5) && tLink.retrains.isEmpty &&
       ({ tLink with laneBad := 32 } : Port).laneBad.getLsbD 5 && ({ tLink with lost := 32 } : Port).lost.getLsbD 5 &&
       (let x : Port := { tLink with lost := 31 }
        !x.lost.getLsbD 5 && lanes x == 5 && x.retrains.isEmpty) &&
       tLink.lost == 0 && !tLink.half &&
       ((List.range 8).all fun k => ({ tLink with lost := 1 <<< k } : Port).lost == (1 : BitVec 128) <<< k) && tUp.pair.episode.isNone) =
    true := by decide +kernel

/-- The sixth lane without lock sends a partner port to RETRAIN (R310, R319). -/
theorem test_sixth_lane :
    [15, 31].map (fun m => (nextOf (exec (.laneLockLost 0 5) (tPort 0 { tLink with lost := m }))).map fun t => (t.port 0).state) =
      [some .up, some .retrain] := by decide +kernel

/-- A joined pair whose pair port is UP. -/
def tPaired (mode : PairMode) : State :=
  let s := tPort 6 tLink
  { s with pair := { s.pair with mode := mode, joined := true, heardAt := some 4999990000, twinSerial := 77 } }

def tBeat : Packet := tPk .beat 0 0 0 0 0 0 0 0 (List.replicate 32 0)

theorem witness_PairPacketsAreTaken :
    (([(PType.starter, 0), (.beat, 0), (.shadow, 3), (.digest, 1), (.relay, 2), (.pairctl, 0)].all fun r =>
         let k := tPk r.1 r.2 0 0 0 0 0 0 0 (List.replicate 32 0)
         k.wf && k.ptype.toNat == r.1.code && (tPaired .shadow).hopOne 6 k == none &&
           (tPaired .shadow).hopOne 6 { k with pcrc := 0 } == some .pcrc) && (tPaired .shadow).pair.joined && !(tPort 6 tLink).pair.joined &&
       ((tPaired .shadow).port 6).state == .up) = true := by decide +kernel

theorem witness_BeatIsSentEvery100us :
    ((tPaired .shadow).pair.joined && (tPaired .shadow).power.thermTripN && !(tPaired .shadow).starter.stopped &&
       decide (10000 ≤ (tPaired .shadow).now - (tPaired .shadow).pair.beatAt)) = true := by decide +kernel

theorem witness_HeartbeatLossUnpairs :
    ((tPaired .shadow).early.isEmpty && decide ((tPaired .shadow).now - 4999990000 ≤ 80000) && tUp.pair.heardAt.isNone &&
       (let s := tPaired .shadow
        let s1 : State := { s with pair := { s.pair with heardAt := some 0 } }
        decide (80000 < s1.now - 0) && s1.pair.joined && s1.pair.twinJobs.isEmpty && s1.pair.episode.isNone && s1.poisoned.isEmpty)) = true := by decide +kernel

def tResetPk : Packet := tPk .pairctl 0 0 0 0 0 0 0 0 (toLe 8 PairKind.reset.code ++ toLe 24 77)

theorem witness_PairResetAndEpisodes :
    ((tResetPk.wf && (tPaired .shadow).hopOne 6 tResetPk == none && leNat (tResetPk.payload.take 1) == PairKind.reset.code &&
        BitVec.ofNat 64 (leNat ((tResetPk.payload.drop 8).take 8)) == (tPaired .shadow).pair.twinSerial &&
        (tPaired .shadow).inputs.resetN && (tPaired .shadow).pair.resetAt.isNone && decide (tUp.now - 4000000000 ≤ 1000000000) &&
        decide (1000000000 < tUp.now - 3999999999) && !(tPaired .shadow).power.held &&
        decide (tUp.now - 4999900000 ≤ 100000) && decide (100000 < tUp.now - 0))) = true := by decide +kernel

def tStarterPk (first : Nat) : Packet := tPk .starter 2 0 0 4 first 0 0 0 (toLe 2 0x205 ++ toLe 30 0)
def tCtrlPk (stage : Nat) : Packet := tPk .ctrl 2 5 0 0 0 stage 0 0 (noticeBytesOf 3)
  where noticeBytesOf (n : Nat) : List Byte := toLe 8 n ++ toLe 24 0

theorem witness_PartnerPacketsAreTaken :
    ((tStarterPk 0).wf && (tPort 0 tLink).hopOne 0 (tStarterPk 0) == none &&
       (tPort 0 tLink).hopOne 0 { tStarterPk 0 with pcrc := 0 } == some .pcrc && (tCtrlPk 0xE).wf &&
       (tPort 0 tLink).hopOne 0 (tCtrlPk 0xE) == none && (tCtrlPk 0xE).stage == 0xE &&
       State.Notice.ofCode (leNat (((tCtrlPk 0xE).payload.drop 0).take 8)) == some .serial &&
       (tPort 0 tLink).hopOne 0 { tCtrlPk 0xE with pcrc := 0 } == some .pcrc &&
       (let k := tPk .topo 3 0 0 0 0 0 0 0 (List.replicate 32 0)
        k.wf && Pkt.crc k == k.pcrc && k.vc == 3 && ((tPort 0 { tLink with torus := true }).port 0).torus)) = true := by decide +kernel

theorem witness_StarterRequestEntersItsMailbox :
    ((tStarterPk 0).first.getLsbD 0 == false && (tPort 0 tLink).mem.wf && decide (49 < (tPort 0 tLink).mailboxes.length) &&
       ((tPort 0 tLink).mbox 49).busy == false) = true := by decide +kernel

theorem witness_DiscoveryTimersAct :
    ((let t := tUp.topo
      tUp.power.links && decide (100000 ≤ tUp.now - t.sentAt) && !t.checked && t.c.all Option.isSome && decide (10000000 ≤ tUp.now - t.changedAt) &&
        decide (tUp.now - 4999999999 < 100000)) && (tUp.port 0).starterReq.isNone && tUp.pair.detach.isNone &&
       decide (10000000 < tUp.now - 0)) = true := by decide +kernel

def tMessage : List Byte := toLe 2 0x205 ++ toLe 14 0 ++ toLe 2 7

theorem witness_StarterRequestGoesOut :
    ((StarterMove.sends tMessage).wf && ((tPort 0 tLink).port 0).state == .up && !(tPort 0 tLink).starter.stopped &&
       ((tPort 0 tLink).port 0).starterReq.isNone &&
       ((tPort 0 { tLink with starterReq := some (3, 0) }).port 0).starterReq.isSome) = true := by decide +kernel

/-- A second request while one is outstanding is not sent (R329). -/
theorem test_one_starter_request :
    (nextOf (exec (.starterPacket 0 (.sends tMessage)) (tPort 0 tLink))).map (fun t =>
        ((t.port 0).starterReq, (nextOf (exec (.starterPacket 0 (.sends tMessage)) t)).map fun u => (u.port 0).starterNext)) =
      some (some (0, 5000000000), some 1) := by decide +kernel

/-! ### Groups and chains -/

/-- A ring of two members on ports 0 and 1. -/
def tRingGroup : Group :=
  { tGroup with geometry := .ring, ports := [], ext := [0, 0, 0], rings := [(0, 1)], m := 2, mDecl := 2, serials := [1, 2] }

def tHaloChain (first : BucketStage) : Chain :=
  { tChain { seq := 0, stage := first } with
    entries := [.halo (List.replicate 6 noHandle) [0, noHandle, noHandle, noHandle, noHandle, noHandle]] }

def tHaloState (st : BucketStage) : State :=
  let s := tUpdState
  { s with groups := [tGroup], chains := [tHaloChain st], ports := s.ports.set 0 tLink }

/-- A PUT of the 16 bytes of tensor 0. -/
def tPutPk (bucket first : Nat) : Packet := tPk .put 1 5 2 bucket first 8 0 0 (List.replicate 32 1)

theorem witness_ChainPacketsReachTheirBucket :
    ((tPutPk 0 0).wf && (tPutPk 0 0).ptype.toNat == PType.put.code && (tPutPk 0 0).group.toNat != State.transferGroup &&
       (tHaloState .move).hopOne 0 (tPutPk 0 0) == none && (tHaloState .move).jobRuns 5 &&
       (match (tHaloState .move).turn 0 (tPutPk 0 0) with
        | .use c b => c == 1 && b == 0
        | _ => false) &&
       (match (tHaloState .waiting).turn 0 (tPutPk 0 0) with
        | .later => true
        | _ => false) &&
       (match (tHaloState .move).turn 0 (tPutPk 0 7) with
        | .bad => true
        | _ => false)) = true := by decide +kernel

/-- The PUT's bytes stand in the receive view (R378). -/
theorem test_halo_put :
    (nextOf (exec (.putPacket 0 (tPutPk 0 0)) (tHaloState .move))).map (fun t => (t.bytes 0x20010000 17, t.chains.map fun c => c.buckets.map Bucket.stage)) =
      some (List.replicate 16 1 ++ [0], [[.done]]) := by decide +kernel

def tTransferState : State :=
  let s := { tUpdState with ports := (tUpdState.ports.set 0 tLink).set 1 tLink }
  { s with transfers := [{ job := 5, spare := 3, port := some 0, claim := some 1 }] }

theorem witness_TransferPacketIsForwarded :
    (let k := tPk .put 1 5 State.transferGroup 0 0 0 0 0 (List.replicate 32 1)
     k.wf && k.group.toNat == State.transferGroup && tTransferState.hopOne 0 k == none && (tTransferState.transfer? 5).any (fun x =>
       x.port == some 0 && x.claim == some 1 && State.transferExpects x k) && decide (1 < tTransferState.ports.length)) = true := by decide +kernel

theorem witness_FixedWindowAdderIsExact :
    Carry.isMarker 2 5 = false ∧ Carry.isMarker 2 (2 ^ 64 - 1) = false ∧ Carry.isMarker 2 (2 ^ 63 + 1) = true ∧
      Carry.isMarker 3 (2 ^ 127 + 4) = true := by decide +kernel

/-- −1 + 1 in a carry of 64 bits; an infinity marker meets a number (R367, R368). -/
theorem test_fixed_window :
    Carry.add 2 (2 ^ 64 - 1) 1 = (0, false) ∧ Carry.add 2 (Carry.marker 2 2) 5 = (Carry.marker 2 2, false) := by decide +kernel

def tEntryState (e : ChainEntry) (st : BucketStage) (g : Group) : State :=
  { tState 0 tTensors with groups := [g], chains := [{ tChain { seq := 0, stage := st } with entries := [e] }] }

theorem witness_ChainEntriesStart :
    (([(ChainEntry.reduceScatter 0 false 0 1, tRingGroup), (.allReduce 2 false 0 1, tRingGroup), (.allGather 0 1, tRingGroup)
         , (.halo [] [], tGroup), (.bcast 0 1 0, tRingGroup), (.allToAll 0 1, tRingGroup)].all fun r =>
         let s := tEntryState r.1 .waiting r.2
         (s.spot? 1 0).any fun x => s.mayStart x && x.entry? == some r.1) &&
       (let s := tEntryState (.allGather 0 1) .done tRingGroup
        (s.spot? 1 0).any fun x => !s.mayStart x) &&
       (let s := tEntryState (.allGather 0 1) .waiting tRingGroup
        (s.spot? 1 0).any fun x => ((s.convertPieces x 0 1).chain? 1).isSome)) = true := by decide +kernel

/-- An UPDATE may start once its chain has a verdict of 0. -/
theorem witness_ChainEntriesStart_update :
    ((let s : State := { tUpdState with groups := [tRingGroup], chains := [{ tChain { seq := 0 } with total := some 0 }] }
      (s.spot? 1 0).any (fun x => s.mayStart x))) = true := by decide +kernel

def tDoneState : State :=
  { tUpdState with groups := [tGroup], chains := [{ tChain { seq := 0, stage := .done } with word := 0x43000000, statusBase := 0x42000000 }] }

theorem witness_ChainCompletionWritesItsStatus :
    ((tDoneState.chain? 1).any (fun c => c.buckets.all (fun x => x.stage == .done) && decide (c.statusBase + 64 * c.buckets.length ≤ c.word)) &&
       tDoneState.runsJob tJob && tDoneState.judges.all (fun x => x.pending.isEmpty) && tDoneState.poisoned.isEmpty && tDoneState.mem.wf) = true := by decide +kernel

/-- The completion word is raised by 1 (R359). -/
theorem test_chain_complete :
    (nextOf (exec (.chainComplete 1) tDoneState)).map (fun t => (t.read 0x43000000 8, t.chains.length)) = some (1, 0) := by
  decide +kernel

def tSumPk : Packet := tPk .reduce 0 5 2 0 0 1 2 1 (toLe 8 12 ++ toLe 24 0)

/-- A copy of a link adder's 5 and 7 with its 12. -/
def tCopied : JudgeCopy :=
  { port := 1, packet := tSumPk, work := .sum (toLe 8 5 ++ toLe 24 0) (toLe 8 7 ++ toLe 24 0), output := tSumPk.payload }

def tJudging (xs : List JudgeCopy) : State :=
  { tHaloState .move with judges := State.reset.judges.set 0 { (State.reset.judges.getD 0 {}) with pending := xs } }

theorem witness_JudgeComparesWhatItSamples :
    (((List.range 4096).any fun b => judgeSamples 10 { tSumPk with bucket := BitVec.ofNat 32 b }) &&
      ((List.range 4).any fun b => !judgeSamples 10 { tSumPk with bucket := BitVec.ofNat 32 b }) && judgeOf 1 == 0 && judgeOf 3 != 0 &&
      (tJudging []).judges[0]?.any (fun x => x.pending.isEmpty) && (tJudging [tCopied]).judges[0]?.any (fun x => x.pending == [tCopied]) &&
      (tJudging [tCopied]).judgeForms tCopied == (none : Option (List Byte)).getD tCopied.output &&
      (tJudging [tCopied]).judgeForms tCopied != (some (List.replicate 32 1) : Option (List Byte)).getD tCopied.output) = true := by
  decide +kernel

set_option maxRecDepth 20000 in
/-- Where the Judge sees what it forms nothing is at fault; else it is one (R382). -/
theorem test_judge :
    [none, some (List.replicate 32 1)].map (fun o => (nextOf (exec (.judgeCompare 0 o) (tJudging [tCopied]))).map fun t => t.faultsEver) =
      [some 0, some 1] := by decide +kernel

/-- The HALO's bucket expects its PUT since time 0; a packet of the group lacks credits since then; the group's barrier waits. -/
def tStall (now : Nat) : State :=
  let s := tHaloState .move
  { s with
    now := now
    chains := [{ tHaloChain .move with buckets := [{ seq := 0, stage := .move, started := [(8, 0)] }] }]
    groups := [{ tGroup with sentAt := some 0 }]
    ports := s.ports.set 0 { tLink with credits := [0, 0, 0, 0], sendQ := [tPutPk 0 0], starved := [none, some 0, none, none] } }

theorem witness_StallStopsTheChains :
    (tGroup.budget == 5000000 && ([5000000, 5000001].all fun n =>
       let s := tStall n
       ((s.spot? 1 0).any fun x => s.waitsSince x 0 == some 0 && (s.waitsSince x 1).isNone) &&
         (s.port 0).starved.getD 1 none == some 0 && (s.port 0).starved.getD 0 none == none &&
         ((s.port 0).sendQ.find? fun k => k.vc.toNat == 1) == some (tPutPk 0 0) &&
         (s.group? (tPutPk 0 0).group.toNat).any (fun g => g.job == (tPutPk 0 0).job.toNat) && State.inGroup (tPutPk 0 0) &&
         ((s.group? 2).any fun g => g.job == 5 && g.sentAt == some 0 && State.barrierPort g == some 0) && tGroup.sentAt.isNone &&
         (decide (s.now - 0 ≤ tGroup.budget) == (n == 5000000)))) = true := by decide +kernel

/-- Each of the three waits is a stall beyond its budget, and none within it (R384). -/
theorem test_stall :
    [5000000, 5000001].map (fun n => [StallWait.message 1 0 0, .credit 0 1, .barrier 5 2].map fun w =>
      (nextOf (exec (.stall w) (tStall n))).map fun t => t.chains.length) = [[some 1, some 1, some 1], [some 0, some 0, some 0]] := by
  decide +kernel


/-! ### Group barriers, verdicts, faults and restart -/

def tHurdle (g : Group) : State :=
  { tState (tSlot .hurdle [] [(240, 1), (256, 2), (320, 2)]) [] with groups := [g] }

/-- The group once this device has sent its arrival. -/
def tSent (g : Group) : State :=
  let s := tHurdle g
  ((s.deciding (tCmd s)).setGroup { g with arrivals := 0 }).arriveOwn { g with arrivals := 0 }

/-- A group of no port: its round is this device's alone. -/
def tAlone : Group := { tGroup with ports := [], arrivals := 1 }

theorem witness_GroupHurdleWaitsForItsRound :
    ((let s := tHurdle tGroup
      s.inHand 33 == some (tCmd s) && isHurdle true (tCmd s).slot && (worst (Sync.groupChecks (tCmd s) (s.deciding (tCmd s)))).isNone &&
        s.group? ((tCmd s).slot.operand 0x20 0 64) == some tGroup && (tCmd s).slot.operand 0x28 0 16 == 2) &&
       (let s := tHurdle { tGroup with arrivals := 1 }
        (s.inHand 33).isSome && decide (2 ≤ tAlone.arrivals + 1) && tAlone.sentAt.isNone &&
          ((tSent { tGroup with arrivals := 1 }).group? 2).any (fun g => !State.roundDone g)) &&
       ((tSent tAlone).group? 2).any State.roundDone &&
       (((tSent tAlone).closeRound 2).queue? 33).any (fun q => !((tSent tAlone).closeRound 2).cqBlocked q .ok)) = true := by decide +kernel

def tArrive (round : Nat) : Packet := tPk .arrive 2 5 2 round 0 0xD 0 0 []

def tArriveState (g : Group) : State := { tUpdState with groups := [g], ports := tUpdState.ports.set 0 tLink }

theorem witness_ArrivalsCloseTheRound :
    ((tArrive 0).wf && (tArrive 0).ptype.toNat == PType.arrive.code && (tArriveState tGroup).hopOne 0 (tArrive 0) == none &&
       (tArriveState tGroup).jobRuns 5 && (tArrive 0).bucket.toNat == 0 && (tArrive 1).bucket.toNat != 0 && (tArrive 0).stage == 0xD &&
       tGroup.ports.contains 0 && !tGroup.heard.contains (0, 0) && ({ tGroup with heard := [(0, 0)] } : Group).heard.contains (0, 0) &&
       (let g := { tRingGroup with rings := [(1, 0)], ext := [2, 0, 0] }
        match passHop? g 0 { tArrive 0 with first := 0, contrib := 1 <<< Group.stepFrom (g.extOf 0) (g.pos 0) 1 false } with
        | some (l, n) => g.barrier.has l n == none
        | none => false)) = true := by decide +kernel

/-- A HALO chain without views at 0x44000000. -/
def tTrig (word thin : Nat) : State :=
  let s := tState (tSlot .trig [] [(256, 0x44000000), (320, 2), (384, word)]) []
  { s with
    groups := [tGroup]
    mem := s.mem ++ cells 0x44000000 (toLe 64 (1 <<< 24 ||| 1 <<< 16 ||| thin <<< 8 ||| 0x42000000 <<< 192) ++
      toLe 64 (5 <<< 24 ||| (2 ^ 288 - 1) <<< 32)) }

theorem witness_TrigArmsTheChain :
    (([1, 2].all fun thin =>
       let s := tTrig 0 thin
       let c := tCmd s
       s.inHand 33 == some c && State.isOp .trig c.slot && (worst (Trig.checks c (s.deciding c))).isNone && s.poisoned.isEmpty &&
         Sync.joined c (s.deciding c) (Trig.gid c.slot) == some tGroup && !s.cqBlocked c.q .ok && ((s.deciding c).recordLine c.q .ok).isNone && c.slot.operand 0x30 0 64 == 0 &&
         match (Trig.parts c (s.deciding c) tGroup).2 with
         | some x => x.h.thin == thin && ((c.job.step + 1) % x.h.thin == 0) == (thin == 1)
         | none => false)) = true := by decide +kernel

/-- A chain of one member whose reductions are done. -/
def tVerdict (n : Nat) (zero : Bool) : State :=
  let g := { tRingGroup with geometry := .torus, ext := [1, 1, 1], rings := [], m := 1, mDecl := 1, serials := [1] }
  { tUpdState with
    jobs := [{ tJob with zeroPolicy := zero }], groups := [g]
    chains := [{ tChain { seq := 0, entry := 1, ownedNonfinite := n } with
      entries := [.reduceScatter 0 false 0 0, .update (.builtin 5) [noHandle, 0, noHandle, noHandle, noHandle] 0x40000000] }] }

theorem witness_VerdictFollowsTheTotal :
    (([0, 3].all fun n =>
       let s := tVerdict n false
       (s.chain? 1).any (fun c => State.updateIndex c == some 1 && c.verdict == {} && c.total.isNone && c.buckets.all fun x => decide (1 ≤ x.entry)) &&
         s.groups.all (fun g => [0, 1, 2].all fun d => decide (g.extOf d ≤ 1)) && s.early.isEmpty && (s.job? 5).any fun j => !j.zeroPolicy) &&
       (let s := tVerdict 0 false
        let c : State := { s with chains := s.chains.map fun c => { c with buckets := [{ seq := 0 }] } }
        (c.chain? 1).any fun c => c.buckets.any fun x => decide (x.entry < 1))) = true := by decide +kernel

/-- Non-finite elements under SKIP skip the training step; none lets it go on (R372, R373). -/
theorem test_verdict :
    [0, 3].map (fun n => (nextOf (exec (.verdictPass 1) (tVerdict n false))).map fun t =>
      ((t.chain? 1).map fun c => (c.total, c.skipped), (t.job? 5).map Job.skipping)) =
      [some (some (some 0, false), some false), some (some (some 3, true), some true)] := by decide +kernel

def tNotice : FaultNotice :=
  { origin := none, mechanism := BitVec.ofNat 8 Mech.eccUe.code, unit := ⟨3, 0⟩, job := some 5, queue := none, addr := 0, detail := 0
    rank := none, group := 0, serial := 0 }

theorem witness_FaultHaltsItsJob :
    (tNotice.origin.isNone && tNotice.job.map BitVec.toNat == some 5 && (tDev .running).job? 5 == some tJob && tJob.phase == .running &&
       !State.blamesUnit tNotice.mechanism.toNat && (tDev .running).early.isEmpty && (tDev .running).poisoned.isEmpty) = true := by decide +kernel

/-- The chain of the halted job ends with FAULT (R359). -/
theorem test_fault_ends_chains :
    (nextOf (exec (.faultNotice tNotice) (tUpdChain .reduce))).map (fun t => (t.chains.length, t.chainEnds)) =
      some (0, [(1, .fault)]) := by decide +kernel

/-- The halted job's queue is FROZEN and keeps its position (R406). -/
theorem test_fault_freezes :
    (nextOf (exec (.faultNotice tNotice) (tDev .running))).map (fun t => ((t.queue? 33).map CmdQueue.state, t.faultsEver, t.restarts)) =
      some (some .frozen, 1, 1) := by decide +kernel

theorem witness_FaultyHeatIsReplaced :
    (tUp.jobs.isEmpty && tUp.early.isEmpty && tUp.poisoned.isEmpty && tUp.unitMap.state[3]? == some .active &&
       (let spans : List (Nat × Option OutsideWait) := [(2 ^ 20, none), (2 ^ 30, some .credits)]
        decide ((tUp.tracks.getD 0 {}).limit < State.offeredCycles spans) &&
          decide (State.offeredCycles [(5, none), (2 ^ 30, some OutsideWait.credits)] ≤ (tUp.tracks.getD 0 {}).limit)) &&
       State.spareOf tUp.unitMap (State.dieOf 3) == some 50 &&
       (let m : UnitMap := { tUp.unitMap with state := (tUp.unitMap.state.set 50 .active).set 51 .active }
        State.spareOf m (State.dieOf 3) == none && m.state[3]? == some .active)) = true := by decide +kernel

theorem witness_UnitFaultsAndTests :
    (tUp.jobs.isEmpty && tUp.early.isEmpty && decide (31 < tUp.cores.length) && tUp.unitMap.state[50]? == some .spare && tUp.poisoned.isEmpty &&
       UnitClass.port.code == 4 && ((tPort 0 { tLink with state := .down }).port 0).state == .down && (0 : Nat) != UnitClass.port.code) = true := by decide +kernel

theorem witness_RestorePointIsTheLargestCommonStep : ([[3, 5], [5, 3, 1]] : List (List Nat)) ≠ [] := by decide

theorem test_common_step :
    State.commonStep [[3, 5], [5, 3, 1]] = some 5 ∧ State.commonStep [[3], [5]] = none := by decide +kernel

def tRestart (r : Restart) (p : JobPhase) (gs : List Group) : State :=
  { tDev .frozen with jobs := [{ tJob with phase := p, restart := r }], groups := gs, pacer := tUp.pacer, now := tUp.now }

/-- A ring of this device and device 2 whose restart asks since time 0, with the answers and the blames given. -/
def tAgree (r : Restart) : State :=
  let s := tRestart r .restarting [{ tRingGroup with serials := [State.reset.serial, 2] }]
  { s with jobs := s.jobs.map fun j => { j with spares := [7, 9] } }

def tAsked (steps : List Nat) : Restart := { askedAt := some 0, answers := [(State.reset.serial, [3, 5]), (2, steps)] }

theorem witness_RestorePointIsAgreed :
    ((let s := tAgree {}
      (s.job? 5).any fun j => s.leads j && j.restart.askedAt.isNone && j.phase == .restarting && j.restart.restorePoint.isNone) &&
       (let s := { tAgree { askedAt := some (tUp.now - 5) } with now := tUp.now }
        (s.job? 5).any fun j => !s.answersIn j && s.leads j) &&
       (let s := tAgree (tAsked [3])
        (s.job? 5).any fun j => s.answersIn j && (s.stallCycle j).isNone && State.chooseSpares [] j.spares (s.failedNow j) == some [] &&
          State.commonStep (s.answersOf j) == some 3 && s.leads j) &&
       (let s := tAgree (tAsked [4])
        (s.job? 5).any fun j => s.answersIn j && (s.stallCycle j).isNone && State.commonStep (s.answersOf j) == none && s.leads j) &&
       (let s := tAgree { tAsked [3] with failed := [2] }
        (s.job? 5).any fun j => s.leads j && (s.stallCycle j).isNone && State.chooseSpares [] j.spares (s.failedNow j) == none &&
          State.chooseSpares [(2, [9])] j.spares (s.failedNow j) == some [(2, 9)] && s.serial != 2) &&
       (let s := tAgree { tAsked [3] with blames := [(State.reset.serial, 2, 2), (2, State.reset.serial, 2)] }
        (s.job? 5).any fun j => s.answersIn j && (s.stallCycle j).isSome && s.leads j) &&
       !(tAgree { restorePoint := some 3 }).jobs.isEmpty && (tDev .running).jobs == [tJob]) = true := by decide +kernel

/-- Device 2 failed: its rank passes to the enrolled spare that fits, which leaves the job's spares (R411). -/
theorem test_rank_passes :
    (nextOf (exec (.restorePointAgreed 5 [2] [[9]]) (tAgree { tAsked [3] with failed := [2] }))).map (fun t =>
        (t.groups.map fun g => g.serials.getD 1 0, (t.job? 5).map fun j => (j.restart.restorePoint, j.spares))) =
      some ([9], some (some 3, [7])) := by decide +kernel

theorem witness_CoordinatorIsElected :
    ((let s := tRestart { smallest := State.reset.serial, changedAt := 0 } .restarting [tGroup]
      (s.leadGroup 5).isNone && !(s.jobGroups 5).isEmpty && (s.job? 5).any (fun j => j.restart.smallest == s.serial &&
        !(State.leftOut j).contains s.serial && decide (10000000 ≤ s.now - j.restart.changedAt))) &&
       (let s := tRestart { smallest := 1, changedAt := 0 } .restarting [tGroup]
        s.jobs.all fun j => j.restart.smallest != s.serial)) = true := by decide +kernel

theorem witness_TransferPathsAreRecorded :
    ((tUpdState.transfer? 5).isNone && (let s : State := { tUpdState with transfers := [{ job := 5, spare := 3, port := some 0 }] }
       (s.transfer? 5).any fun x => x.claim.isNone && x.port == some 0)) = true := by decide +kernel

theorem witness_RestartEndsInRunning :
    ((let s := tRestart { tJob.restart with restorePoint := some 3, restored := true } .restarting []
      (s.job? 5).any fun j => j.phase == .restarting && j.restart.restorePoint == some 3 && j.restart.restored) &&
       (let s := tRestart { tJob.restart with restorePoint := some 3, restored := true, rejoined := true } .restarting []
        (s.job? 5).any fun j => j.phase == .restarting && j.restart.rejoined) && tJob.restart.restorePoint.isNone) = true := by
  decide +kernel

theorem witness_PhotoFinishCompletes :
    (tUp.telem.running.isNone && (let s : State := { tUp with telem := { tUp.telem with running := some (⟨0x40000000, 2 ^ 28, 1⟩, 7) } }
       s.telem.running == some (⟨0x40000000, 2 ^ 28, 1⟩, 7))) = true := by decide +kernel

/-! ### Host cores -/

/-- A core in machine mode that runs with SVX and floating point enabled; x5 to x9 hold addresses and operands. -/
def tCore : HostCore :=
  { pc := 0x1000, state := .running, x := (List.range 32).map fun i => BitVec.ofNat 64 (if i = 5 then 0x3000 else if i = 6 then 2 else i)
    csr := { mstatus := 0xA_0000_2000, svxcsr := 1 } }

def tHart (c : HostCore) : State := { tUp with cores := tUp.cores.set 2 c }

/-- `executes`, `coreShaped` and `svxReady` by what can be computed of them. -/
def runs (s : State) (n : Fin 32) (len : Nat) : Bool :=
  (s.core n.val).state == .running && ((s.awake n).nextIrq n.val).isNone && ((s.awake n).fetchFails n len).isNone &&
    decide (n.val < s.cores.length) && (s.core n.val).x.length == 32 && (s.core n.val).y.length == 32 && (s.core n.val).q.length == 8

theorem runs_executes {s : State} {n : Fin 32} {len : Nat} (h : runs s n len = true) : s.executes n len ∧ s.coreShaped n := by
  simp only [runs, Bool.and_eq_true, beq_iff_eq, Option.isNone_iff_eq_none, decide_eq_true_eq] at h
  exact ⟨⟨Or.inl h.1.1.1.1.1.1, h.1.1.1.1.1.2, h.1.1.1.1.2⟩, h.1.1.1.2, h.1.1.2, h.1.2, h.2⟩

theorem witness_svxReady : (tHart tCore).svxReady 2 := by
  have h : runs (tHart tCore) 2 4 = true := by decide +kernel
  exact ⟨(runs_executes h).1, (runs_executes h).2, by decide +kernel, by decide +kernel⟩

/-- Fields of an SVX instruction: element size 2 ^ sz bytes, registers d, a, b, predicate q. -/
def tSvx (sz d a b q : Nat) : SvxFields :=
  { sz := BitVec.ofNat 2 sz, d := BitVec.ofNat 5 d, a := BitVec.ofNat 5 a, b := BitVec.ofNat 5 b, q := BitVec.ofNat 3 q }

theorem witness_SvxInstructionsComplete :
    ((Svx.modeOf ((tHart tCore).core 2)).isSome && ((tHart tCore).core 2).fpOn && Mmu.dataMode ((tHart tCore).core 2) == .m &&
       (tHart tCore).mem.wf && ([1, 2, 3].all fun z => (Svx.spec z).isSome) && decide ((tSvx 2 3 1 2 0).d.toNat < 8) &&
       (tSvx 0 3 1 0 0).b == 0 && (tSvx 0 3 1 0 0).q == 0) = true := by decide +kernel

theorem witness_VectorFloatElements :
    (((Svx.modeOf ((tHart tCore).core 2) == some .rne && (List.range 4).all fun z => (Svx.spec z).isSome == (decide (1 ≤ z))))) = true := by
  decide +kernel

theorem witness_VectorIntegerElements_insr :
    (let c := (tHart tCore).core 2
     (c.reg 15).toNat < 1024 / 64 ∧ 1024 / 64 ≤ (c.reg 16).toNat ∧ (tSvx 3 3 6 16 0).q = 0) := by decide +kernel

/-- An index outside the register: INSR changes neither the register nor the SVX state (R449, R457). -/
theorem test_svx_insr_outside :
    (nextOf (exec (.svxInsr 2 (tSvx 3 3 6 16 0)) (tHart tCore))).map (fun t => ((t.core 2).vreg 3, (t.core 2).csr.svxcsr)) =
      some (0, 1) := by decide +kernel

theorem witness_VectorPredicatesAndScalars : ((tHart tCore).core 2).fpOn = true := by decide +kernel

/-- A register of 1,024 bits whose bytes are all b. -/
def tFill1024 (b : Nat) : VReg := BitVec.ofNat 1024 (leNat (List.replicate 128 (BitVec.ofNat 8 b)))

def tVec : HostCore := { tCore with y := (tCore.y.set 1 (tFill1024 0xFF)).set 2 (tFill1024 1), q := tCore.q.set 1 0b101 }

/-- 0xFF + 1 wraps in each active element of a byte; element 1 is inactive under q1 and keeps its bits (R448, R454). -/
theorem test_svx_add :
    (nextOf (exec (.svxAdd 2 (tSvx 0 3 1 2 1)) (tHart { tVec with y := tVec.y.set 3 (tFill1024 7) }))).map (fun t =>
      (List.range 4).map fun e => Svx.elem ((t.core 2).vreg 3) 8 e) = some [0, 7, 0, 7] := by decide +kernel

/-- The high half of a widening multiply, −1 by 1 (R454). -/
theorem test_svx_iwmul :
    (nextOf (exec (.svxIwmul 2 true (tSvx 0 3 1 2 0)) (tHart tVec))).map (fun t => Svx.elem ((t.core 2).vreg 3) 16 63) = some 0xFFFF := by
  decide +kernel

/-- 1.0 + 1.0 in FP32 (R454), and the accrued flags stay 0. -/
theorem test_svx_fadd :
    (nextOf (exec (.svxFadd 2 (tSvx 2 3 1 1 1)) (tHart { tCore with
      y := tCore.y.set 1 (BitVec.ofNat 1024 0x3F800000), q := tCore.q.set 1 1 }))).map (fun t =>
        (Svx.elem ((t.core 2).vreg 3) 32 0, (t.core 2).csr.fcsr)) = some (0x40000000, 0) := by decide +kernel

/-- The access of element 0 alone, two fields. -/
def tMemCore : HostCore := { tVec with q := tVec.q.set 1 1 }

theorem witness_VectorLoadsAndStores :
    ((Mmu.dataMode ((tHart tMemCore).core 2) == .m && (tHart tMemCore).mem.wf && runs (tHart tMemCore) 2 4 &&
       [(0, Access.load, 1, 0), (1, .load, 0, 6), (2, .load, 0, 6), (3, .load, 0, 0), (4, .store, 1, 0), (5, .store, 0, 6), (6, .store, 0, 6)].all
         fun r =>
           let f := tSvx 3 4 5 r.2.2.2 1
           Svx.formOk r.1 r.2.2.1 f && (List.range 16).all fun e => !(tHart tMemCore).on 2 f e || (List.range (r.2.2.1 + 1)).all fun g =>
             let a := (tHart tMemCore).svxAt 2 r.1 r.2.2.1 f e g
             isEdern a && ((tHart tMemCore).physFault 2 .m r.2.1 true a 8).isNone && !(tHart tMemCore).poisonIn a 8)) = true := by
  decide +kernel

/-- VST stores fields in ascending addresses (R455). -/
theorem test_svx_store :
    (nextOf (exec (.svxVst 2 1 (tSvx 1 1 5 0 1)) (tHart { tMemCore with y := tMemCore.y.set 2 (tFill1024 9) }))).map
      (fun t => t.bytes 0x3000 5) = some [0xFF, 0xFF, 9, 9, 0] := by decide +kernel

theorem witness_CacheBlockOps :
    (((runs (tHart tCore) 2 4 && ((tHart tCore).core 2).mode == .m && Mmu.dataMode ((tHart tCore).core 2) == .m && isEdern 0x3000 &&
        ((tHart tCore).physFault 2 .m .load false 0x3000 64).isNone && ((tHart tCore).physFault 2 .m .store false 0x3000 64).isNone &&
        !(tHart tCore).poisonIn 0x3000 64))) = true := by decide +kernel

theorem witness_CoreAtomics :
    ((((([4, 8] : List Nat).all fun k => ((tHart tCore).physFault 2 .m .amo false 0x3000 k).isNone &&
        ((tHart tCore).physFault 2 .m .lr false 0x3000 k).isNone && !(tHart tCore).poisonIn 0x3000 k) &&
        (let s : State := { tHart tCore with reservations := [(2, 0x3000)] }
         s.reservations.contains (2, 0x3000 / 256 * 256)) && !(tHart tCore).reservations.contains (2, 0x3000)))) = true := by decide +kernel

/-- SC without a reservation stores nothing and gives 1 (R438). -/
theorem test_sc_without_reservation :
    (nextOf (exec (.lrSc 2 true true 7 5 6) (tHart tCore))).map (fun t => ((t.core 2).reg 7, t.read 0x3000 8)) = some (1, 0) := by
  decide +kernel

def tTimer : HostCore := { tCore with csr := { tCore.csr with mstatus := 0xA_0000_2008, mie := 0x80, mtvec := 0x8001, mtimecmp := 9 } }

theorem witness_ScalarWordsAndTimer :
    (((runs (tHart tCore) 2 4 && runs (tHart tCore) 2 2 && tCore.mode == .m && !tCore.trace &&
        decide (tTimer.csr.mtimecmp.toNat ≤ (tHart tTimer).now) && (tHart tTimer).nextIrq 2 == some 7 && !tTimer.csr.mideleg.getLsbD 7 &&
        (let c : HostCore := { tCore with csr := { tCore.csr with mtimecmp := 2 ^ 62, stimecmp := 2 ^ 62, menvcfg := 1 <<< 63 } }
         decide ((tHart c).now < c.csr.mtimecmp.toNat) && decide ((tHart c).now < c.csr.stimecmp.toNat) && c.csr.menvcfg.getLsbD 63)))) = true := by decide +kernel

/-- The machine timer interrupt enters its vectored handler (R428, R441). -/
theorem test_timer_interrupt :
    (nextOf (exec (.timerInterrupt 2) (tHart tTimer))).map (fun t => ((t.core 2).pc, (t.core 2).csr.mcause, (t.core 2).csr.mepc)) =
      some (0x801C, 0x8000000000000007, 0x1000) := by decide +kernel



/-! ### Ethernet, RDMA and Suilo -/

def tEth (x : EthPort) : State := { tUp with eth := tUp.eth.set 1 x }

theorem witness_EthernetPortEvents :
    ((decide (tUp.eth.length = 8) && (tUp.ethPort 1).enable && tUp.pacer.crystal && !(tUp.ethPort 1).up && tUp.sessions.isEmpty &&
       (let x : EthPort := { up := true, ipv4 := 0x0A000001, ipv6 := 7 }
        (tEth x).ownsV4 1 0x0A000001 && !(tEth x).ownsV4 1 0x0A000002 && x.up &&
          x.fixed.isNone && !x.xoff) && ({ up := true, fc := 1 } : EthPort).fc == 1)) = true := by decide +kernel

theorem witness_EthernetPortEvents_v6 :
    (tEth { up := true, ipv6 := 7 }).ownsV6 1 7 = true ∧ (tEth { up := true, ipv6 := 7 }).ownsV6 1 8 = false := by
  have h : ∀ e, (State.linkLocal e).getLsbD 127 = true := fun e => by
    unfold State.linkLocal
    rw [BitVec.getLsbD_ofNat, Nat.testBit_or, Nat.testBit_or, Nat.testBit_or,
      show Nat.testBit (0xFE80 <<< 112) 127 = true from by decide +kernel, Bool.true_or, Bool.true_or, Bool.true_or]
    rfl
  have h8 : ((8 : BitVec 128) == State.linkLocal 1) = false := by
    rw [beq_eq_false_iff_ne]
    intro e
    have := h 1
    rw [← e] at this
    exact absurd this (by decide)
  have hp : ((tEth { up := true, ipv6 := 7 }).ethPort 1).ipv6 = 7 := by decide +kernel
  unfold State.ownsV6
  rw [hp, h8]
  exact ⟨by simp, by decide⟩

/-- An ARP request for the port's address is answered with its MAC address (R500). -/
theorem test_arp :
    (nextOf (exec (.arp 1 0x0A000001) (tEth { up := true, ipv4 := 0x0A000001 }))).map (fun t => t.out.length) = some 1 := by
  decide +kernel

/-- The session's port is UP, its queue pair's ring holds one record in `n` records. -/
def tNet (n : Nat) : State :=
  let s := tOwned
  { s with
    eth := s.eth.modify 0 fun x => { x with up := true }
    mem := s.mem ++ cells 0x31000000 (toLe 8 n)
    sessions := [{ tSession with doorbellKey := 9 }] }

def tQp : Qp :=
  { qpn := 2, port := 0, session := 0x99, mtu := 1024, rnr := 0, hostQpn := 1, hostPsn := 0, psn := 0, gid := 0
    ringBase := 0x31000000, ringSlots := 64 }

theorem witness_RoceRequests :
    (((tNet 1).mem.wf && (tNet 1).qp? 2 == some tQp && !tQp.error && ((tNet 1).ethPort tQp.port).up &&
       decide (tQp.port < (tNet 1).eth.length) && !(tNet 1).qpFull tQp && ((tNet 1).qpLine tQp 256).isNone && (tNet 64).qpFull tQp && decide (0 < tQp.ringSlots) &&
       isEdern 0x30000000 && (tNet 1).rdmaDoorbell? tQp 8 0x30000000 256 == none && (tNet 1).rdmaAllowed tQp true 8 0x30000000 256 &&
       !(tNet 1).poisonIn 0x30000000 256 && (tNet 1).rdmaAllowed tQp false 8 0x30000000 4096 &&
       !(tNet 1).rdmaAllowed tQp false 8 0x30000000 4097 && tQp.cnpHeard.isNone &&
       (let q := { tQp with cnpHeard := some 0, rateNum := 16, rateExp := 1 }
        decide (0 + 5000 ≤ tUp.now) && decide (q.rateNum + 2 ^ q.rateExp < 16 * 2 ^ q.rateExp)))) = true := by decide +kernel

/-- The last byte of a region is in it, the next is not (R498). -/
theorem test_rdma_read_bounds :
    [4096, 4097].map (fun n => (nextOf (exec (.rdmaRead 2 8 0x30000000 n false) (tNet 1))).map fun t => (t.qp? 2).map Qp.error) =
      [some (some false), some (some true)] := by decide +kernel

/-- A HELLO by which an owner claims a device, or opens a session with a key. -/
def tHelloBytes (kind : Nat) : List Byte := tBytes 0xEC [(0, kind), (0xB8, 1), (0xCC, 2), (0xE0, 0x50000000), (0xE8, 64)]

def tSuilo (session : W32) (seq : Nat) (payload : List Byte) : SuiloPacket :=
  { port := 0, from_ := 1, ackValid := false, ceEcho := false, more := false, relayed := false, session := session
    serial := State.reset.serial, seq := BitVec.ofNat 64 seq, ack := 0, payload := payload }

theorem witness_HandshakesOpenSessions :
    (((tSuilo 0 0 []).serial == tUp.serial && (tUp.countFrame 0).helloRefusal (tHelloBytes 2) == some .badOperand &&
       (tUp.countFrame 0).helloRefusal (tHelloBytes 0) == some .noAuth && (tUp.countFrame 0).helloRefusal (tHelloBytes 1) == none &&
       decide (tUp.sessions.length ≤ 16) && tUp.freeMailbox == some 0)) = true := by decide +kernel

def tHandshake (claim : Bool) : Session := { tSession with state := .handshake, claim := claim }

/-- An AUTH that is short fails whatever the keys are. -/
theorem witness_HandshakesOpenSessions_fails :
    let s : State := { tUp with sessions := [tHandshake true] }
    s.session? 0x99 = some (tHandshake true) ∧ s.authHolds (tHandshake true) [] = false ∧ (tHandshake true).unacked = [] ∧
      (tHandshake true).queued = [] ∧ 0 < (tHandshake true).window ∧ s.pair.mode = .unpaired ∧ (tHandshake true).port < s.eth.length := by
  decide +kernel

/-- A confirmation of 64 bytes and zeros holds for a claim where the confirmation is what SPAKE2+ gives. -/
theorem witness_HandshakesOpenSessions_holds (c : List Byte) (hl : c.length = 64) (hc : c = Config.spakeConfirm true ([] ++ [])) :
    State.authHolds { tUp with sessions := [tHandshake true] } (tHandshake true) (c ++ List.replicate 68 0) = true := by
  have h1 : (c ++ List.replicate 68 (0 : Byte)).take 64 = c := by rw [← hl, List.take_left]
  have h2 : (c ++ List.replicate 68 (0 : Byte)).drop 64 = List.replicate 68 0 := by rw [← hl, List.drop_left]
  have h3 : c = Config.spakeConfirm true ((tHandshake true).hello ++ (tHandshake true).hreply) := hc
  unfold State.authHolds
  simp only [h1, h2, List.length_append, hl, List.length_replicate, show (tHandshake true).claim = true from rfl, if_true]
  rw [← h3]
  simp

theorem witness_SessionPacketsAct :
    ((let s : State := { tOwned with eth := tUp.eth }
      let k := tSuilo 0x99 1 (toLe 8 33 ++ toLe 8 60)
      s.mem.wf && k.serial == s.serial && s.session? 0x99 == some tSession && tSession.state == .opened && k.seq.toNat == tSession.rxSeq &&
        tSession.ahead.isEmpty && tSession.partialMsg.isEmpty && !tSession.probing && decide (tSession.ackCount < 7) &&
        tSession.port == 0 && tSession.addr == k.from_ && !(s.mbox 3).busy && decide (3 < s.mailboxes.length) && k.payload.length == 16 &&
        tSession.unacked.isEmpty && tSession.queued.isEmpty && decide ((tSuilo 0x99 0 []).seq.toNat < tSession.rxSeq) &&
        (let s1 : State := { s with queues := [tQueue] }
         (s1.queue? (leNat (k.payload.take 2))).any fun q => q.state == .running && decide (((60 : W64) - q.write).toNat < 2 ^ 63) &&
           decide (((60 : W64) - s1.qwFree q).toNat ≤ q.slots)) &&
        ((s.modMbox 3 fun m => { m with busy := true }).mbox 3).busy)) = true := by decide +kernel

/-- A packet whose number was taken before does nothing again (R502). -/
theorem test_duplicate_mbx :
    [1, 0].map (fun seq => (nextOf (exec (.suiloMbx (tSuilo 0x99 seq [1, 2])) { tOwned with eth := tUp.eth })).map fun t => (t.mbox 3).busy) =
      [some true, some false] := by decide +kernel

def tTimed (x : Session) : State := { tUp with sessions := [x] }

def tUnacked : Unacked := { seq := 1, type := 4, more := false, payload := [], sentAt := 0, interval := 100000 }

theorem witness_SessionTimersAct :
    (((tTimed tSession).session? tSession.id == some tSession && !tSession.relayed && decide (tSession.port < (tTimed tSession).eth.length) &&
       (let x := { tSession with unacked := [tUnacked] }
        x.unacked.filter (fun v => v.seq == tUnacked.seq) == [tUnacked] && decide (tUnacked.interval < tUp.now - tUnacked.sentAt)) &&
       (let u := { tUnacked with sentAt := tUp.now }
        decide (tUp.now - u.sentAt ≤ u.interval)) && tSession.queued.isEmpty && decide (tSession.unacked.length < tSession.window) &&
       decide (0 + 100000 ≤ tUp.now) && decide (tSession.lastTx + 1000000 ≤ tUp.now) && decide (tSession.lastRx + 3000000000 < tUp.now) &&
       decide ((tHandshake false).startedAt + 100000000 < tUp.now) && decide (tSession.closeAt + 10000000 < tUp.now) && !tSession.probing &&
       !((tTimed tSession).ethPort tSession.port).up && decide (tSession.probedAt + 10000000 ≤ tUp.now))) = true := by decide +kernel

/-- A resend doubles the interval, up to 32 ms (R502). -/
theorem test_retransmit :
    [100000, 2000000].map (fun i => (nextOf (exec (.suiloRetransmit 0x99 1) (tTimed { tSession with unacked := [{ tUnacked with interval := i }] }))).map
      fun t => t.sessions.map fun x => x.unacked.map Unacked.interval) = [some [[200000]], some [[3200000]]] := by decide +kernel

/-! ### Every step, numbers -/

/-- The state after reset is whole, and holds commands that run. -/
theorem witness_EveryStepKeepsTheBlockWhole :
    ((State.reset.mem.wf && decide (State.reset.edern.length = 8) && decide (State.reset.ports.length = 7) && decide (State.reset.eth.length = 8) &&
       decide (State.reset.cores.length = 32) && decide (State.reset.mailboxes.length = 64) && decide (State.reset.judges.length = 3) &&
       decide (State.reset.tracks.length = 2) && decide (State.reset.heats.length = 100) &&
       State.reset.cores.all fun c => c.x.length == 32 && c.y.length == 32 && c.q.length == 8)) = true := by decide +kernel

theorem witness_CommandsLeaveQueueAndIdentity :
    ((nextOf (exec (.alertDrive true) { tUp with unfit := true, pending := [.ready] })).isSome) = true := by decide +kernel

/-- The command at the front runs on the rest of the queue; an empty queue counts a cycle (R527). -/
theorem test_step :
    (nextOf (step { tUp with pending := [.alertDrive true, .ready] })).map (fun t => (t.inputs.drive, t.pending)) =
        some (true, [.ready]) ∧
      (nextOf (step tUp)).map State.now = some 5000000001 := by decide +kernel

/-- 2^(c − 127) for code 128, floor of log2 of −3 and of the smallest subnormal's exponent field, NaN (R60). -/
theorem test_scale_format :
    (convertElem false .fp32 .rne true 0 (readElem .sce8 128)).1 = 0x40000000 ∧
      (convertElem false .sce8 .rne true 0 (readElem .fp32 0xC0400000)).1 = 128 ∧
      (convertElem false .sce8 .rne true 0 (readElem .fp32 0x7FC00000)).1 = 0xFF := by decide +kernel


end Sys2Proof.Tests
end

section
/-! The register files of a core stay whole under every change of a core that the model knows (R425, R445). -/

namespace Sys2Proof.Machine

namespace HostCore.whole

variable {c : HostCore}

/-! ### Register files -/

theorem ite {p : Prop} [Decidable p] {d : HostCore} (hc : c.whole) (hd : d.whole) : (if p then c else d).whole := by
  split
  · exact hc
  · exact hd

theorem foldl {α : Type} {f : HostCore → α → HostCore} {l : List α} {c : HostCore} (h : c.whole)
    (hf : ∀ c a, c.whole → (f c a).whole) : (l.foldl f c).whole := by
  induction l generalizing c with
  | nil => exact h
  | cons a l ih => exact ih (hf c a h)

theorem setReg (h : c.whole) {i v} : (c.setReg i v).whole := by
  unfold HostCore.setReg
  exact h.ite ⟨by simp [h.1], h.2⟩

theorem setVreg (h : c.whole) {i v} : (c.setVreg i v).whole := ⟨h.1, by simp [HostCore.setVreg, h.2.1], h.2.2⟩

theorem setPreg (h : c.whole) {i v} : (c.setPreg i v).whole := by
  unfold HostCore.setPreg
  exact h.ite ⟨h.1, h.2.1, by simp [h.2.2]⟩

theorem setFreg (h : c.whole) {i v} : (c.setFreg i v).whole := h.setVreg

theorem accrue (h : c.whole) {code} : (c.accrue code).whole := by
  unfold HostCore.accrue
  exact h.ite h

theorem enterM (h : c.whole) {irq cause tval} : (State.enterM c irq cause tval).whole := h

theorem enterS (h : c.whole) {irq cause tval} : (State.enterS c irq cause tval).whole := h

/-! ### SVX -/

theorem putV (h : c.whole) {d v} : (Svx.putV c d v).whole := h.setVreg

theorem putP (h : c.whole) {d v} : (Svx.putP c d v).whole := h.setPreg (i := d) (v := v)

theorem putElem (h : c.whole) {sz d e g v} : (Svx.putElem sz d e c g v).whole := h.putV

theorem mapElems (h : c.whole) {q d n f} : (Svx.mapElems c q d n f).whole := h.putV.accrue

theorem orNone {p : Prop} [Decidable p] {r : Option HostCore} (h : c.whole) (hr : (r.getD c).whole) :
    ((if p then none else r).getD c).whole := by
  split
  · exact h
  · exact hr

theorem vaInt (h : c.whole) {k f} : ((Svx.vaInt k f c).getD c).whole := h.orNone h.mapElems

theorem vaFloat (h : c.whole) {k f} : ((Svx.vaFloat k f c).getD c).whole := by
  unfold Svx.vaFloat
  split
  · exact h
  · exact h.orNone h.mapElems

theorem sel (h : c.whole) {f} : ((Svx.sel f c).getD c).whole := h.putV

theorem va (h : c.whole) {k f} : ((Svx.va k f c).getD c).whole := by
  unfold Svx.va
  split
  · exact h.sel
  · split
    · exact h.vaInt
    · exact h.vaFloat

theorem fma (h : c.whole) {neg f} : ((Svx.fma neg f c).getD c).whole := by
  unfold Svx.fma
  split
  · exact h.mapElems
  · exact h

theorem ima (h : c.whole) {f} : ((Svx.ima f c).getD c).whole := h.mapElems

theorem fwide (h : c.whole) {acc half f} : ((Svx.fwide acc half f c).getD c).whole := by
  refine h.orNone ?_
  split
  · exact h.mapElems
  · exact h

theorem iwide (h : c.whole) {acc half f} : ((Svx.iwide acc half f c).getD c).whole := h.orNone h.mapElems

theorem fdot (h : c.whole) {f} : ((Svx.fdot f c).getD c).whole := by
  unfold Svx.fdot
  split
  · exact h.mapElems
  · exact h

theorem idot (h : c.whole) {signed f} : ((Svx.idot signed f c).getD c).whole := h.orNone h.mapElems

theorem vr (h : c.whole) {k f} : ((Svx.vr k f c).getD c).whole := by
  unfold Svx.vr
  split
  exacts [h.fma, h.fma, h.ima, h.fwide, h.fwide, h.fwide, h.fwide, h.iwide, h.iwide, h.iwide, h.iwide, h.fdot,
    h.idot, h.idot, h]

theorem cmpInt (h : c.whole) {k f} : ((Svx.cmpInt k f c).getD c).whole := h.orNone h.putP

theorem cmpFloat (h : c.whole) {k f} : ((Svx.cmpFloat k f c).getD c).whole := by
  unfold Svx.cmpFloat
  split
  · exact h
  · exact h.orNone h.putP.accrue

theorem insr (h : c.whole) {f} : ((Svx.insr f c).getD c).whole := by
  refine h.orNone ?_
  dsimp only
  split
  · exact h
  · exact h.putV

theorem freduce (h : c.whole) {g f} : ((Svx.freduce g f c).getD c).whole := by
  unfold Svx.freduce
  split
  · exact h
  · exact h.orNone h.setFreg.accrue

theorem widen (h : c.whole) {half n src dst m f} : (Svx.widen half n src dst m f c).whole := h.mapElems

theorem narrow (h : c.whole) {half n src dst m f} : (Svx.narrow half n src dst m f c).whole := h.putV.accrue

theorem sameSize (h : c.whole) {toFloat signed f} : ((Svx.sameSize toFloat signed f c).getD c).whole := by
  unfold Svx.sameSize
  split
  · exact h.mapElems
  · exact h

theorem fcvt (h : c.whole) {f} : ((Svx.fcvt f c).getD c).whole := by
  refine h.orNone ?_
  split
  exacts [h.widen, h.widen, h.widen, h.widen, h.narrow, h.narrow, h.narrow, h.narrow,
    h.widen, h.widen, h.narrow, h.narrow, h.sameSize, h.sameSize, h.sameSize, h.sameSize, h]

theorem vp (h : c.whole) {k f} : ((Svx.vp k f c).getD c).whole := by
  unfold Svx.vp
  split
  exacts [h.cmpInt, h.cmpInt, h.cmpInt, h.cmpFloat, h.cmpFloat, h.cmpFloat, h.cmpFloat,
    h.orNone h.putP, h.orNone h.putP,
    h.orNone h.setReg, h.orNone h.setReg, h.orNone h.setReg, h.orNone h.putP, h.orNone h.mapElems, h.orNone h.mapElems,
    h.orNone h.setReg, h.insr, h.orNone h.mapElems, h.orNone h.setReg, h.freduce, h.freduce, h.freduce, h.fcvt, h]

end HostCore.whole
end Sys2Proof.Machine

end

section
/-! What every operation of the model keeps. `s0.Keeps t` says that `t` is as whole as `s0` was; each operation of the
model has one lemma, named after it, that carries `s0.Keeps s` over to the state that it leaves, and follows the
operation's own branches and calls. The lemmas stand in the order of the model's files. -/

namespace Sys2Proof.Machine

/-- The state that a memory operation of a core leaves. -/
def MemRes.state {α : Type} : MemRes α → State
  | .ok _ s => s
  | .trap _ s => s

/-- The state that an instruction of a core leaves. -/
def IRes.state : IRes → State
  | .done s => s
  | .jump s _ => s
  | .ret s _ => s
  | .wait s => s
  | .trap s _ _ => s

/-- The state that the body of a queue's command leaves; one that fails leaves `s`, the state it began in. -/
def Res.stateOr (s : State) : Res → State
  | .ok t _ _ => t
  | .jump t _ => t
  | .fail _ _ => s
  | .wait t _ => t
  | .halt t => t
  | .fault t _ _ _ _ => t

/-- The state that an update of a shard leaves; one that does not apply leaves `s`, the state it began in. -/
def Update.End.stateOr (s : State) : Update.End → State
  | .ok t => t
  | .fail _ => s
  | .poisoned _ => s

namespace State

/-- The invariant over the fields that it speaks of, so that a change of any other field leaves it as it stands: whole if `s0` was,
the queue of commands and the identity of `s0`, unfit if `s0` was, and no fault forgotten. -/
def Guard (s0 : State) (mem : Memory) (edern : List Edern) (ports : List Port) (eth : List EthPort)
    (cores : List HostCore) (mailboxes : List Mailbox) (judges : List Judge) (tracks : List Track)
    (heats : List HeatCount) (pending : List Instr) (serial : W64) (unfit : Bool) (faultsEver : Nat) : Prop :=
  (s0.kept → mem.wf = true ∧ edern.length = 8 ∧ ports.length = 7 ∧ eth.length = 8 ∧ cores.length = 32 ∧
    mailboxes.length = 64 ∧ judges.length = 3 ∧ tracks.length = 2 ∧ heats.length = 100 ∧
    ∀ c ∈ cores, c.whole) ∧
  pending = s0.pending ∧ serial = s0.serial ∧ (s0.unfit = true → unfit = true) ∧ s0.faultsEver ≤ faultsEver

/-- What no command takes from the state `s0` that it began in. -/
structure Keeps (s0 t : State) : Prop where
  guard : Guard s0 t.mem t.edern t.ports t.eth t.cores t.mailboxes t.judges t.tracks t.heats t.pending t.serial t.unfit
    t.faultsEver

variable {s0 s t : State} {w : Work}

namespace Keeps

theorem refl : s0.Keeps s0 := ⟨id, rfl, rfl, id, le_rfl⟩

/-- The fields that the invariant does not speak of are free to change. -/
theorem frame (h : s0.Keeps s)
    {free queues rings jobs unitMap mapCopies retiredCores poisoned caches reservations shadows shadowRegions now dev
    events backlog backlogLost console faultLog faultCnt restarts jobsHeld out reply replyStatus groups
    chains chainIds chainEnds early topo pair transfers spareRecords notices starter sessions qps pacer pace temps power
    inputs telem worked} : s0.Keeps
    { s with
      free, queues, rings, jobs, unitMap, mapCopies, retiredCores, poisoned, caches, reservations, shadows,
      shadowRegions, now, dev, events, backlog, backlogLost, console, faultLog, faultCnt, restarts,
      jobsHeld, out, reply, replyStatus, groups, chains, chainIds, chainEnds, early, topo, pair, transfers,
      spareRecords, notices, starter, sessions, qps, pacer, pace, temps, power, inputs, telem, worked } := ⟨h.guard⟩

theorem ite {c : Prop} [Decidable c] (hs : s0.Keeps s) (ht : s0.Keeps t) : s0.Keeps (if c then s else t) := by
  split
  · exact hs
  · exact ht

theorem foldl {α : Type} {f : State → α → State} {l : List α} (h : s0.Keeps s)
    (hf : ∀ s x, s0.Keeps s → s0.Keeps (f s x)) : s0.Keeps (l.foldl f s) := by
  induction l generalizing s with
  | nil => exact h
  | cons x l ih => exact ih (hf s x h)

theorem foldlWork {α : Type} {f : Work → α → Work} {l : List α} {w : Work} (h : s0.Keeps w.s)
    (hf : ∀ w x, s0.Keeps w.s → s0.Keeps (f w x).s) : s0.Keeps (l.foldl f w).s := by
  induction l generalizing w with
  | nil => exact h
  | cons x l ih => exact ih (hf w x h)

theorem foldlFst {α β : Type} {f : Work × β → α → Work × β} {l : List α} {w : Work × β} (h : s0.Keeps w.1.s)
    (hf : ∀ w x, s0.Keeps w.1.s → s0.Keeps (f w x).1.s) : s0.Keeps (l.foldl f w).1.s := by
  induction l generalizing w with
  | nil => exact h
  | cons x l ih => exact ih (hf w x h)

theorem ofOk {α : Type} {r : MemRes α} {v : α} (h : s0.Keeps r.state) (e : r = .ok v s) : s0.Keeps s := by
  subst e
  exact h

theorem ofTrap {α : Type} {r : MemRes α} {c : Nat} (h : s0.Keeps r.state) (e : r = .trap c s) : s0.Keeps s := by
  subst e
  exact h

/-! ### The fields that the invariant speaks of -/

theorem mem {m : Memory} (h : s0.Keeps s) (hm : s.mem.wf = true → m.wf = true) : s0.Keeps { s with mem := m } := by
  obtain ⟨hk, hg⟩ := h.guard
  exact ⟨fun h0 => ⟨hm (hk h0).1, (hk h0).2⟩, hg⟩

theorem edern {l : List Edern} (h : s0.Keeps s) (hl : l.length = s.edern.length) : s0.Keeps { s with edern := l } :=
  ⟨by have := h.guard; unfold Guard at this ⊢; rwa [hl]⟩

theorem ports {l : List Port} (h : s0.Keeps s) (hl : l.length = s.ports.length) : s0.Keeps { s with ports := l } :=
  ⟨by have := h.guard; unfold Guard at this ⊢; rwa [hl]⟩

theorem eth {l : List EthPort} (h : s0.Keeps s) (hl : l.length = s.eth.length) : s0.Keeps { s with eth := l } :=
  ⟨by have := h.guard; unfold Guard at this ⊢; rwa [hl]⟩

theorem mailboxes {l : List Mailbox} (h : s0.Keeps s) (hl : l.length = s.mailboxes.length) :
    s0.Keeps { s with mailboxes := l } :=
  ⟨by have := h.guard; unfold Guard at this ⊢; rwa [hl]⟩

theorem judges {l : List Judge} (h : s0.Keeps s) (hl : l.length = s.judges.length) : s0.Keeps { s with judges := l } :=
  ⟨by have := h.guard; unfold Guard at this ⊢; rwa [hl]⟩

theorem tracks {l : List Track} (h : s0.Keeps s) (hl : l.length = s.tracks.length) : s0.Keeps { s with tracks := l } :=
  ⟨by have := h.guard; unfold Guard at this ⊢; rwa [hl]⟩

theorem heats {l : List HeatCount} (h : s0.Keeps s) (hl : l.length = s.heats.length) : s0.Keeps { s with heats := l } :=
  ⟨by have := h.guard; unfold Guard at this ⊢; rwa [hl]⟩

theorem cores {l : List HostCore} (h : s0.Keeps s) (hl : l.length = s.cores.length)
    (hw : (∀ c ∈ s.cores, c.whole) → ∀ c ∈ l, c.whole) : s0.Keeps { s with cores := l } := by
  have hg := h.guard
  refine ⟨fun hk => ?_, hg.2⟩
  obtain ⟨h1, h2, h3, h4, h5, h6, h7, h8, h9, h10⟩ := hg.1 hk
  exact ⟨h1, h2, h3, h4, hl.trans h5, h6, h7, h8, h9, hw h10⟩

/-- Marking the device unfit is the one change of `unfit` that the invariant allows. -/
theorem setUnfit (h : s0.Keeps s) : s0.Keeps { s with unfit := true } := by
  obtain ⟨hk, hp, hs, -, hf⟩ := h.guard
  exact ⟨hk, hp, hs, fun _ => rfl, hf⟩

theorem faultsEver {n : Nat} (h : s0.Keeps s) (hn : s.faultsEver ≤ n) : s0.Keeps { s with faultsEver := n } := by
  obtain ⟨hk, hp, hs, hu, hf⟩ := h.guard
  exact ⟨hk, hp, hs, hu, hf.trans hn⟩

theorem mapCores {f : HostCore → HostCore} (h : s0.Keeps s) (hf : ∀ c, c.whole → (f c).whole) :
    s0.Keeps { s with cores := s.cores.map f } := by
  refine h.cores (List.length_map _) fun hw c hc => ?_
  obtain ⟨d, hd, rfl⟩ := List.mem_map.1 hc
  exact hf d (hw d hd)

theorem core (h : ∀ c ∈ s.cores, c.whole) (n : Nat) : (s.core n).whole := by
  rw [State.core, List.getD_eq_getElem?_getD]
  by_cases hn : n < s.cores.length
  · rw [List.getElem?_eq_getElem hn]
    exact h _ (List.getElem_mem hn)
  · rw [List.getElem?_eq_none (Nat.le_of_not_lt hn)]
    exact ⟨rfl, rfl, rfl⟩

/-! ### Through branches, folds and pairs -/

theorem iteWork {c : Prop} [Decidable c] {w1 w2 : Work} (h1 : s0.Keeps w1.s) (h2 : s0.Keeps w2.s) :
    s0.Keeps (if c then w1 else w2).s := by
  split
  · exact h1
  · exact h2

theorem iteFst {c : Prop} [Decidable c] {β : Type} {x y : Work × β} (h1 : s0.Keeps x.1.s) (h2 : s0.Keeps y.1.s) :
    s0.Keeps (if c then x else y).1.s := by
  split
  · exact h1
  · exact h2

theorem foldlSnd {α β : Type} {f : β × State → α → β × State} {l : List α} {x : β × State}
    (h : s0.Keeps x.2) (hf : ∀ x a, s0.Keeps x.2 → s0.Keeps (f x a).2) : s0.Keeps (l.foldl f x).2 := by
  induction l generalizing x with
  | nil => exact h
  | cons a l ih => exact ih (hf x a h)

theorem foldlPass {α β : Type} {f : Rows.Pass × β → α → Rows.Pass × β} {l : List α} {x : Rows.Pass × β}
    (h : s0.Keeps x.1.1.s) (hf : ∀ x a, s0.Keeps x.1.1.s → s0.Keeps (f x a).1.1.s) :
    s0.Keeps (l.foldl f x).1.1.s := by
  induction l generalizing x with
  | nil => exact h
  | cons a l ih => exact ih (hf x a h)

theorem foldlMemRes {α β γ : Type} {f : MemRes β × γ → α → MemRes β × γ} {l : List α} {x : MemRes β × γ}
    (h : s0.Keeps x.1.state) (hf : ∀ x a, s0.Keeps x.1.state → s0.Keeps (f x a).1.state) :
    s0.Keeps (l.foldl f x).1.state := by
  induction l generalizing x with
  | nil => exact h
  | cons a l ih => exact ih (hf x a h)

theorem ofPair {α : Type} {w : Work} {p : Work × α} {a : α} (h : s0.Keeps p.1.s) (e : p = (w, a)) : s0.Keeps w.s := by
  subst e
  exact h

theorem ofFst {β : Type} {r : State × β} {b : β} (h : s0.Keeps r.1) (e : r = (s, b)) : s0.Keeps s := by
  subst e
  exact h

theorem ofSnd {β : Type} {r : β × State} {b : β} (h : s0.Keeps r.2) (e : r = (b, s)) : s0.Keeps s := by
  subst e
  exact h

theorem ofOkPair {α β : Type} {r : MemRes α × β} {v : α} {b : β} (h : s0.Keeps r.1.state) (e : r = (.ok v s, b)) :
    s0.Keeps s := by
  subst e
  exact h

theorem ofTrapPair {α β : Type} {r : MemRes α × β} {c : Nat} {b : β} (h : s0.Keeps r.1.state)
    (e : r = (.trap c s, b)) : s0.Keeps s := by
  subst e
  exact h

/-! ### Ops -/

theorem store (h : s0.Keeps s) {a bs} : s0.Keeps (s.store a bs) := (h.mem fun hm => Memory.wf_setBytes hm a bs).frame

theorem storeNat (h : s0.Keeps s) {a n v} : s0.Keeps (s.storeNat a n v) := h.store

theorem store64 (h : s0.Keeps s) {a v} : s0.Keeps (s.store64 a v) := h.store

theorem storeAll (h : s0.Keeps s) {ws} : s0.Keeps (s.storeAll ws) := h.foldl fun _ _ h => h.store

theorem recallBlocks (h : s0.Keeps s) {a n} : s0.Keeps (s.recallBlocks a n) := h.frame

theorem fresh (h : s0.Keeps s) : s0.Keeps s.fresh.2 := h.frame

theorem setQueue (h : s0.Keeps s) {q} : s0.Keeps (s.setQueue q) := h.frame

theorem setJob (h : s0.Keeps s) {j} : s0.Keeps (s.setJob j) := h.frame

theorem modJob (h : s0.Keeps s) {id f} : s0.Keeps (s.modJob id f) := h.frame

theorem endChains (h : s0.Keeps s) {f st} : s0.Keeps (s.endChains f st) := h.frame

theorem countUe (h : s0.Keeps s) {st addr} : s0.Keeps (s.countUe st addr) := h.edern (by simp)

theorem ringPut (h : s0.Keeps s) {r rec} : s0.Keeps (s.ringPut r rec) := h.store.store64

theorem ringWrite (h : s0.Keeps s) {rec r} : s0.Keeps (State.ringWrite rec s r) := h.store64.ite h.ringPut

theorem toBacklog (h : s0.Keeps s) {rec} : s0.Keeps (s.toBacklog rec) := h.frame.ite h.frame

theorem noteEvent (h : s0.Keeps s) {rec} : s0.Keeps (s.noteEvent rec) := h.frame

theorem logFault (h : s0.Keeps s) {rec_} : s0.Keeps (s.logFault rec_) := (h.faultsEver (Nat.le_succ _)).frame

theorem strike (h : s0.Keeps s) {l} : s0.Keeps (s.strike l) :=
  h.countUe.logFault.noteEvent.toBacklog.ite (h.countUe.logFault.noteEvent.foldl fun _ _ h => h.ringWrite)

theorem ownStore (h : s0.Keeps s) {a bs} : s0.Keeps (s.ownStore a bs) := by
  unfold State.ownStore
  split
  · exact h.strike
  · exact h.store

theorem ringEvent (h : s0.Keeps s) {rec r} : s0.Keeps (State.ringEvent rec s r) := by
  unfold State.ringEvent
  split
  · exact h.strike
  · exact h.ringWrite

theorem postRecord (h : s0.Keeps s) {rings device rec} : s0.Keeps (s.postRecord rings device rec) := by
  unfold State.postRecord
  extract_lets s1 s2
  have h2 : s0.Keeps s2 := h.noteEvent.foldl fun _ _ h => h.ringEvent
  exact (h2.toBacklog.ite (h2.foldl fun _ _ h => h.ringEvent)).ite h2

theorem postQueue (h : s0.Keeps s) {e q tag payload} : s0.Keeps (s.postQueue e q tag payload) := h.postRecord

theorem postJob (h : s0.Keeps s) {e j step payload} : s0.Keeps (s.postJob e j step payload) := h.postRecord

theorem noteEdge (h : s0.Keeps s) {i} : s0.Keeps (s.noteEdge i) := h.frame.postRecord.ite h.frame

theorem setDrive (h : s0.Keeps s) {on} : s0.Keeps (s.setDrive on) := h.ite (h.frame.noteEdge.ite h.frame)

theorem followAlert (h : s0.Keeps s) : s0.Keeps s.followAlert := h.setDrive

theorem raiseAlert (h : s0.Keeps s) {b} : s0.Keeps (s.raiseAlert b) := h.frame.followAlert

theorem postDevice (h : s0.Keeps s) {e payload} : s0.Keeps (s.postDevice e payload) := by
  unfold State.postDevice
  split
  · exact h.postRecord.raiseAlert
  · exact h.postRecord

/-! ### Packets -/

theorem setPort (h : s0.Keeps s) {p x} : s0.Keeps (s.setPort p x) := h.ports (by simp)

theorem modPort (h : s0.Keeps s) {p f} : s0.Keeps (s.modPort p f) := h.setPort

theorem sendFlit (h : s0.Keeps s) {p f resent} : s0.Keeps (s.sendFlit p f resent) := h.modPort.frame

theorem sendPlainFlit (h : s0.Keeps s) {p ftype} : s0.Keeps (s.sendPlainFlit p ftype) := h.setPort.sendFlit

theorem sendData (h : s0.Keeps s) {p pstart stream} : s0.Keeps (s.sendData p pstart stream) := h.setPort.sendFlit

theorem sendStream (h : s0.Keeps s) {p n pstart bs} : s0.Keeps (State.sendStream p n pstart bs s) := by
  induction n generalizing s pstart bs with
  | zero => exact h
  | succ n ih => exact ih h.sendData

theorem markStarved (h : s0.Keeps s) {p} : s0.Keeps (s.markStarved p) := h.modPort

theorem startPacket (h : s0.Keeps s) {p k} : s0.Keeps (s.startPacket p k) := h.modPort.frame.sendStream

theorem pump (h : s0.Keeps s) {p n} : s0.Keeps (State.pump p n s) := by
  induction n generalizing s with
  | zero => exact h.markStarved
  | succ n ih =>
    unfold State.pump
    split
    · exact ih h.modPort.startPacket
    · exact h.markStarved

theorem send (h : s0.Keeps s) {p k} : s0.Keeps (s.send p k) := h.modPort.pump

theorem notify (h : s0.Keeps s) {ps job n origin number value more} :
    s0.Keeps (s.notify ps job n origin number value more) := h.foldl fun _ _ h => h.send

theorem originate (h : s0.Keeps s) {job n number value more} : s0.Keeps (s.originate job n number value more) :=
  h.modJob.notify

theorem flood (h : s0.Keeps s) {job n value more} : s0.Keeps (s.flood job n value more) := h.frame.originate

theorem sampleJudge (h : s0.Keeps s) {p k work output} : s0.Keeps (s.sampleJudge p k work output) :=
  (h.judges (by simp)).ite h

/-! ### Faults -/

theorem recordFault (h : s0.Keeps s) {f} : s0.Keeps (s.recordFault f) := by
  unfold State.recordFault
  exact h.logFault.postRecord

theorem emptyStash (h : s0.Keeps s) {commit q} : s0.Keeps (State.emptyStash commit s q) := by
  unfold State.emptyStash
  refine .ite ?_ ?_
  · exact h
  · split
    · exact h.strike
    · exact h.storeAll

theorem tellCores (h : s0.Keeps s) {id tag step} : s0.Keeps (s.tellCores id tag step) := by
  refine h.foldl fun _ _ h => ?_
  refine .ite ?_ ?_
  · exact h
  · split
    · exact h.strike
    · exact h.ringPut

theorem floodSerial (h : s0.Keeps s) {job} : s0.Keeps (s.floodSerial job) := by
  unfold State.floodSerial
  split
  · exact h.notify
  · exact h

theorem dropLeftOut (h : s0.Keeps s) {job} : s0.Keeps (s.dropLeftOut job) := by
  unfold State.dropLeftOut
  split
  · exact h.modJob.floodSerial.ite h
  · exact h

theorem noteDevices (h : s0.Keeps s) {job origin mech outcome serial group} :
    s0.Keeps (s.noteDevices job origin mech outcome serial group) := h.modJob.dropLeftOut

theorem noteRecord (h : s0.Keeps s) {job origin rec_} : s0.Keeps (s.noteRecord job origin rec_) := h.noteDevices

theorem stopJob (h : s0.Keeps s) {id} : s0.Keeps (s.stopJob id) := by
  have he : s0.Keeps (((s.queues.filter fun q : CmdQueue => q.job == id).foldl (State.emptyStash false) s).endChains
      (fun c => c.job == id) .fault) := (h.foldl fun _ _ h => h.emptyStash).endChains
  refine modJob ?_
  exact ⟨(he.judges (List.length_map _)).guard⟩

theorem haltJob (h : s0.Keeps s) {id number} : s0.Keeps (s.haltJob id number) := by
  unfold State.haltJob
  split
  · exact h
  · exact h.stopJob.frame.modJob.tellCores.floodSerial.postJob

theorem faultJob (h : s0.Keeps s) {id number} : s0.Keeps (s.faultJob id number) := by
  unfold State.faultJob
  split
  · exact h
  · split
    · exact h.haltJob
    · exact h.haltJob.ite h
    · exact h

theorem holdJob (h : s0.Keeps s) {id cause} : s0.Keeps (s.holdJob id cause) := by
  unfold State.holdJob
  split
  · exact h
  · exact (h.stopJob.ite h).frame.modJob.postJob

theorem holdAll (h : s0.Keeps s) {id cause} : s0.Keeps (s.holdAll id cause) := h.flood.holdJob

theorem becomeUnfit (h : s0.Keeps s) {number} : s0.Keeps (s.becomeUnfit number) := by
  refine .ite h (.foldl (.ite ?_ ?_) fun s j h => .ite h.faultJob.holdAll h.faultJob)
  · exact (setUnfit h).raiseAlert.frame.postDevice
  · exact (setUnfit h).raiseAlert

theorem freshStores (h : s0.Keeps s) {heat} : s0.Keeps (s.freshStores heat) := h.mem fun hm => Memory.wf_without hm _ _

theorem writeMap (h : s0.Keeps s) {m} : s0.Keeps (s.writeMap m) := h.frame

theorem retireUnit (h : s0.Keeps s) {p} : s0.Keeps (s.retireUnit p) := by
  unfold State.retireUnit
  split
  · exact h.writeMap.ite h.writeMap.freshStores
  · exact h.writeMap

theorem loseStack (h : s0.Keeps s) {st} : s0.Keeps (s.loseStack st) := h.frame

theorem faultNotify (h : s0.Keeps s) {rec_ number j} : s0.Keeps (State.faultNotify rec_ number s j) :=
  h.originate.noteRecord.faultJob

theorem retireHeat (h : s0.Keeps s) {heat : Option Nat} : s0.Keeps ((heat.map s.retireUnit).getD s) := by
  cases heat with
  | none => exact h
  | some p => exact h.retireUnit

theorem detect (h : s0.Keeps s) {retire f} : s0.Keeps (s.detect retire f) := by
  unfold State.detect
  refine .ite (becomeUnfit ?_) ?_
  all_goals
    refine .foldl (retireHeat ?_) fun _ _ h => h.faultNotify
    refine .ite (frame ?_) ?_
    all_goals
      refine .ite (loseStack (recordFault ?_)) (recordFault ?_)
      all_goals exact .ite h.countUe h

/-! ### Queues -/

theorem countHeat (h : s0.Keeps s) {team st} : s0.Keeps (s.countHeat team st) := h.heats (by simp)

theorem finish (h : s0.Keeps s) {q d} : s0.Keeps (s.finish q d) := by
  dsimp only [State.finish]
  split
  · exact h.detect
  · split
    · refine .postRecord ?_
      refine .countHeat ?_
      refine .setQueue ?_
      split
      · exact h.ringPut.ite h
      · exact h
    · refine .countHeat ?_
      refine .setQueue ?_
      split
      · exact h.ringPut.ite h
      · exact h

theorem complete (h : s0.Keeps s) {q d} : s0.Keeps (s.complete q d) := h.setQueue.ite h.finish

theorem fireBreak (h : s0.Keeps s) {q i tag} : s0.Keeps (s.fireBreak q i tag) := h.setQueue.postQueue

theorem settleRes (h : s0.Keeps s) {c q x} (hx : s0.Keeps (x.stateOr s)) : s0.Keeps (State.settleRes c q x s) := by
  unfold State.settleRes
  split
  case h_4 =>
    split
    · exact setQueue hx
    · exact hx
  case h_3 => exact h.complete
  case h_6 => exact detect hx
  all_goals
    split
    · exact complete hx
    · exact hx

theorem runCmd {body} (h : s0.Keeps s) (hbody : ∀ x0 t, s0.Keeps t → s0.Keeps ((body x0 t).stateOr t)) {c q chk} :
    s0.Keeps (State.runCmd c q chk body s) := by
  unfold State.runCmd
  split
  · exact h.complete
  · exact h.settleRes (hbody _ _ h)

theorem ranUnits (h : s0.Keeps s) {c n} : s0.Keeps (s.ranUnits c n) := h.frame

theorem fetched (h : s0.Keeps s) {q j w} : s0.Keeps (s.fetched q j w) := h.foldl fun _ _ h => h.recallBlocks

theorem runMacro {body} (h : s0.Keeps s) (hbody : ∀ x0 t, s0.Keeps t → s0.Keeps ((body x0 t).stateOr t))
    {mine chk qid} : s0.Keeps (State.runMacro mine chk body qid s) := by
  dsimp only [State.runMacro]
  split
  · exact h
  · split
    · exact h
    · refine .ite ?_ ?_
      · exact h
      · split
        · exact h.fireBreak
        · split
          · exact h.detect
          · exact h.complete.ite (h.ite (h.fetched.setQueue.runCmd (fun _ _ h => (hbody _ _ h))))

/-! ### Watch -/

theorem writeWatch (h : s0.Keeps s) {j skipped} : s0.Keeps (s.writeWatch j skipped) := by
  dsimp only [State.writeWatch]
  refine .ite ?_ ?_
  · exact h
  · split
    · exact h.strike
    · exact h.store64.postJob.ite h.storeAll.store64

/-! ### Tensors -/

theorem unpoison (h : s0.Keeps s) {wrote} : s0.Keeps (s.unpoison wrote) := h.frame

theorem recallSpans (h : s0.Keeps s) {read} : s0.Keeps (s.recallSpans read) := h.frame

theorem workStart (h : s0.Keeps s) {j} : s0.Keeps (Work.start s j).s := h

theorem workClose (h : s0.Keeps w.s) {job} : s0.Keeps (w.close job) := h.modJob

theorem workPutSpan (h : s0.Keeps w.s) {a bs x} : s0.Keeps (w.putSpan a bs x).s := h.store

theorem workPut (h : s0.Keeps w.s) {a bs} : s0.Keeps (w.put a bs).s := h.workPutSpan

theorem workPutBits (h : s0.Keeps w.s) {a n v} : s0.Keeps (w.putBits a n v).s := by
  unfold Work.putBits
  split <;> exact h.workPutSpan

theorem workNoteRead (h : s0.Keeps w.s) {xs} : s0.Keeps (w.noteRead xs).s := h

theorem workCount (h : s0.Keeps w.s) {src dst fs ft o e} : s0.Keeps (w.count src dst fs ft o e).s := h

theorem workArith (h : s0.Keeps w.s) {f n} : s0.Keeps (w.arith f n).s := h

theorem workPutElem (h : s0.Keeps w.s) {env d rnd i} : s0.Keeps (Work.putElem env d rnd w i).s :=
  h.workPutBits.workCount

theorem workPutBlock (h : s0.Keeps w.s) {env d rnd items} : s0.Keeps (Work.putBlock env d rnd w items).s := by
  unfold Work.putBlock
  split
  · exact h
  · exact h.workNoteRead.workPut.foldlWork fun _ _ h => h.workPutBits.workCount

theorem workPutItems (h : s0.Keeps w.s) {env d rnd items} : s0.Keeps (Work.putItems env d rnd w items).s := by
  unfold Work.putItems
  split
  · exact h.foldlWork fun _ _ h => h.workPutBlock
  · exact h.foldlWork fun _ _ h => h.workPutElem

theorem workLoad (h : s0.Keeps w.s) {env d unit field sat idx} :
    s0.Keeps (Work.load env d unit field sat w idx).1.s := h.workCount

theorem workLoadAs (h : s0.Keeps w.s) {env d idx} : s0.Keeps (Work.loadAs env d w idx).1.s := h.workCount

theorem workMoveElem (h : s0.Keeps w.s) {env a b ia ib} : s0.Keeps (Work.moveElem env a b w ia ib).s := by
  unfold Work.moveElem
  split
  · exact h.workPutBits.workPut
  · exact h.workPutBits

/-! ### Move -/

theorem cmdWork {f} (h : s0.Keeps s) (hf : ∀ t, s0.Keeps t.s → s0.Keeps (f t).1.s) {c units ins} :
    s0.Keeps ((Cmd.work c s units ins f).stateOr s) := by
  dsimp only [Cmd.work]
  split
  · exact h
  · exact (hf _ h.recallSpans.workStart).workClose.unpoison.recallSpans.ranUnits

theorem workRound (h : s0.Keeps w.s) {f mode sat x} : s0.Keeps (w.round f mode sat x).1.s := by
  dsimp only [Work.round]
  split
  · exact h.workArith
  · exact h

theorem workConvertAll (h : s0.Keeps w.s) {env a b field sat} : s0.Keeps (Work.convertAll env a b field sat w).s :=
  h.workPutItems

theorem workMoveAll (h : s0.Keeps w.s) {env a b} : s0.Keeps (Work.moveAll env a b w).s :=
  h.foldlWork fun _ _ h => h.workMoveElem

theorem copyBody (h : s0.Keeps s) {asMove more c} : s0.Keeps ((Machine.copyBody asMove more c s).stateOr s) := by
  unfold Machine.copyBody
  split
  · exact h.cmdWork fun _ h => foldlWork (iteWork h.workMoveAll h.workConvertAll) fun _ _ h => h.workMoveAll
  · exact h

theorem loadBody (h : s0.Keeps s) {c} : s0.Keeps ((Machine.loadBody c s).stateOr s) := by
  unfold Machine.loadBody
  split
  · split
    · exact h.cmdWork fun _ h => foldlWork (iteWork h.workMoveAll h.workConvertAll) fun _ _ h => h.workMoveAll
    · exact h
  · exact h

theorem fillBody (h : s0.Keeps s) {c} : s0.Keeps ((Machine.fillBody c s).stateOr s) := by
  unfold Machine.fillBody
  split
  · refine h.cmdWork fun _ h => ?_
    split
    · exact h.foldlWork fun _ _ h => h.workPutBits
    · exact h.workPutItems
  · exact h

theorem gatherRow (h : s0.Keeps w.s) {env a b rnd i r} : s0.Keeps (Machine.gatherRow env a b rnd w i r).s := by
  unfold Machine.gatherRow
  split
  · exact h.workPutItems
  · split
    · exact h.foldlWork fun _ _ h => h.workMoveElem
    · exact h.workPutItems

theorem gatherBody (h : s0.Keeps s) {c} : s0.Keeps ((Machine.gatherBody c s).stateOr s) := by
  unfold Machine.gatherBody
  split
  · exact h.cmdWork fun _ h => (h.foldlWork fun _ _ h => h.gatherRow)
  · exact h

theorem scatterOp (h : s0.Keeps w.s) {op W acc x} : s0.Keeps (Machine.scatterOp op W w acc x).1.s := by
  unfold Machine.scatterOp
  split
  · exact h
  · exact h.workRound
  · exact h
  · exact h

theorem scatterElem (h : s0.Keeps w.s) {env op a b field sat srcs ia ib} :
    s0.Keeps (Machine.scatterElem env op a b field sat srcs w ia ib).1.s :=
  h.workLoad.foldlFst fun _ _ h => h.workLoad.scatterOp

theorem scatterRow (h : s0.Keeps w.s) {env op a b field sat idx r} :
    s0.Keeps (Machine.scatterRow env op a b field sat idx w r).s := by
  refine workPutItems ?_
  exact foldlFst h fun _ _ h => h.scatterElem

theorem scatterBody (h : s0.Keeps s) {c} : s0.Keeps ((Machine.scatterBody c s).stateOr s) := by
  unfold Machine.scatterBody
  split
  · exact h.cmdWork fun _ h => (h.foldlWork fun _ _ h => h.scatterRow)
  · exact h

theorem rngElem (h : s0.Keeps w.s) {env dist pa pb d rnd ix} :
    s0.Keeps (Machine.rngElem env dist pa pb d rnd w ix).s := by
  unfold Machine.rngElem
  split <;> exact h.workPutBits

theorem rngBody (h : s0.Keeps s) {c} : s0.Keeps ((Machine.rngBody c s).stateOr s) := by
  unfold Machine.rngBody
  split
  · exact h.cmdWork fun _ h => (h.foldlWork fun _ _ h => h.rngElem)
  · exact h

theorem nopBody (h : s0.Keeps s) {x} : s0.Keeps ((Machine.nopBody x s).stateOr s) := h

/-! ### Matrix -/

theorem accPut (h : s0.Keeps w.s) {k old x} : s0.Keeps (Machine.accPut k w old x).1.s := by
  unfold Machine.accPut
  split
  · exact h.workRound
  · exact h
  · exact h

theorem accumulate (h : s0.Keeps w.s) {k acc s1} : s0.Keeps (Machine.accumulate k w acc s1).1.s := h.accPut

theorem element (h : s0.Keeps w.s) {kind g K a b acc} : s0.Keeps (Machine.element kind g K a b w acc).1.s :=
  h.foldlFst fun _ _ h => h.accumulate

theorem levelZero (h : s0.Keeps w.s) {kind op acc t} : s0.Keeps (Machine.levelZero kind op w acc t).1.s := by
  unfold Machine.levelZero
  split
  · exact h.accPut
  · exact h.accPut
  · exact h

theorem stageRound (h : s0.Keeps w.s) {W last rnd r x} : s0.Keeps (Machine.stageRound W last rnd r w x).1.s :=
  iteWork h.workArith h

theorem finishRun (h : s0.Keeps w.s) {f exact rnd r x s1 b} : s0.Keeps (Finish.run f exact rnd r w x s1 b).1.s := by
  dsimp only [Finish.run]
  split
  · exact h
  · split
    · refine .stageRound ?_
      split
      · refine .stageRound ?_
        split
        · exact h.stageRound
        · exact h
      · split
        · exact h.stageRound
        · exact h
    · split
      · refine .stageRound ?_
        split
        · exact h.stageRound
        · exact h
      · split
        · exact h.stageRound
        · exact h

theorem gemmCountLoads (h : s0.Keeps w.s) {env d} : s0.Keeps (Gemm.countLoads env d w).s :=
  h.foldlWork fun _ _ h => h.workLoadAs

theorem gemmDeliver (h : s0.Keeps w.s) {env d unit} : s0.Keeps (Gemm.deliver env d unit w).s :=
  h.foldlWork fun _ _ h => h.workLoad

theorem gemmOutElem (h : s0.Keeps w.s) {env c k p fin rnd exact s1 idx} :
    s0.Keeps (Gemm.outElem env c k p fin rnd exact s1 w idx).1.s := h.element.levelZero.finishRun

theorem gemmOutAll (h : s0.Keeps w.s) {env c k p fin rnd s1} : s0.Keeps (Gemm.outAll env c k p fin rnd s1 w).1.s :=
  h.foldlFst fun _ _ h => h.gemmOutElem

theorem gemmBody (h : s0.Keeps s) {c} : s0.Keeps ((Gemm.body c s).stateOr s) := by
  unfold Gemm.body
  split
  · dsimp only
    split
    · exact h
    · split
      · exact h
      · refine h.cmdWork fun _ h => iteFst h (workPutItems (gemmOutAll ?_))
        exact ((h.gemmCountLoads.gemmCountLoads.foldlWork fun _ _ h => h.gemmDeliver).foldlWork fun _ _ h =>
          h.gemmDeliver).foldlWork fun _ _ h => h.gemmDeliver
  · exact h

theorem bwdDxItems (h : s0.Keeps w.s) {env c y wt uy uw h5 d rnd s1} :
    s0.Keeps (Bwd.dxItems env c y wt uy uw h5 d rnd s1 w).1.s :=
  h.foldlFst fun _ _ h => h.element.levelZero.finishRun

theorem bwdDwItems (h : s0.Keeps w.s) {env c y x uy ux m d rnd s1} :
    s0.Keeps (Bwd.dwItems env c y x uy ux m d rnd s1 w).1.s :=
  foldlFst h fun _ _ h =>
    iteFst (iteWork (workNoteRead (finishRun h.element (b := .zero))) (finishRun h.element (b := .zero)))
      (finishRun h.element (b := .zero))

theorem bwdGive (h : s0.Keeps w.s) {b : Bool} {env d u} :
    s0.Keeps (if b then Gemm.deliver env d u w else w).s := iteWork h.gemmDeliver h

theorem bwdBody (h : s0.Keeps s) {c} : s0.Keeps ((Bwd.body c s).stateOr s) := by
  unfold Bwd.body
  split
  · split
    · refine h.cmdWork fun w h => ?_
      dsimp only
      split
      · refine workPutItems (bwdDwItems (bwdGive ?_))
        split
        · refine workPutItems (bwdDxItems ?_)
          exact h.bwdGive.bwdGive.foldlWork fun _ _ h => h.gemmDeliver
        · exact h.bwdGive
      · split
        · refine workPutItems (bwdDxItems ?_)
          exact h.bwdGive.bwdGive.foldlWork fun _ _ h => h.gemmDeliver
        · exact h.bwdGive
    · exact h
  · exact h

/-! ### Rows -/

theorem reduceLoad (h : s0.Keeps w.s) {env a idx} : s0.Keeps (Machine.reduceLoad env a w idx).1.s := by
  unfold Machine.reduceLoad
  split
  · exact h.workLoad
  · exact h.workLoadAs

theorem loadLine (h : s0.Keeps w.s) {env a cells} : s0.Keeps (Machine.loadLine env a w cells).1.s :=
  h.foldlFst fun _ _ h => h.reduceLoad

theorem sumLine (h : s0.Keeps w.s) {k xs} : s0.Keeps (Machine.sumLine k w xs).1.s :=
  h.foldlFst fun _ _ h => h.accumulate

theorem amaxInt (h : s0.Keeps w.s) {v} : s0.Keeps (Machine.amaxInt w v).1.s := by
  unfold Machine.amaxInt
  split
  · exact h
  · exact h.fresh

theorem reduceLine (h : s0.Keeps w.s) {k block op xs} : s0.Keeps (Machine.reduceLine k block op w xs).1.s := by
  unfold Machine.reduceLine
  split
  · exact h.sumLine
  · exact h.sumLine
  · refine iteFst (amaxInt (iteFst (foldlFst h fun w x h => ?_) h)) (iteFst (foldlFst h fun w x h => ?_) h)
    all_goals exact workRound h (f := .fp32) (mode := .rne) (sat := false) (x := x)

theorem reduceSetReg (h : s0.Keeps s) {q i v} : s0.Keeps (Reduce.setReg s q i v) := h.frame

theorem reduceResults (h : s0.Keeps w.s) {env k opc d a} : s0.Keeps (Reduce.results env k opc d a w).1.s :=
  h.foldlFst fun _ _ h => h.loadLine.reduceLine

theorem reduceBody (h : s0.Keeps s) {c} : s0.Keeps ((Reduce.body c s).stateOr s) := by
  unfold Reduce.body
  split
  · refine h.cmdWork fun w h => iteWork ?_ ?_
    on_goal 1 => split
    on_goal 1 => refine reduceSetReg ?_
    all_goals
      split
      · exact h.reduceResults.workPutItems
      · exact h.reduceResults
  · exact h

theorem argredResults (h : s0.Keeps w.s) {env min d a} : s0.Keeps (Argred.results env min d a w).1.s :=
  h.foldlFst fun _ _ h => h.loadLine

theorem argredBody (h : s0.Keeps s) {c} : s0.Keeps ((Argred.body c s).stateOr s) := by
  unfold Argred.body
  split
  · refine h.cmdWork fun w h => iteWork ?_ ?_
    on_goal 1 => split
    on_goal 1 => refine reduceSetReg (reduceSetReg ?_)
    all_goals
      split
      on_goal 1 => refine foldlWork ?_ fun _ _ h => h.workPutBits
      all_goals
        split
        · exact h.argredResults.workPutItems
        · exact h.argredResults
  · exact h

theorem rowsR32 (h : s0.Keeps w.s) {x} : s0.Keeps (Rows.r32 w x).1.s := h.workRound

theorem rowsLoadRow (h : s0.Keeps w.s) {env x row} : s0.Keeps (Rows.loadRow env x w row).1.s := by
  refine h.foldlFst fun y ix h => ?_
  split
  next w1 xs =>
  split
  next e => exact ofPair (workLoad h) e

theorem rowsLoadVec (h : s0.Keeps w.s) {env v dflt len} : s0.Keeps (Rows.loadVec env v dflt len w).1.s := by
  unfold Rows.loadVec
  split
  · refine h.foldlFst fun x k h => ?_
    split
    next w1 xs =>
    split
    next e => exact ofPair (workLoad h) e
  · exact h

theorem rowsNormStats (h : s0.Keeps w.s) {rms eps xs} : s0.Keeps (Rows.normStats rms eps w xs).1.s := by
  unfold Rows.normStats
  refine rowsR32 (rowsR32 (iteFst ?_ (rowsR32 ?_)))
  all_goals exact sumLine (iteFst h h.sumLine)

theorem rowsRoundedSum (h : s0.Keeps w.s) {ts} : s0.Keeps (Rows.roundedSum w ts).1.s :=
  h.foldlFst fun _ _ h => h.rowsR32

theorem rowsRoundAll (h : s0.Keeps w.s) {ts} : s0.Keeps (Rows.roundAll w ts).1.s := h.foldlFst fun _ _ h => h.rowsR32

theorem passPut {x : Rows.Pass} (h : s0.Keeps x.1.s) {env d rnd} : s0.Keeps (Rows.Pass.put env d rnd x).s :=
  h.workPutItems

theorem rowsNormRow {x : Rows.Pass} (h : s0.Keeps x.1.s) {env rms eps d g b row} :
    s0.Keeps (Rows.normRow env rms eps d g b x row).1.s := rowsNormStats h.rowsLoadRow

theorem rowsNormBody (h : s0.Keeps s) {c} : s0.Keeps ((Rows.normBody c s).stateOr s) := by
  unfold Rows.normBody
  split
  · dsimp only
    split
    · exact h
    · refine h.cmdWork fun w h => iteFst h (passPut ?_)
      exact foldlFst h.rowsLoadVec.rowsLoadVec fun _ _ h => rowsNormRow h
  · exact h

theorem rowsNormbRow {x : Rows.Pass × List Num × List Num} (h : s0.Keeps x.1.1.s)
    {env rms eps d dy g wantG wantB row} :
    s0.Keeps (Rows.normbRow env rms eps d dy g wantG wantB x row).1.1.s := by
  unfold Rows.normbRow
  split
  split
  next w1 xs e =>
  replace h := ofPair h.rowsLoadRow e
  split
  next w2 ds e =>
  replace h := ofPair h.rowsLoadRow e
  extract_lets l
  split
  next w3 mu r ok e =>
  replace h := ofPair (rowsNormStats h) e
  split
  next w4 xh e =>
  replace h := ofPair h.rowsRoundAll e
  split
  next w5 gs e =>
  replace h := ofPair h.rowsRoundAll e
  split
  next w6 sg e =>
  replace h := ofPair h.rowsRoundedSum e
  split
  next w7 sgx e =>
  replace h := ofPair h.rowsRoundedSum e
  split
  next w8 c1 e =>
  replace h := ofPair (iteFst h h.rowsR32) e
  split
  next w9 c2 e =>
  replace h := ofPair h.rowsR32 e
  extract_lets
  split
  next w10 dg1 e =>
  replace h := ofPair (iteFst h.rowsRoundAll h) e
  split
  next w11 db1 e =>
  exact ofPair (iteFst h.rowsRoundAll h) e

theorem rowsAddInto (h : s0.Keeps w.s) {env d sums} : s0.Keeps (Rows.addInto env d w sums).s := h.workPutItems

theorem rowsNormbBody (h : s0.Keeps s) {c} : s0.Keeps ((Rows.normbBody c s).stateOr s) := by
  unfold Rows.normbBody
  split
  · dsimp only
    split
    · exact h
    · refine h.cmdWork fun w h => iteFst h ?_
      dsimp only
      refine foldlWork ?_ fun w x h => ?_
      rotate_left
      · exact rowsAddInto h
      refine foldlWork ?_ fun w x h => ?_
      rotate_left
      · exact rowsAddInto h
      refine passPut ?_
      exact foldlPass h.rowsLoadVec fun _ _ h => rowsNormbRow h
  · exact h

theorem rowsSmaxSum (h : s0.Keeps w.s) {m zs} : s0.Keeps (Rows.smaxSum w m zs).1.s := h.rowsRoundAll.rowsRoundedSum

theorem rowsSmaxRow {x : Rows.Pass} (h : s0.Keeps x.1.s) {env z row} : s0.Keeps (Rows.smaxRow env z x row).1.s := by
  unfold Rows.smaxRow
  dsimp only
  split
  · exact h.rowsLoadRow
  · exact h.rowsLoadRow
  · exact h.rowsLoadRow.rowsSmaxSum

theorem rowsSmaxBody (h : s0.Keeps s) {c} : s0.Keeps ((Rows.smaxBody c s).stateOr s) := by
  unfold Rows.smaxBody
  split
  · refine h.cmdWork fun w h => iteFst h (passPut ?_)
    exact foldlFst h fun _ _ h => rowsSmaxRow h
  · exact h

theorem rowsSmaxbRow {x : Rows.Pass} (h : s0.Keeps x.1.s) {env z dp row} :
    s0.Keeps (Rows.smaxbRow env z dp x row).1.s := by
  unfold Rows.smaxbRow
  dsimp only
  split
  · exact h.rowsLoadRow.rowsLoadRow
  · exact h.rowsLoadRow.rowsLoadRow
  · exact h.rowsLoadRow.rowsLoadRow.rowsSmaxSum.rowsRoundAll.rowsRoundedSum

theorem rowsSmaxbBody (h : s0.Keeps s) {c} : s0.Keeps ((Rows.smaxbBody c s).stateOr s) := by
  unfold Rows.smaxbBody
  split
  · refine h.cmdWork fun w h => iteFst h (passPut ?_)
    exact foldlFst h fun _ _ h => rowsSmaxbRow h
  · exact h

/-! ### Lanes -/

theorem laneRound (h : s0.Keeps w.s) {x mode sat v} : s0.Keeps (Machine.laneRound x w mode sat v).1.s := by
  dsimp only [Machine.laneRound]
  split
  · exact h.workArith
  · exact h

theorem laneRnd (h : s0.Keeps w.s) {x f mode sat r v} : s0.Keeps (Machine.laneRnd x w f mode sat r v).1.s := by
  dsimp only [Machine.laneRnd]
  split
  · exact h
  · split
    · exact h.workArith
    · exact h

theorem laneValue (h : s0.Keeps w.s) {x l i} : s0.Keeps (Machine.laneValue x w l i).1.s := by
  unfold Machine.laneValue
  split
  · exact h.laneRound
  · exact h.laneRound
  · exact h.laneRound
  · exact h.laneRound
  · exact h.laneRound
  · exact h.laneRound
  · exact h.laneRound
  · exact h
  · exact h
  · exact h
  · exact h
  · split
    · exact h.laneRound
    · exact h
  · split
    · exact h.laneRnd
    · exact h
  · exact h
  · exact h
  · exact h
  · exact h
  · exact h
  · exact h
  · exact h
  · exact h
  · exact h.laneRound
  · exact h
  · exact h
  · exact h
  · exact h

theorem laneStep {ld} (h : s0.Keeps w.s) (hld : ∀ t x1, s0.Keeps t.s → s0.Keeps (ld t x1).1.s) {x l i} :
    s0.Keeps (Machine.laneStep ld x w l i).1.s := by
  dsimp only [Machine.laneStep]
  split
  · exact h
  · split
    · exact hld _ _ h
    · split
      · exact h
      · split
        · exact h
        · split
          · exact h
          · exact h.laneValue

theorem runLane {ld} (h : s0.Keeps w.s) (hld : ∀ t x1, s0.Keeps t.s → s0.Keeps (ld t x1).1.s) {x p} :
    s0.Keeps (Machine.runLane ld x p w).1.s := h.foldlFst fun _ _ h => (h.laneStep (fun _ _ h => (hld _ _ h)))

theorem streamLoad (h : s0.Keeps w.s) {env unit d pos rm sat} :
    s0.Keeps (Machine.streamLoad env unit d pos rm sat w).1.s := by
  dsimp only [Machine.streamLoad]
  split
  · split
    · exact h.workLoadAs
    · exact h.workLoad
  · split
    · exact h.workCount
    · refine .workCount ?_
      split
      · exact h.fresh
      · exact h

theorem laneLoad (h : s0.Keeps w.s) {env unit modes ts s1 idx i} :
    s0.Keeps (Machine.laneLoad env unit modes ts s1 idx w i).1.s := by
  unfold Machine.laneLoad
  split
  · exact h
  · split
    · exact h
    · refine workNoteRead ?_
      exact h.frame

theorem runProgram (h : s0.Keeps w.s) {env p ts params modes places} :
    s0.Keeps (Machine.runProgram env p ts params modes places w).s := by
  unfold Machine.runProgram
  refine foldlWork (foldlFst h fun _ _ h => h.runLane fun _ _ h => h.laneLoad) fun _ _ h => ?_
  split
  · exact h
  · dsimp only
    split
    · exact h
    · exact h.workPutItems

theorem ewBody (h : s0.Keeps s) {c} : s0.Keeps ((Ew.body c s).stateOr s) := by
  unfold Ew.body
  split
  · exact h
  · extract_lets ts a
    split
    · exact h
    split
    · exact h
    · exact h.cmdWork fun _ h => h.runProgram

/-! ### Control -/

theorem scalMemory (h : s0.Keeps s) {c} : s0.Keeps ((Scal.memory c s).stateOr s) := by
  dsimp only [Scal.memory]
  split
  · exact h
  · split
    · exact h
    · split
      · exact h.recallBlocks.reduceSetReg
      · exact h.store64

theorem scalBody (h : s0.Keeps s) {c} : s0.Keeps ((Scal.body c s).stateOr s) := by
  dsimp only [Scal.body]
  split
  · exact h.scalMemory
  · split
    · split
      · exact h
      · exact h.reduceSetReg
    · exact h.reduceSetReg

theorem branchBody (h : s0.Keeps s) {c} : s0.Keeps ((Branch.body c s).stateOr s) := by
  dsimp only [Branch.body]
  split
  · split
    · exact h
    · exact h.setQueue
  · exact h

theorem lapOpBody (h : s0.Keeps s) {c} : s0.Keeps ((LapOp.body c s).stateOr s) := by
  dsimp only [LapOp.body]
  split
  · exact h
  · split
    · exact h
    · exact h.setQueue

theorem lapOpEndBody (h : s0.Keeps s) {c} : s0.Keeps ((LapOp.endBody c s).stateOr s) := by
  unfold LapOp.endBody
  split
  · exact h
  · split
    · exact h
    · split <;> exact h.setQueue

theorem syncOnWord (h : s0.Keeps s) {a r} (hr : s0.Keeps (r.stateOr s)) : s0.Keeps ((Sync.onWord s a r).stateOr s) := by
  unfold Sync.onWord
  split
  · exact h
  · exact hr

theorem syncWaitBody (h : s0.Keeps s) {c} : s0.Keeps ((Sync.waitBody c s).stateOr s) := by
  refine h.syncOnWord ?_
  split
  · exact h.recallBlocks
  · exact h.recallBlocks

theorem syncAddWord (h : s0.Keeps s) {a v} : s0.Keeps (Sync.addWord s a v) := h.store64

theorem syncAddBody (h : s0.Keeps s) {c} : s0.Keeps ((Sync.addBody c s).stateOr s) := h.syncOnWord h.syncAddWord

theorem syncPostBody (h : s0.Keeps s) {c} : s0.Keeps ((Sync.postBody c s).stateOr s) := by
  unfold Sync.postBody
  split
  · split
    · exact h
    · split
      · exact h
      · exact h.ringPut
  · exact h

theorem syncLocalBody (h : s0.Keeps s) {c} : s0.Keeps ((Sync.localBody c s).stateOr s) := by
  refine h.syncOnWord ?_
  split
  · exact h.syncAddWord
  · exact h.syncAddWord

theorem phaseBody (h : s0.Keeps s) {c} : s0.Keeps ((Machine.phaseBody c s).stateOr s) := h.setQueue

theorem ckptBody (h : s0.Keeps s) {c} : s0.Keeps ((Machine.ckptBody c s).stateOr s) := h.modJob

theorem commitBody (h : s0.Keeps s) {x} : s0.Keeps ((Machine.commitBody x s).stateOr s) := h

theorem tagBody (h : s0.Keeps s) {x} : s0.Keeps ((Machine.tagBody x s).stateOr s) := h

theorem fenceBody (h : s0.Keeps s) {c} : s0.Keeps ((Machine.fenceBody c s).stateOr s) := by
  unfold Machine.fenceBody
  split <;> exact h

theorem haltBody (h : s0.Keeps s) {x} : s0.Keeps ((Machine.haltBody x s).stateOr s) := h

theorem release {rel} (h : s0.Keeps s) (hrel : ∀ q t, rel q s = some t → s0.Keeps t) {qid} :
    s0.Keeps (State.release rel qid s) := by
  unfold State.release
  split
  · exact h
  · refine .ite h ?_
    split
    next s1 e =>
      split
      · exact (hrel _ _ e).complete
      · exact hrel _ _ e
    next => exact h

theorem cqRelease (h : s0.Keeps s) {qid} : s0.Keeps (Machine.cqRelease qid s) := by
  unfold Machine.cqRelease
  split
  · split
    · exact h.finish.ite h
    · exact h
  · exact h

theorem breakNow (h : s0.Keeps s) {qid} : s0.Keeps (Machine.breakNow qid s) := by
  unfold Machine.breakNow
  split
  · split
    · refine .ite ?_ ?_
      · split
        · exact h.fireBreak
        · exact h
      · exact h
    · exact h
  · exact h

theorem stashPoisonEnd (h : s0.Keeps s) {a} : s0.Keeps ((Stash.poisonEnd s a).stateOr s) := h

theorem stashBody (h : s0.Keeps s) {c} : s0.Keeps ((Stash.body c s).stateOr s) := by
  unfold Stash.body
  split
  · exact h
  split
  · exact h
  split
  · exact h
  extract_lets hd top live count as_ b head bump w w1
  have hb {t : State} (h : s0.Keeps t) : s0.Keeps (bump t) := h.storeNat.storeNat
  split
  · exact h.stashPoisonEnd
  split
  · exact h
  split
  · have hw : s0.Keeps w1.s := iteWork h.recallSpans.workStart h.recallSpans.workStart.workPut
    split
    · exact h.stashPoisonEnd
    · clear_value w1
      exact (hb hw.workClose.unpoison.store).storeNat.storeNat
  split
  · split
    · exact h.stashPoisonEnd
    · exact (hb h.store).storeNat
  · exact h

theorem stashRelease (h : s0.Keeps s) {hdr count i} : s0.Keeps (Stash.release s hdr count i) :=
  h.storeNat.storeNat.storeNat

theorem stashUnBody (h : s0.Keeps s) {c} : s0.Keeps ((Stash.unBody c s).stateOr s) := by
  dsimp only [Stash.unBody]
  split
  · exact h.reduceSetReg
  · split
    · exact h
    · split
      · exact h
      · split
        · exact h.stashPoisonEnd
        · split
          · exact h
          · split
            · exact h.stashRelease.reduceSetReg
            · split
              · exact h
              · split
                · exact h.stashPoisonEnd
                · exact (h.recallSpans.workStart.foldlWork
                    fun _ _ h => h.workPut).workClose.unpoison.stashRelease.reduceSetReg

/-! ### Access -/

theorem modSession (h : s0.Keeps s) {id f} : s0.Keeps (s.modSession id f) := h.frame

theorem ringQueue (h : s0.Keeps s) {qid v} : s0.Keeps (s.ringQueue qid v) := by
  unfold State.ringQueue
  split
  · exact h
  · exact h.ite (h.setQueue.ite h.postQueue)

theorem modMbox (h : s0.Keeps s) {m f} : s0.Keeps (s.modMbox m f) := h.mailboxes (by simp)

theorem ringMailbox (h : s0.Keeps s) {m} : s0.Keeps (s.ringMailbox m) := h.ite (h.modMbox.ite h.modMbox)

theorem mboxStatusWrite (h : s0.Keeps s) {m v} : s0.Keeps (s.mboxStatusWrite m v) := h.modMbox

theorem mboxAreaWrite (h : s0.Keeps s) {m off bs} : s0.Keeps (s.mboxAreaWrite m off bs) := h.ite h.store

/-! ### RegRead -/

theorem clearRc (h : s0.Keeps s) {b o} : s0.Keeps (s.clearRc b o) :=
  h.modPort.ite ((h.edern (by simp)).ite ((h.eth (by simp)).ite h))

theorem readReg (h : s0.Keeps s) {b o} : s0.Keeps (s.readReg b o).2 := by
  unfold State.readReg
  split
  · split
    · exact h
    · exact h.fresh
  · exact h.clearRc

theorem readWord (h : s0.Keeps s) {a} : s0.Keeps (s.readWord a).2 := by
  dsimp only [State.readWord]
  split
  · exact h.readReg
  · exact h
  · split <;> exact h
  · exact h

theorem readBytes (h : s0.Keeps s) {a n} : s0.Keeps (s.readBytes a n).2 := by
  unfold State.readBytes
  split
  · exact foldlSnd h fun _ _ h => h.readWord
  · exact foldlSnd h fun _ _ h => h.readWord
  · exact foldlSnd h fun _ _ h => h.readWord
  · exact h

/-! ### Harts -/

theorem setCore (h : s0.Keeps s) {n c} (hc : (s.core n).whole → c.whole := by exact fun h => h) :
    s0.Keeps (s.setCore n c) := by
  refine h.cores (by simp) fun hw x hx => ?_
  obtain hx | rfl := List.mem_or_eq_of_mem_set hx
  · exact hw x hx
  · exact hc (core hw n)

theorem modCore (h : s0.Keeps s) {n f} (hf : ∀ c : HostCore, c.whole → (f c).whole := by exact fun _ h => h) :
    s0.Keeps (s.modCore n f) := h.setCore (hf _)

theorem dropReservation (h : s0.Keeps s) {n} : s0.Keeps (s.dropReservation n) := h.frame

theorem storeSetCore (h : s0.Keeps s) {a bs n c} (hc : (s.core n).whole → c.whole) :
    s0.Keeps ((s.store a bs).setCore n c) := h.store.setCore hc

theorem traceRec (h : s0.Keeps s) {n pc dst trap} : s0.Keeps (s.traceRec n pc dst trap) :=
  .ite (storeSetCore h fun h => h) h

theorem trap (h : s0.Keeps s) {n irq cause tval} : s0.Keeps (s.trap n irq cause tval) := by
  unfold State.trap
  refine traceRec ?_
  refine h.dropReservation.setCore fun hc => ?_
  split
  · exact hc.enterS
  · exact hc.enterM

theorem timerFires (h : s0.Keeps s) {n} : s0.Keeps (Machine.timerFires s n) := by
  unfold Machine.timerFires
  refine .ite ?_ ?_
  · exact h
  · split
    · split
      · exact h.trap
      · exact h.setCore.ite h
    · split
      · exact h.trap
      · exact h.setCore.ite h
    · exact h

/-! ### Mmu -/

theorem cacheBlocks (h : s0.Keeps s) {n bs} : s0.Keeps (s.cacheBlocks n bs) := h.frame

theorem cacheStore (h : s0.Keeps s) {n a bs} : s0.Keeps (s.cacheStore n a bs) :=
  (h.mem fun hm => Memory.wf_setBytes hm a bs).frame

theorem coreError (h : s0.Keeps s) {n a} : s0.Keeps (s.coreError n a) := h.detect

theorem physRead (h : s0.Keeps s) {hc a n} : s0.Keeps (s.physRead hc a n).state := by
  unfold State.physRead
  split
  · split
    · exact h.coreError
    · exact h.cacheBlocks
  · exact h.readBytes

theorem physWrite (h : s0.Keeps s) {hc a bs} : s0.Keeps (s.physWrite hc a bs) := by
  unfold State.physWrite
  split
  · exact h.coreError.ite h.cacheStore
  · exact h.ite h.store
  · exact h.store
  · exact h.store
  · exact h.ringQueue.ite h
  · exact h.mboxAreaWrite.ite (h.ite ((h.ringMailbox.ite h).ite (h.mboxStatusWrite.ite h)))
  · exact h

theorem mmuEntry (h : s0.Keeps s) {hc k va level table down} (hd : ∀ a, s0.Keeps (down a).state) :
    s0.Keeps (Mmu.entry s hc k va level table down).state := by
  unfold Mmu.entry
  extract_lets a
  split
  · exact h
  split
  next e => exact ofTrap h.physRead e
  next =>
    extract_lets pte
    split
    · exact h
    split
    · split
      · exact h
      · exact h
    split
    · exact h
    · exact hd _

theorem mmuWalk (h : s0.Keeps s) {hc k va n table} : s0.Keeps (Mmu.walk s hc k va n table).state := by
  induction n generalizing table with
  | zero => exact mmuEntry h fun _ => h
  | succ n ih => exact mmuEntry h fun _ => ih

theorem touch (h : s0.Keeps s) {hc k f} (e : Mmu.touch s hc k f = some t) : s0.Keeps t := by
  unfold Mmu.touch at e
  extract_lets want at e
  split at e
  · exact Option.some.inj e ▸ h
  split at e
  · cases e
  · exact Option.some.inj e ▸ h.store64

theorem mmuTranslate (h : s0.Keeps s) {hc mode k va} : s0.Keeps (Mmu.translate s hc mode k va).state := by
  unfold Mmu.translate
  extract_lets c m levels
  split
  · exact h
  split
  · exact h
  split
  next e => exact ofTrap (mmuWalk h) e
  next =>
    split
    · exact h
    split
    next e => exact touch h e
    next => exact h

theorem mmuResolve (h : s0.Keeps s) {hc k svx va n} : s0.Keeps (Mmu.resolve s hc k svx va n).state := by
  dsimp only [Mmu.resolve]
  split
  · exact h.mmuTranslate.ofTrap ‹_›
  · split <;> exact (h.mmuTranslate.ofOk ‹_›)

theorem mmuLoad (h : s0.Keeps s) {hc svx va n} : s0.Keeps (Mmu.load s hc svx va n).state := by
  unfold Mmu.load
  split
  · exact h.mmuResolve.ofTrap ‹_›
  · split
    · exact (h.mmuResolve.ofOk ‹_›).physRead.ofTrap ‹_›
    · exact (h.mmuResolve.ofOk ‹_›).physRead.ofOk ‹_›

theorem mmuStore (h : s0.Keeps s) {hc svx va n v} : s0.Keeps (Mmu.store s hc svx va n v).state := by
  unfold Mmu.store
  split
  · exact h.mmuResolve.ofTrap ‹_›
  · exact (h.mmuResolve.ofOk ‹_›).physWrite

/-! ### CoreRun -/

theorem bumpHpm (h : s0.Keeps s) {n svx i} : s0.Keeps (State.bumpHpm n svx s i) := by
  unfold State.bumpHpm
  refine .ite ?_ ?_
  · exact h
  · split
    · exact h
    · exact h.modCore.ite h
    · exact h.fresh.modCore
    · exact h.fresh.modCore
    · exact h.fresh.modCore
    · exact h.modCore

theorem retire (h : s0.Keeps s) {n svx} : s0.Keeps (s.retire n svx) := h.fresh.modCore.foldl fun _ _ h => h.bumpHpm

theorem endInstr {r : IRes} (h : s0.Keeps r.state) {n svx len} : s0.Keeps (State.endInstr n svx len r) := by
  unfold State.endInstr
  split
  next s => exact retire (modCore (s := s) h)
  next s _ => exact retire (modCore (traceRec (s := s) h))
  next s _ => exact retire (traceRec (s := s) h)
  next s => exact retire (modCore (s := s) h)
  next s _ _ => exact trap (s := s) h

theorem fetchFault (h : s0.Keeps s) {hc va n c} (e : Mmu.fetchFault s hc va n = some (c, t)) : s0.Keeps t := by
  unfold Mmu.fetchFault at e
  split at e
  next e1 =>
    cases e
    exact ofTrap h.mmuResolve e1
  next e1 =>
    split at e
    · cases e
      exact (ofOk h.mmuResolve e1).coreError
    · cases e

theorem fetchFaultAt (h : s0.Keeps s) {hc va n c} {a b : W64}
    (e : (Mmu.fetchFault s hc va n).map (fun r => (r.1, r.2, a)) = some (c, t, b)) : s0.Keeps t := by
  obtain ⟨r, hr, h2⟩ := Option.map_eq_some_iff.1 e
  cases h2
  exact fetchFault h hr

theorem fetchFails (h : s0.Keeps s) {hc len c a} (e : s.fetchFails hc len = some (c, t, a)) : s0.Keeps t := by
  unfold State.fetchFails at e
  extract_lets pc at_ at e
  split at e
  next e1 => exact fetchFaultAt h (e1.trans e)
  next =>
    split at e
    · exact fetchFaultAt h e
    · cases e

theorem runInstr {body} (h : s0.Keeps s) (hbody : ∀ t, s0.Keeps t → s0.Keeps (body t).state) {hc svx len} :
    s0.Keeps (State.runInstr hc svx len body s) := by
  unfold State.runInstr
  extract_lets n c s1
  split
  · exact h
  have h1 : s0.Keeps s1 := h.setCore
  split
  · exact h1.trap
  split
  next e => exact (fetchFails h1 e).trap
  next => exact endInstr (hbody s1 h1)

theorem illegal (h : s0.Keeps s) {w} : s0.Keeps (Machine.illegal s w).state := h

theorem withReg (h : s0.Keeps s) {n rd v} : s0.Keeps (Machine.withReg s n rd v).state := h.modCore fun _ hc => hc.setReg

theorem cboAct (h : s0.Keeps s) {op a} : s0.Keeps (Cbo.act s op a) := by
  unfold Cbo.act
  split
  · exact h.frame
  · exact h.frame
  · exact h.store
  · extract_lets back s1
    have h1 : s0.Keeps s1 := h.foldl fun s b h => by
      unfold back
      split
      · exact h.mem fun hm => Memory.wf_setBytes hm _ _
      · exact h
    exact h1.frame

theorem cboResolve (h : s0.Keeps s) {hc op va} : s0.Keeps (Cbo.resolve s hc op va).state := by
  dsimp only [Cbo.resolve]
  split
  · exact h.mmuResolve
  · split
    · exact h.mmuResolve.ofOk ‹_›
    · exact h.mmuResolve

theorem cboBody (h : s0.Keeps s) {hc op rs1 w} : s0.Keeps (Cbo.body hc op rs1 w s).state := by
  dsimp only [Cbo.body]
  split
  · exact h.illegal
  · split
    · exact h.cboResolve.ofTrap ‹_›
    · split
      · exact (h.cboResolve.ofOk ‹_›).physWrite
      · split
        · exact (h.cboResolve.ofOk ‹_›).coreError
        · exact (h.cboResolve.ofOk ‹_›).cboAct.ite (h.cboResolve.ofOk ‹_›)

theorem atStack (h : s0.Keeps s) {a n} : s0.Keeps (Amo.atStack s a n) := h.recallBlocks

theorem amoBody (h : s0.Keeps s) {hc op double rd rs1 rs2} : s0.Keeps (Amo.body hc op double rd rs1 rs2 s).state := by
  unfold Amo.body
  extract_lets c n va
  split
  next e => exact ofTrap h.mmuResolve e
  next a s1 e =>
    have h1 : s0.Keeps s1 := ofOk h.mmuResolve e
    split
    · exact h1.coreError
    · exact withReg h1.atStack.storeNat

theorem amoLr (h : s0.Keeps s) {hc double rd rs1} : s0.Keeps (Amo.lr hc double rd rs1 s).state := by
  unfold Amo.lr
  extract_lets c n va
  split
  next e => exact ofTrap h.mmuResolve e
  next a s1 e =>
    have h1 : s0.Keeps s1 := ofOk h.mmuResolve e
    split
    · exact h1.coreError
    · extract_lets s2
      have h2 : s0.Keeps s2 := h1.atStack.dropReservation
      exact withReg h2.frame

theorem amoSc (h : s0.Keeps s) {hc double rd rs1 rs2} : s0.Keeps (Amo.sc hc double rd rs1 rs2 s).state := by
  unfold Amo.sc
  extract_lets c n va
  split
  next e => exact ofTrap h.mmuResolve e
  next a s1 e =>
    extract_lets held s2
    have h2 : s0.Keeps s2 := (ofOk h.mmuResolve e).dropReservation
    split
    · exact withReg h2
    split
    · exact h2.coreError
    · exact withReg h2.atStack.storeNat

theorem fenceInstr (h : s0.Keeps s) : s0.Keeps (Machine.fenceInstr s).state := h

/-! ### Stacks -/

theorem modStack (h : s0.Keeps s) {e f} : s0.Keeps (s.modStack e f) := h.edern (by simp)

theorem markDie (h : s0.Keeps s) {st d addr} : s0.Keeps (s.markDie st d addr) := by
  unfold State.markDie
  exact h.modStack.writeMap.recordFault.postDevice

theorem noteCorrected (h : s0.Keeps s) {st addr line vs} : s0.Keeps (s.noteCorrected st addr line vs) := by
  dsimp only [State.noteCorrected]
  refine .ite ?_ ?_
  · exact h
  · split
    · exact h.modStack.markDie
    · exact h.modStack

theorem poisonPhys (h : s0.Keeps s) {p} : s0.Keeps (s.poisonPhys p) := h.frame

theorem loseLocal (h : s0.Keeps s) {p} : s0.Keeps (s.loseLocal p) := h.frame

theorem uncorrectable (h : s0.Keeps s) {st line p mech job} : s0.Keeps (s.uncorrectable st line p mech job) :=
  h.poisonPhys.modStack.detect

theorem readerSees (h : s0.Keeps s) {src a} : s0.Keeps (s.readerSees src a) := by
  unfold State.readerSees
  split
  · exact h.trap
  · split
    · exact h.frame
    · exact h
  · exact h

theorem answer (h : s0.Keeps s) {st bs} : s0.Keeps (s.answer st bs) := h.frame

theorem readLine (h : s0.Keeps s) {src a err} : s0.Keeps (s.readLine src a err) := by
  unfold State.readLine
  refine .ite ?_ ?_
  · exact h.detect.readerSees.answer
  · refine .ite ?_ ?_
    · exact h.noteCorrected.uncorrectable.readerSees.answer
    · refine .answer ?_
      split
      · exact h.noteCorrected.cacheBlocks
      · exact h.noteCorrected.recallBlocks

theorem writeLinePart (h : s0.Keeps s) {src addr data line} : s0.Keeps (State.writeLinePart src addr data s line) :=
  h.detect.ite h.store

theorem guarded {go} (h : s0.Keeps s) (hgo : s0.Keeps go) {src write a n} : s0.Keeps
    (s.guarded src write a n go) := by
  unfold State.guarded
  split
  · exact h.answer
  · exact hgo

theorem amoAtStack (h : s0.Keeps s) {a op n v} : s0.Keeps (s.amoAtStack a op n v) :=
  h.detect.answer.ite h.recallBlocks.storeNat.answer

theorem patrolLine (h : s0.Keeps s) {st p err} : s0.Keeps (s.patrolLine st p err) :=
  h.countUe.detect.postDevice.ite (h.noteCorrected.countUe.uncorrectable.loseLocal.postDevice.ite h.noteCorrected)

theorem patrol (h : s0.Keeps s) {st err} : s0.Keeps (s.patrol st err) := h.ite h.patrolLine.modStack

/-! ### Updates -/

theorem viewUnpoison (h : s0.Keeps s) {warm outs} : s0.Keeps (s.viewUnpoison warm outs) := h.unpoison

theorem viewRecall (h : s0.Keeps s) {warm vs} : s0.Keeps (s.viewRecall warm vs) := h.recallSpans

theorem modChain (h : s0.Keeps s) {id f} : s0.Keeps (s.modChain id f) := h.frame

theorem modBucket (h : s0.Keeps s) {id b f} : s0.Keeps (s.modBucket id b f) := h.modChain

theorem updateApply (h : s0.Keeps s) {j st ref hs params u0 u1} :
    s0.Keeps ((Update.apply s j st ref hs params u0 u1).stateOr s) := by
  dsimp only [Update.apply]
  split
  · exact h
  · split
    · exact h
    · split
      · exact h
      · exact h.recallSpans.workStart.runProgram.workClose.unpoison.recallSpans.modStack

theorem reportUpdate (h : s0.Keeps s) {inv st} : s0.Keeps (s.reportUpdate inv st) := by
  unfold State.reportUpdate
  split
  · exact h.frame
  · exact h.frame.modBucket

theorem invoke (h : s0.Keeps s) {inv} : s0.Keeps (s.invoke inv) := by
  unfold State.invoke
  split
  · exact h
  · refine .ite h ?_
    dsimp only
    split
    next => exact h.reportUpdate
    next =>
      split
      next s1 e =>
        have h1 : s0.Keeps ((Update.End.ok s1).stateOr s) := e ▸ h.updateApply
        exact reportUpdate h1
      next => exact h.reportUpdate
      next => exact h.detect.reportUpdate

/-! ### Commit -/

theorem recallRanges (h : s0.Keeps s) {rs} : s0.Keeps (s.recallRanges rs) := h.frame

theorem storeRecord (h : s0.Keeps s) {j record} : s0.Keeps (s.storeRecord j record) := by
  unfold State.storeRecord
  split
  · exact h.ownStore
  · exact h

theorem freezeNow (h : s0.Keeps s) {j qs} : s0.Keeps (s.freezeNow j qs) :=
  h.recallRanges.fresh.storeRecord.modJob.ite h.recallRanges.fresh.storeRecord.modJob.modJob

theorem freezeDue (h : s0.Keeps s) {j qs} : s0.Keeps (s.freezeDue j qs) := h.freezeNow.ite (h.ite h.modJob.postJob)

theorem freezeNotice (h : s0.Keeps s) {j} : s0.Keeps (s.freezeNotice j) := h.modJob.notify.ite h

theorem mirrorDiffers (h : s0.Keeps s) {j} : s0.Keeps (s.mirrorDiffers j) :=
  h.modJob.detect.postJob.holdJob.ite h.modJob.detect

theorem sendDigest (h : s0.Keeps s) {j} : s0.Keeps (s.sendDigest j) := h.ite h.modJob.sampleJudge.send

theorem closeQueue (h : s0.Keeps s) {qid} : s0.Keeps (s.closeQueue qid) := by
  unfold State.closeQueue
  split
  · exact h.complete.ite h
  · exact h

theorem commitActions (h : s0.Keeps s) {j} : s0.Keeps (s.commitActions j) := by
  unfold State.commitActions
  extract_lets qs committed s1 s2 s3 j1 s4 s5 s6 s7
  have h4 : s0.Keeps s4 := (h.frame.writeWatch.foldl fun _ _ h => h.emptyStash).setJob
  have h5 : s0.Keeps s5 := h4.postJob.ite h4
  have h7 : s0.Keeps s7 := (h5.freezeDue.ite h5.freezeNotice).modJob
  exact h7.foldl fun _ _ h => h.closeQueue

theorem commitClose (h : s0.Keeps s) {job} : s0.Keeps (s.commitClose job) := by
  dsimp only [State.commitClose]
  split
  · exact h
  · refine .ite ?_ ?_
    · exact h
    · split
      · exact h.detect
      · split
        · exact h.sendDigest.ite h
        · split
          · exact (h.sendDigest.ite h).commitActions.ite (h.sendDigest.ite h)
          · exact h.sendDigest.ite h
          · exact (h.sendDigest.ite h).mirrorDiffers

/-! ### Links -/

theorem trainPort (h : s0.Keeps s) {p} : s0.Keeps (s.trainPort p) := h.modPort

theorem portOff (h : s0.Keeps s) {p} : s0.Keeps (s.portOff p) := h.modPort

theorem followPresent (h : s0.Keeps s) : s0.Keeps s.followPresent := (h.ite h.trainPort).ite (h.portOff.ite h)

theorem pairLost (h : s0.Keeps s) : s0.Keeps s.pairLost := h.frame.postDevice.ite h.frame

theorem closeEpisode (h : s0.Keeps s) : s0.Keeps s.closeEpisode :=
  h.frame.followPresent.pairLost.ite h.frame.followPresent

theorem pairEvent (h : s0.Keeps s) {cause loss} : s0.Keeps (s.pairEvent cause loss) := by
  unfold State.pairEvent
  extract_lets joins _ s1 s2 _ s3
  have h1 : s0.Keeps s1 := h.closeEpisode.ite h
  have h3 : s0.Keeps s3 := h1.postDevice.frame
  exact h.frame.ite (h3.pairLost.ite h3.followPresent)

theorem linkDown (h : s0.Keeps s) {p cause} : s0.Keeps (s.linkDown p cause) :=
  (h.modPort.detect.ite (h.modPort.foldl fun _ _ h => h.detect)).pairEvent.ite (h.modPort.detect.ite
      (h.modPort.foldl fun _ _ h => h.detect))

theorem retrain (h : s0.Keeps s) {p} : s0.Keeps (s.retrain p) := h.setPort.linkDown.ite h.setPort.modPort.recordFault

theorem applyAck (h : s0.Keeps s) {p a} : s0.Keeps (s.applyAck p a) := h.setPort.pump.ite h

theorem resendAll (h : s0.Keeps s) {p} : s0.Keeps (s.resendAll p) := h.setPort.foldl fun _ _ h => h.sendFlit

theorem replay (h : s0.Keeps s) {p} : s0.Keeps (s.replay p) := h.ite (h.setPort.retrain.ite h.setPort.resendAll)

theorem sendAck (h : s0.Keeps s) {p} : s0.Keeps (s.sendAck p) := h.sendData.ite h.sendPlainFlit

theorem sendNak (h : s0.Keeps s) {p} : s0.Keeps (s.sendNak p) := h.modPort.sendPlainFlit

theorem freeCredits (h : s0.Keeps s) {p k} : s0.Keeps (s.freeCredits p k) := by
  unfold State.freeCredits
  exact h.modPort

theorem nakReceived (h : s0.Keeps s) {p} : s0.Keeps (s.nakReceived p) := h.setPort.retrain.ite h.setPort.replay

theorem acceptFlit (h : s0.Keeps s) {p w r} : s0.Keeps (s.acceptFlit p w r) :=
  h.applyAck.modPort.pump.sendAck.ite h.applyAck.modPort.pump

theorem markLanes (h : s0.Keeps s) {p} : s0.Keeps (s.markLanes p) := h.foldl fun _ _ h => h.modPort.postDevice

theorem countFec (h : s0.Keeps s) {p ws} : s0.Keeps (s.countFec p ws) := h.modPort.markLanes

theorem judgeFlit (h : s0.Keeps s) {p f} : s0.Keeps (s.judgeFlit p f) := by
  unfold State.judgeFlit
  extract_lets ws failed s1 crcOk x r fresh parsed s2
  have h2 : s0.Keeps s2 := h.countFec.ite h.countFec.modPort
  exact h2.sendNak.ite (h2.applyAck.ite (h2.applyAck.nakReceived.ite (h2.acceptFlit.ite h2.applyAck)))

theorem retrainDone (h : s0.Keeps s) {p} : s0.Keeps (s.retrainDone p) :=
  h.ite (h.linkDown.ite h.setPort.resendAll.pump)

theorem laneLost (h : s0.Keeps s) {p lane} : s0.Keeps (s.laneLost p lane) := by
  unfold State.laneLost
  extract_lets x m s1 s2 s3
  have h2 : s0.Keeps s2 := h.setPort.ite h.setPort.postDevice
  have h3 : s0.Keeps s3 := h2.modPort.recordFault
  exact h.ite (h2.ite ((h2.linkDown.ite (h2.ite h3.postDevice.retrain)).ite (h2.retrain.ite h2)))

theorem helloFrom (h : s0.Keeps s) {p a2} : s0.Keeps (s.helloFrom p a2) := h.ite (h.setPort.postDevice.ite h.setPort)

theorem linkIsUp (h : s0.Keeps s) {p} : s0.Keeps (s.linkIsUp p) := h.ite h.setPort

theorem setEnable (h : s0.Keeps s) {p on} : s0.Keeps (s.setEnable p on) := (h.ite h.trainPort).ite h.portOff

theorem setLoopback (h : s0.Keeps s) {p on} : s0.Keeps (s.setLoopback p on) :=
  (h.linkDown.ite h).modPort.ite (h.modPort.trainPort.ite h.modPort)

/-! ### Rings -/

theorem setGroup (h : s0.Keeps s) {g} : s0.Keeps (s.setGroup g) := h.frame

theorem sendPass (h : s0.Keeps s) {g bucket stage msgs} : s0.Keeps (s.sendPass g bucket stage msgs) := by
  refine h.foldl fun _ _ h => ?_
  split
  · exact h.send
  · exact h

theorem sendArrive (h : s0.Keeps s) {g msgs} : s0.Keeps (s.sendArrive g msgs) := by
  refine h.foldl fun _ _ h => ?_
  split
  · exact h.send
  · exact h

theorem releaseRound (h : s0.Keeps s) {gid round} : s0.Keeps (s.releaseRound gid round) := by
  refine h.foldl fun _ _ h => ?_
  split
  · exact h.complete
  · exact h

theorem closeRound (h : s0.Keeps s) {gid} : s0.Keeps (s.closeRound gid) := by
  unfold State.closeRound
  split
  · exact h.setGroup.releaseRound.ite h
  · exact h

theorem arriveOwn (h : s0.Keeps s) {g} : s0.Keeps (s.arriveOwn g) := by
  unfold State.arriveOwn
  split
  · exact h.setGroup.foldl fun _ _ h => h.send
  · exact h.setGroup.sendArrive

theorem syncGroupBody (h : s0.Keeps s) {c} : s0.Keeps ((Sync.groupBody c s).stateOr s) := by
  dsimp only [Sync.groupBody]
  split
  · exact h
  · split
    · split
      · split
        · exact h.setGroup.arriveOwn.closeRound
        · exact h.setGroup.arriveOwn
      · exact h.setGroup.arriveOwn
    · exact h.setGroup

/-! ### Chains -/

theorem trigBody (h : s0.Keeps s) {c} : s0.Keeps ((Trig.body c s).stateOr s) := by
  dsimp only [Trig.body]
  split
  · exact h
  split
  · exact h
  split
  · exact h
  split
  · split
    · exact h
    · exact h.syncOnWord h.syncAddWord
  · exact h.setGroup.frame.modJob.setQueue

/-! ### Carry -/

theorem workPutView (h : s0.Keeps w.s) {warm v bs} : s0.Keeps (Work.putView warm v bs w).s :=
  (h.foldlWork fun _ _ h => h.workPutBits).foldlWork fun _ _ h => h.workPut

theorem chainPoison (h : s0.Keeps s) {p l} : s0.Keeps (s.chainPoison p l) := h.detect

theorem stageBytes (h : s0.Keeps s) {p off bs} : s0.Keeps (s.stageBytes p off bs) := by
  unfold State.stageBytes
  refine .ite ?_ ?_
  · exact h
  · split
    · exact h.chainPoison
    · exact h.store

theorem noteStart (h : s0.Keeps s) {p code} : s0.Keeps (s.noteStart p code) := h.modBucket

/-! ### Collect -/

theorem entryDone (h : s0.Keeps s) {cid b} : s0.Keeps (s.entryDone cid b) := h.modChain

theorem sendMessage (h : s0.Keeps s) {p port stage contrib bs} : s0.Keeps (s.sendMessage p port stage contrib bs) :=
  h.foldl fun _ _ h => h.send

theorem sendPartials (h : s0.Keeps s) {p carry stage port mask e0 n val} :
    s0.Keeps (s.sendPartials p carry stage port mask e0 n val) := h.foldl fun _ _ h => h.send

theorem startLevel (h : s0.Keeps s) {p carry k l} : s0.Keeps (s.startLevel p carry k l) := by
  unfold State.startLevel
  refine .ite ?_ ?_
  · exact h
  · split
    · exact h.noteStart.sendPartials
    · exact h

theorem runLevels (h : s0.Keeps s) {p carry k n l} : s0.Keeps (State.runLevels p carry k n l s) := by
  induction n generalizing s l with
  | zero => exact h
  | succ n ih => exact .ite (ih h.startLevel) h.startLevel

theorem zeroElems (h : s0.Keeps s) {j v} : s0.Keeps (s.zeroElems j v) :=
  (h.workStart.foldlWork fun _ _ h => h.workPutBits).workClose

theorem deliverSums (h : s0.Keeps s) {p carry src dst} : s0.Keeps (s.deliverSums p carry src dst) := by
  unfold State.deliverSums
  extract_lets d q rnd f idx v vals w
  split
  · exact h.chainPoison
  have hw : s0.Keeps w.s := h.workStart.foldlWork fun _ _ h => by
    split
    · exact h.workPutElem
    · exact h.workPutBits
  clear_value w
  exact hw.workClose.viewUnpoison.modBucket

theorem startGatherLevel (h : s0.Keeps s) {p dst k l} : s0.Keeps (s.startGatherLevel p dst k l) := by
  unfold State.startGatherLevel
  refine .ite ?_ ?_
  · exact h
  · split
    · exact h.noteStart.sendMessage
    · exact h

theorem runGather (h : s0.Keeps s) {p dst k n} : s0.Keeps (State.runGather p dst k n s) := by
  induction n generalizing s with
  | zero => exact h
  | succ n ih => exact .ite (ih h.startGatherLevel) h.startGatherLevel

theorem startGather (h : s0.Keeps s) {cid b dst} : s0.Keeps (s.startGather cid b dst) := by
  dsimp only [State.startGather]
  split
  · exact (h.modBucket.viewRecall.foldl fun _ _ h => h.runGather).entryDone.ite
      (h.modBucket.viewRecall.foldl fun _ _ h => h.runGather)
  · exact h.modBucket

theorem convertPieces (h : s0.Keeps s) {p src dst} : s0.Keeps (s.convertPieces p src dst) := by
  dsimp only [State.convertPieces]
  refine .ite ?_ ?_
  · exact h
  · split
    · exact h.chainPoison
    · refine .viewUnpoison ?_
      refine .workClose ?_
      split
      · exact h.viewRecall.workStart.foldlWork fun _ _ h => h.workMoveElem
      · exact h.viewRecall.workStart.workPutItems

theorem finishReduce (h : s0.Keeps s) {cid b} : s0.Keeps (s.finishReduce cid b) := by
  unfold State.finishReduce
  split
  · split
    · split
      · exact h.deliverSums.ite (h.deliverSums.startGather.ite h.deliverSums.entryDone)
      · exact h
    · exact h
  · exact h

theorem startReduce (h : s0.Keeps s) {cid b} : s0.Keeps (s.startReduce cid b) := by
  unfold State.startReduce
  split
  next p _ =>
    split
    next carry clear src _ _ =>
      extract_lets v q rows s1 s2 s3
      split
      · exact h.chainPoison
      have h2 : s0.Keeps s2 := h.viewRecall.zeroElems.viewUnpoison.ite h.viewRecall
      have h3 : s0.Keeps s3 := h2.modBucket
      clear_value s3
      split
      next p1 _ =>
        extract_lets s4
        have h4 : s0.Keeps s4 := h3.foldl fun _ _ h => h.runLevels
        exact h4.finishReduce.ite h4
      next => exact h3
    next => exact h
  next => exact h

theorem agreeEnded (h : s0.Keeps s) {cid b} : s0.Keeps (s.agreeEnded cid b) := by
  unfold State.agreeEnded
  split
  · exact h.modBucket.startReduce.ite h
  · exact h

theorem startAgree (h : s0.Keeps s) {p src} : s0.Keeps (s.startAgree p src) := by
  unfold State.startAgree
  split
  · exact h.chainPoison
  · exact h.modBucket.noteStart.sendPass.agreeEnded

theorem bcastSend (h : s0.Keeps s) {p root dst} : s0.Keeps (s.bcastSend p root dst) := by
  refine h.foldl fun _ _ h => ?_
  split
  · exact h.sendMessage
  · exact h

theorem startBcast (h : s0.Keeps s) {p src dst root} : s0.Keeps (s.startBcast p src dst root) := by
  unfold State.startBcast
  extract_lets s1 va vd s2 s3
  have h1 : s0.Keeps s1 := h.modBucket.noteStart
  refine .ite h1 ?_
  split
  · exact h1.chainPoison
  · have h2 : s0.Keeps s2 := h1.viewRecall
    clear_value s2
    have h3 : s0.Keeps s3 := h2.ite h2.workStart.workPutView.workClose.viewUnpoison
    exact h3.bcastSend.entryDone

theorem startHalo (h : s0.Keeps s) {p send recv} : s0.Keeps (s.startHalo p send recv) := by
  dsimp only [State.startHalo]
  split
  · exact h.modBucket.noteStart.chainPoison
  · exact (h.modBucket.noteStart.viewRecall.foldl fun _ _ h => h.sendMessage).entryDone.ite
      (h.modBucket.noteStart.viewRecall.foldl fun _ _ h => h.sendMessage)

theorem a2aSend (h : s0.Keeps s) {p l step} : s0.Keeps (s.a2aSend p l step) := by
  refine h.foldl fun _ _ h => ?_
  split
  · exact h.sendMessage
  · exact h

theorem a2aTake (h : s0.Keeps s) {p src l step plus} : s0.Keeps (s.a2aTake p src l step plus) := by
  unfold State.a2aTake
  split
  · exact h.modBucket.stageBytes
  · exact h

theorem a2aFinish (h : s0.Keeps s) {p dst} : s0.Keeps (s.a2aFinish p dst) := by
  dsimp only [State.a2aFinish]
  split
  · exact h.chainPoison
  · exact (h.workStart.foldlWork fun _ _ h => h.workPutView).workClose.viewUnpoison.entryDone

theorem a2aRun (h : s0.Keeps s) {src dst n cid b} : s0.Keeps (State.a2aRun src dst n cid b s) := by
  induction n generalizing s cid b with
  | zero => exact h
  | succ n ih =>
    unfold State.a2aRun
    split
    · exact h
    · refine h.a2aFinish.ite (.ite (ih h.modBucket) (.ite (ih h.modBucket.noteStart.a2aSend) (h.ite ?_)))
      refine .ite (ih (modBucket ?_)) ?_
      · exact h.foldl fun _ _ h => h.a2aTake
      · dsimp only
        split
        · refine ih (a2aSend (modBucket ?_))
          exact h.foldl fun _ _ h => h.a2aTake
        · refine modBucket ?_
          exact h.foldl fun _ _ h => h.a2aTake

theorem startA2a (h : s0.Keeps s) {p src dst} : s0.Keeps (s.startA2a p src dst) := by
  dsimp only [State.startA2a]
  split
  · exact h.chainPoison
  · exact h.viewRecall.modBucket.a2aRun

theorem startEntry (h : s0.Keeps s) {cid b} : s0.Keeps (s.startEntry cid b) := by
  unfold State.startEntry
  split
  · exact h
  · refine .ite ?_ ?_
    · exact h
    · split
      · exact h.startReduce.ite h.startAgree
      · exact h.startReduce.ite h.startAgree
      · exact h.convertPieces.ite h.convertPieces.startGather
      · exact h.modBucket.entryDone.ite h.modBucket
      · exact h.startHalo
      · exact h.startBcast
      · exact h.startA2a
      · exact h

theorem chainInvoke (h : s0.Keeps s) {inv} : s0.Keeps (s.chainInvoke inv) := by
  dsimp only [State.chainInvoke]
  split
  · exact h.invoke
  · split
    · exact h
    · refine .ite ?_ ?_
      · exact h
      · split
        · exact h.invoke.entryDone.ite h.invoke
        · exact h.invoke

theorem zeroBucket (h : s0.Keeps s) {cid b} : s0.Keeps (s.zeroBucket cid b) := by
  unfold State.zeroBucket
  split
  · exact h
  · split
    · refine .ite ?_ ?_
      · exact h
      · split
        · exact h.chainPoison
        · exact h.zeroElems.modBucket
    · exact h

theorem verdictEnded (h : s0.Keeps s) {cid} : s0.Keeps (s.verdictEnded cid) := by
  unfold State.verdictEnded
  split
  · exact h
  · refine .ite ?_ ?_
    · exact h
    · split
      · exact h.modChain
      · exact h.modChain.ite ((h.modChain.foldl fun _ _ h => h.zeroBucket).ite h.modChain.modChain.modJob)

theorem verdictPass (h : s0.Keeps s) {cid} : s0.Keeps (s.verdictPass cid) := by
  unfold State.verdictPass
  split
  · exact h
  · split
    · exact h.ite h.modChain.sendPass.verdictEnded
    · exact h

theorem completeChain (h : s0.Keeps s) {cid} : s0.Keeps (s.completeChain cid) := by
  dsimp only [State.completeChain]
  split
  · exact h
  · split
    · refine .ite ?_ ?_
      · exact h
      · split
        · exact h.detect
        · exact (h.storeAll.ite h.storeAll.syncAddWord).endChains
    · exact h

/-! ### Inbound -/

theorem hopFail (h : s0.Keeps s) {p k m} : s0.Keeps (s.hopFail p k m) := by
  unfold State.hopFail
  exact h.modPort.detect

theorem useReduce (h : s0.Keeps s) {p k cid b} : s0.Keeps (s.useReduce p k cid b) := by
  unfold State.useReduce
  split
  · exact h
  · split
    · exact h
    · split
      · exact h
      · refine .ite ?_ ?_
        · exact h.modBucket.stageBytes
        · refine .ite ?_ ?_
          · split
            · refine .ite ?_ ?_
              · refine .finishReduce ?_
                refine .ite ?_ ?_
                · refine .runLevels ?_
                  split
                  · exact h.modBucket.stageBytes.ite h.modBucket.stageBytes.workStart.workArith.workClose
                  · exact h.modBucket.stageBytes
                · split
                  · exact h.modBucket.stageBytes.ite h.modBucket.stageBytes.workStart.workArith.workClose
                  · exact h.modBucket.stageBytes
              · refine .ite ?_ ?_
                · refine .runLevels ?_
                  split
                  · exact h.modBucket.stageBytes.ite h.modBucket.stageBytes.workStart.workArith.workClose
                  · exact h.modBucket.stageBytes
                · split
                  · exact h.modBucket.stageBytes.ite h.modBucket.stageBytes.workStart.workArith.workClose
                  · exact h.modBucket.stageBytes
            · split
              · exact h.modBucket.stageBytes.ite h.modBucket.stageBytes.workStart.workArith.workClose
              · exact h.modBucket.stageBytes
          · split
            · refine .send ?_
              refine .sampleJudge ?_
              split
              · exact h.modBucket.stageBytes.ite h.modBucket.stageBytes.workStart.workArith.workClose
              · exact h.modBucket.stageBytes
            · split
              · exact h.modBucket.stageBytes.ite h.modBucket.stageBytes.workStart.workArith.workClose
              · exact h.modBucket.stageBytes

theorem placeMessage (h : s0.Keeps s) {x v bs} : s0.Keeps (s.placeMessage x v bs) := by
  unfold State.placeMessage
  split
  · exact h.chainPoison
  · exact h.workStart.workPutView.workClose.viewUnpoison

theorem afterMessage (h : s0.Keeps s) {cid b p k} : s0.Keeps (s.afterMessage cid b p k) := by
  unfold State.afterMessage
  split
  · exact h
  · split
    · split
      · exact (h.runGather.ite h).entryDone.ite (h.runGather.ite h)
      · exact h
    · split
      · exact (h.runGather.ite h).entryDone.ite (h.runGather.ite h)
      · exact h
    · exact h.bcastSend.entryDone
    · exact h.entryDone.ite h
    · exact h.a2aRun
    · exact h

theorem usePut (h : s0.Keeps s) {p k cid b} : s0.Keeps (s.usePut p k cid b) := by
  dsimp only [State.usePut]
  split
  · exact h
  · split
    · exact h
    · split
      · refine .modBucket ?_
        split
        · exact h.send
        · exact h
      · refine .ite ?_ ?_
        · refine .afterMessage ?_
          split
          · refine .placeMessage ?_
            refine .modBucket ?_
            split
            · exact h.send
            · exact h
          · refine .modBucket ?_
            split
            · exact h.send
            · exact h
        · refine .modBucket ?_
          split
          · exact h.send
          · exact h

theorem useAgree (h : s0.Keeps s) {k cid b} : s0.Keeps (s.useAgree k cid b) := by
  unfold State.useAgree
  split
  · exact h
  · exact h.modChain.sendPass.verdictEnded.ite h.modBucket.sendPass.agreeEnded

theorem usePacket (h : s0.Keeps s) {p k cid b} : s0.Keeps (s.usePacket p k cid b) := by
  unfold State.usePacket
  split
  · exact h.useReduce
  · exact h.usePut
  · exact h.useAgree

theorem keepEarly (h : s0.Keeps s) {p k} : s0.Keeps (s.keepEarly p k) := h.freeCredits.frame.ite h.frame

theorem leaveBuffer (h : s0.Keeps s) {e} : s0.Keeps (s.leaveBuffer e) := h.ite h.freeCredits

theorem retryEarly (h : s0.Keeps s) {n} : s0.Keeps (State.retryEarly n s) := by
  induction n generalizing s with
  | zero => exact h
  | succ n ih =>
    unfold State.retryEarly
    split
    · exact h
    · dsimp only
      split
      · exact ih (usePacket (leaveBuffer h.frame))
      · exact ih (hopFail (leaveBuffer h.frame))

theorem refillEarly (h : s0.Keeps s) : s0.Keeps s.refillEarly := h.foldl fun _ _ h => (h.freeCredits.frame.ite h)

theorem dropEarly (h : s0.Keeps s) : s0.Keeps s.dropEarly := h.foldl fun _ _ h => h.frame.leaveBuffer

theorem settle (h : s0.Keeps s) : s0.Keeps s.settle := h.dropEarly.retryEarly.refillEarly

theorem chainPacket (h : s0.Keeps s) {p k} : s0.Keeps (s.chainPacket p k) := by
  unfold State.chainPacket
  split
  · exact h.freeCredits.hopFail
  · split
    · exact h.freeCredits.hopFail
    · refine .ite ?_ ?_
      · exact h.freeCredits.hopFail
      · refine .ite ?_ ?_
        · exact h.freeCredits
        · split
          · exact h.freeCredits.hopFail
          · exact h.keepEarly
          · exact h.usePacket.freeCredits.settle

theorem arrived (h : s0.Keeps s) {p k} : s0.Keeps (s.arrived p k) := by
  unfold State.arrived
  split
  · exact h.freeCredits.hopFail
  · split
    · exact h.freeCredits.hopFail
    · refine .ite ?_ ?_
      · exact h.freeCredits.hopFail
      · refine .ite ?_ ?_
        · exact h.freeCredits
        · refine .ite ?_ ?_
          · exact h.freeCredits.hopFail
          · split
            · exact h.freeCredits.setGroup.closeRound.ite h.freeCredits.hopFail
            · split
              · exact h.freeCredits.hopFail.ite h.freeCredits.setGroup.sendArrive.closeRound
              · exact h.freeCredits.hopFail

theorem judged (h : s0.Keeps s) {j c same} : s0.Keeps (s.judged j c same) :=
  (h.judges (by simp)).ite (h.judges (by simp)).detect

theorem judgeCompare (h : s0.Keeps s) {j seen} : s0.Keeps (s.judgeCompare j seen) := by
  unfold State.judgeCompare
  split
  · exact h
  · exact h.judged

theorem stallFound (h : s0.Keeps s) {g port since} : s0.Keeps (s.stallFound g port since) :=
  h.ite h.endChains.notify.detect

theorem stalled (h : s0.Keeps s) {w} : s0.Keeps (s.stalled w) := by
  dsimp only [State.stalled]
  split
  · split
    · exact h
    · split
      · exact h.stallFound
      · exact h
  · split
    · split
      · exact h.stallFound.ite h
      · exact h
    · exact h
  · split
    · exact h
    · split
      · exact h.stallFound.ite h
      · exact h

/-! ### Reset -/

theorem held (h : s0.Keeps s) {cause} : s0.Keeps (s.held cause) := by
  obtain ⟨hk, hg⟩ := h.guard
  refine ⟨fun h0 => ?_, hg⟩
  obtain ⟨hm, he, -⟩ := hk h0
  refine ⟨Memory.wf_slice hm _ _, (List.length_map _).trans he, rfl, rfl, rfl, rfl, rfl, rfl, rfl, fun c hc => ?_⟩
  rw [List.eq_of_mem_replicate hc]
  exact ⟨rfl, rfl, rfl⟩

theorem requestReset (h : s0.Keeps s) {cause} : s0.Keeps (s.requestReset cause) := h.ite h.held

theorem checkCopies (h : s0.Keeps s) : s0.Keeps s.checkCopies := h.ite h.frame.fresh.recordFault

theorem releaseReset (h : s0.Keeps s) {st} : s0.Keeps (s.releaseReset st) := by
  unfold State.releaseReset
  split
  · extract_lets _ _ _ s1 s2
    have h1 : s0.Keeps s1 := ⟨(h.eth (List.length_map _)).guard⟩
    have h2 : s0.Keeps s2 := checkCopies h1
    exact .ite h2.detect h2
  · exact h

theorem vinRises (h : s0.Keeps s) : s0.Keeps s.vinRises := h.ite h.frame

theorem powerGood (h : s0.Keeps s) : s0.Keeps s.powerGood := h.frame.ite h

theorem powerOff (h : s0.Keeps s) : s0.Keeps s.powerOff := h.held.frame

theorem vinFalls (h : s0.Keeps s) {below} : s0.Keeps (s.vinFalls below) := h.ite (h.powerOff.ite h.frame)

theorem resetInput (h : s0.Keeps s) {asserted} : s0.Keeps (s.resetInput asserted) :=
  h.ite (h.frame.noteEdge.requestReset.ite h.frame.noteEdge)

theorem pairInput (h : s0.Keeps s) {asserted} : s0.Keeps (s.pairInput asserted) :=
  h.ite (h.frame.noteEdge.pairEvent.ite h.frame.noteEdge)

theorem alertSeen (h : s0.Keeps s) : s0.Keeps s.alertSeen := h.frame.ite h.frame.postDevice

theorem alertInput (h : s0.Keeps s) {asserted} : s0.Keeps (s.alertInput asserted) :=
  h.ite (h.frame.ite (h.frame.noteEdge.alertSeen.ite h.frame.noteEdge.frame))

theorem alertCheck (h : s0.Keeps s) : s0.Keeps s.alertCheck := by
  unfold State.alertCheck
  split
  · exact h.ite (h.frame.alertSeen.ite h.frame)
  · exact h

theorem smb (h : s0.Keeps s) {bs} : s0.Keeps (s.smb bs) := h.answer.ite h.answer

theorem smbAlertStatus (h : s0.Keeps s) {w} : s0.Keeps (s.smbAlertStatus w) := by
  unfold State.smbAlertStatus
  split
  · exact h.frame.followAlert.smb.ite h.smb
  · exact h.smb

theorem smbAlertMask (h : s0.Keeps s) {w} : s0.Keeps (s.smbAlertMask w) := by
  unfold State.smbAlertMask
  split
  · exact h.frame.followAlert.smb.ite h.smb
  · exact h.smb

theorem smbMeasured (h : s0.Keeps s) : s0.Keeps s.smbMeasured := h.fresh.smb

theorem loadTap (h : s0.Keeps s) {c} : s0.Keeps (s.loadTap c) := h.frame.requestReset.ite h.frame

theorem samplePreload (h : s0.Keeps s) {load} : s0.Keeps (s.samplePreload load) := h.frame.answer

theorem kick (h : s0.Keeps s) {limit} : s0.Keeps (s.kick limit) := h.frame

theorem watchdog (h : s0.Keeps s) : s0.Keeps s.watchdog := h.requestReset.ite (h.frame.ite h)

/-! ### Suilo -/

theorem relayToTwin (h : s0.Keeps s) {datagram} : s0.Keeps (s.relayToTwin datagram) :=
  h.fresh.foldl fun _ _ h => h.send

theorem sendDatagram (h : s0.Keeps s) {port dst x u relayed} : s0.Keeps (s.sendDatagram port dst x u relayed) :=
  h.frame.relayToTwin.ite (h.frame.eth (by simp))

theorem sendPlain (h : s0.Keeps s) {x type payload} : s0.Keeps (s.sendPlain x type payload) := h.sendDatagram

theorem emit (h : s0.Keeps s) {id type more payload} : s0.Keeps (s.emit id type more payload) := by
  unfold State.emit
  split
  · exact h
  · exact h.sendDatagram.modSession

theorem sendOne (h : s0.Keeps s) {id type more payload} : s0.Keeps (s.sendOne id type more payload) := by
  unfold State.sendOne
  split
  · exact h
  · exact h.emit.ite h.modSession

theorem sendSuilo (h : s0.Keeps s) {id type payload} : s0.Keeps (s.sendSuilo id type payload) :=
  h.foldl fun _ _ h => h.sendOne

theorem drainQueued (h : s0.Keeps s) {id n} : s0.Keeps (State.drainQueued id n s) := by
  induction n generalizing s with
  | zero => exact h
  | succ n ih =>
    unfold State.drainQueued
    split
    · exact h
    split
    · exact h
    · exact .ite (ih h.modSession.emit) h

theorem resend (h : s0.Keeps s) {id keep} : s0.Keeps (s.resend id keep) := by
  unfold State.resend
  split
  · exact h
  · exact h.foldl fun _ _ h => h.sendDatagram

theorem dropSession (h : s0.Keeps s) {id} : s0.Keeps (s.dropSession id) := by
  unfold State.dropSession
  split
  · exact h
  · exact h.frame

theorem refuse (h : s0.Keeps s) {x st} : s0.Keeps (s.refuse x st) := h.sendPlain.dropSession

theorem startClosing (h : s0.Keeps s) {id send} : s0.Keeps (s.startClosing id send) := by
  dsimp only [State.startClosing]
  split
  · exact (h.sendSuilo.ite h).modSession.dropSession.ite (h.sendSuilo.ite h).modSession
  · exact (h.sendSuilo.ite h).modSession

theorem pushRing (h : s0.Keeps s) {id rid} : s0.Keeps (s.pushRing id rid) := by
  unfold State.pushRing
  split
  · split
    · exact h
    · exact h.modSession.ite h.modSession.sendSuilo
  · exact h

theorem pushEvents (h : s0.Keeps s) : s0.Keeps s.pushEvents := h.foldl fun _ _ h => (h.foldl fun _ _ h => h.pushRing)

theorem movePath (h : s0.Keeps s) {id port addr relayed} : s0.Keeps (s.movePath id port addr relayed) := by
  unfold State.movePath
  split
  · exact h
  · exact h.modSession.ite h.modSession.recordFault.resend

theorem probePaths (h : s0.Keeps s) {id} : s0.Keeps (s.probePaths id) := by
  unfold State.probePaths
  split
  · exact h
  · exact (h.foldl fun _ _ h => h.sendDatagram).modSession

theorem doorbellEntries (h : s0.Keeps s) {bs} : s0.Keeps (s.doorbellEntries bs) := h.foldl fun _ _ h => h.ringQueue

theorem deliver (h : s0.Keeps s) {id type k bs} : s0.Keeps (s.deliver id type k bs) := by
  unfold State.deliver
  split
  · exact h
  · exact (h.ringMailbox.ite h.mboxAreaWrite.ringMailbox).ite (h.doorbellEntries.ite
      (h.sendDatagram.modSession.ite (h.startClosing.ite h)))

theorem deliverNext (h : s0.Keeps s) {id k n} : s0.Keeps (State.deliverNext id k n s) := by
  induction n generalizing s with
  | zero => exact h
  | succ n ih =>
    unfold State.deliverNext
    split
    · exact h
    split
    · exact h
    · refine ih (.ite ?_ (deliver ?_))
      · exact h.modSession
      · exact h.modSession

theorem takeAck (h : s0.Keeps s) {id k} : s0.Keeps (s.takeAck id k) := by
  dsimp only [State.takeAck]
  refine .ite ?_ ?_
  · exact h
  · split
    · split
      · exact h.modSession.drainQueued.dropSession.ite h.modSession.drainQueued
      · exact h.modSession.drainQueued
    · exact h.modSession

theorem countFrame (h : s0.Keeps s) {e} : s0.Keeps (s.countFrame e) := h.eth (by simp)

theorem suiloIn (h : s0.Keeps s) {type k} : s0.Keeps (s.suiloIn type k) := by
  unfold State.suiloIn
  extract_lets s1 seq s2
  have h1 : s0.Keeps s1 := h.countFrame
  split
  · exact h1
  · extract_lets reply s3 s4 s5 s6
    have h3 : s0.Keeps s3 := h1.modSession.movePath.ite h1.modSession
    have h6 : s0.Keeps s6 := h3.takeAck.modSession.deliverNext
    refine .ite h1 ?_
    split
    · exact h6.sendSuilo.ite h6
    · exact h6

theorem suiloRow {go} (h : s0.Keeps s) (hgo : s0.Keeps go) {type k} : s0.Keeps (s.suiloRow type k go) :=
  hgo.ite (h.countFrame.relayToTwin.ite (h.eth (by simp)))

theorem retransmit (h : s0.Keeps s) {id seq} : s0.Keeps (s.retransmit id seq) := by
  unfold State.retransmit
  split
  · exact h
  · split
    · exact h
    · exact h.ite h.resend.modSession

theorem ackTimer (h : s0.Keeps s) {id} : s0.Keeps (s.ackTimer id) := by
  unfold State.ackTimer
  split
  · split
    · exact h.sendSuilo.ite h
    · exact h
  · exact h

theorem keepalive (h : s0.Keeps s) {id} : s0.Keeps (s.keepalive id) := by
  unfold State.keepalive
  split
  · exact h.sendSuilo.ite h
  · exact h

theorem idleTimeout (h : s0.Keeps s) {id} : s0.Keeps (s.idleTimeout id) := by
  unfold State.idleTimeout
  split
  · exact h.dropSession.ite h
  · exact h

theorem handshakeTimeout (h : s0.Keeps s) {id} : s0.Keeps (s.handshakeTimeout id) := by
  unfold State.handshakeTimeout
  split
  · exact h.fresh.sendPlain.dropSession.ite h
  · exact h

theorem closingTimeout (h : s0.Keeps s) {id} : s0.Keeps (s.closingTimeout id) := by
  unfold State.closingTimeout
  split
  · exact h.dropSession.ite h
  · exact h

theorem pathLoss (h : s0.Keeps s) {id} : s0.Keeps (s.pathLoss id) := by
  unfold State.pathLoss
  split
  · exact h.probePaths.ite h
  · exact h

theorem probeRetry (h : s0.Keeps s) {id} : s0.Keeps (s.probeRetry id) := by
  unfold State.probeRetry
  split
  · exact h.probePaths.ite h
  · exact h

/-! ### Areas -/

theorem initRing (h : s0.Keeps s) {base slots} : s0.Keeps (s.initRing base slots) := h.ownStore

theorem freshBytes (h : s0.Keeps s) {n} : s0.Keeps (State.freshBytes n s).2 := by
  induction n generalizing s with
  | zero => exact h
  | succ n ih => exact ih h.fresh

theorem freshId (h : s0.Keeps s) {used} : s0.Keeps (s.freshId used).2 := h.fresh

/-! ### Net -/

theorem modEth (h : s0.Keeps s) {e f} : s0.Keeps (s.modEth e f) := h.eth (by simp)

theorem sendEth (h : s0.Keeps s) {e dst bs} : s0.Keeps (s.sendEth e dst bs) := h.frame.modEth

theorem ethUp (h : s0.Keeps s) {e} : s0.Keeps (s.ethUp e) := h.modEth.ite h

theorem ethDown (h : s0.Keeps s) {e} : s0.Keeps (s.ethDown e) :=
  h.ite (h.modEth.frame.foldl fun _ _ h => h.probePaths)

theorem ethControl (h : s0.Keeps s) {e v} : s0.Keeps (s.ethControl e v) := h.modEth.ethDown.ite h.modEth

theorem ethFrame {go} (h : s0.Keeps s) (hgo : ∀ t, s0.Keeps t → s0.Keeps (go t)) {e} : s0.Keeps (s.ethFrame e go) :=
  (hgo _ h.countFrame).ite h

theorem arpReply (h : s0.Keeps s) {e target} : s0.Keeps (s.arpReply e target) :=
  h.ethFrame fun _ h => (h.sendEth.ite h)

theorem neighbourReply (h : s0.Keeps s) {e target} : s0.Keeps (s.neighbourReply e target) :=
  h.ethFrame fun _ h => (h.sendEth.ite h)

theorem echoReply (h : s0.Keeps s) {e v6 target data} : s0.Keeps (s.echoReply e v6 target data) :=
  h.ethFrame fun _ h => (h.sendEth.ite h)

theorem lease (h : s0.Keeps s) {e v4 v6} : s0.Keeps (s.lease e v4 v6) := h.ethFrame fun _ h => h.modEth

theorem pause (h : s0.Keeps s) {e prio quanta} : s0.Keeps (s.pause e prio quanta) := h.ethFrame fun _ h => h.modEth

theorem pauseFrame (h : s0.Keeps s) {e on} : s0.Keeps (s.pauseFrame e on) := h.sendEth

theorem drained (h : s0.Keeps s) {e} : s0.Keeps (s.drained e) := h.modEth.pauseFrame.ite h.modEth

theorem countDrop (h : s0.Keeps s) {e} : s0.Keeps (s.countDrop e) := h.modEth

theorem bufferAt (h : s0.Keeps s) {e bytes} : s0.Keeps (s.bufferAt e bytes) :=
  (h.modEth.countDrop.ite h.modEth).ite (h.modEth.modEth.pauseFrame.ite h.modEth)

theorem dropFrame (h : s0.Keeps s) {e why} : s0.Keeps (s.dropFrame e why) := by
  unfold State.dropFrame
  refine .ite ?_ ?_
  · exact h
  · split
    · exact h.countDrop
    · exact h.countDrop
    · exact h.bufferAt

theorem strayTo (h : s0.Keeps s) {e dst id type relayed payload} :
    s0.Keeps (s.strayTo e dst id type relayed payload) := h.sendPlain

theorem refuseStray (h : s0.Keeps s) {e src} : s0.Keeps (s.refuseStray e src) := h.ite h.frame.strayTo

theorem suiloFlawed (h : s0.Keeps s) {e why src} : s0.Keeps (s.suiloFlawed e why src) := by
  refine h.ethFrame fun _ h => ?_
  split
  · exact h.refuseStray
  · exact h.modEth
  · exact h.modEth
  · exact h.modEth

theorem modQp (h : s0.Keeps s) {n f} : s0.Keeps (s.modQp n f) := h.frame

theorem roce (h : s0.Keeps s) {q r more} : s0.Keeps (s.roce q r more) := h.sendEth

theorem congested (h : s0.Keeps s) {q ce} : s0.Keeps (s.congested q ce) := h.modQp.roce.modEth.ite h

theorem cnpIn (h : s0.Keeps s) {n} : s0.Keeps (s.cnpIn n) := h.modQp

theorem rateUp (h : s0.Keeps s) {n} : s0.Keeps (s.rateUp n) := h.modQp

theorem qpError (h : s0.Keeps s) {q r} : s0.Keeps (s.qpError q r) := h.roce.modQp

theorem onQp {go} (h : s0.Keeps s) (hgo : ∀ x0 t, s0.Keeps t → s0.Keeps (go x0 t)) {n ce} :
    s0.Keeps (s.onQp n ce go) := by
  unfold State.onQp
  split
  · exact h
  · exact h.ite (hgo _ _ h.countFrame.congested)

theorem roceDone (h : s0.Keeps s) {q len r more} : s0.Keeps (s.roceDone q len r more) := h.roce.modQp

theorem qpRecord (h : s0.Keeps s) {q len imm cls data} : s0.Keeps (s.qpRecord q len imm cls data) := h.store.store64

theorem qpDeliver (h : s0.Keeps s) {q len imm cls data} : s0.Keeps (s.qpDeliver q len imm cls data) := by
  unfold State.qpDeliver
  split
  · exact h.strike.qpError
  · exact h.qpRecord.roceDone

theorem roceSend (h : s0.Keeps s) {n imm ce data} : s0.Keeps (s.roceSend n imm ce data) :=
  h.onQp fun _ _ h => (h.roce.ite (h.roce.ite h.qpDeliver))

theorem rdmaPut? (h : s0.Keeps s) {q key va data} (e : s.rdmaPut? q key va data = some t) : s0.Keeps t := by
  unfold State.rdmaPut? at e
  split at e
  · exact Option.some.inj e ▸ h.ringQueue
  split at e
  · exact Option.some.inj e ▸ h.foldl fun _ _ h => h.writeLinePart
  · cases e

theorem roceWrite (h : s0.Keeps s) {n key va imm ce data} : s0.Keeps (s.roceWrite n key va imm ce data) := by
  refine h.onQp fun q s h => .ite h.roce (.ite h.roce ?_)
  split
  next => exact h.qpError
  next e => exact .ite (rdmaPut? h e).qpDeliver (rdmaPut? h e).roceDone

theorem roceRead (h : s0.Keeps s) {n key va len ce} : s0.Keeps (s.roceRead n key va len ce) := by
  refine h.onQp fun q s h => .ite h.roce (.ite h.qpError ?_)
  dsimp only
  split
  · exact h.detect.qpError
  · exact h.recallBlocks.roceDone

theorem roceAtomic (h : s0.Keeps s) {n} : s0.Keeps (s.roceAtomic n) := h.onQp fun _ _ h => h.qpError

/-! ### Handshake -/

theorem helloIn (h : s0.Keeps s) {k} : s0.Keeps (s.helloIn k) := by
  dsimp only [State.helloIn]
  split
  · exact h.countFrame.strayTo
  · exact h.countFrame.freshId.freshBytes.frame.sendPlain

theorem claimFailed (h : s0.Keeps s) : s0.Keeps s.claimFailed := h.frame

theorem okAddresses (h : s0.Keeps s) : s0.Keeps s.okAddresses.2 := by
  unfold State.okAddresses
  split
  · exact h
  · exact h.freshBytes

theorem deliverBacklog (h : s0.Keeps s) {r} : s0.Keeps (s.deliverBacklog r) :=
  (h.store64.foldl fun _ _ h => h.ringEvent).frame

theorem openSession (h : s0.Keeps s) {x} : s0.Keeps (s.openSession x) := by
  unfold State.openSession
  extract_lets ks r
  split
  next key s1 e =>
  extract_lets s2 s3 s4 s5
  have h1 : s0.Keeps s1 := ofSnd h.freshId e
  have h3 : s0.Keeps s3 := .ite h1.initRing.deliverBacklog h1.initRing
  have h5 : s0.Keeps s5 := modSession (frame h3)
  split
  next addrs s6 e =>
  exact (ofSnd h5.okAddresses e).sendSuilo

theorem authIn (h : s0.Keeps s) {k} : s0.Keeps (s.authIn k) := by
  dsimp only [State.authIn]
  split
  · exact h.countFrame.refuseStray
  · exact h.countFrame.ite ((h.countFrame.frame.ite h.countFrame).openSession.ite
      (h.countFrame.claimFailed.ite h.countFrame).refuse)

/-! ### RegWrite -/

theorem writeTop (h : s0.Keeps s) {o v} : s0.Keeps (s.writeTop o v) := h.frame.ite (h.kick.ite h)

theorem writePacer (h : s0.Keeps s) {src o v} : s0.Keeps (s.writePacer src o v) := by
  unfold State.writePacer
  refine .ite ?_ ?_
  · split
    · exact h.frame
    · exact h
  · exact h

theorem writeJudge (h : s0.Keeps s) {j o v} : s0.Keeps (s.writeJudge j o v) := (h.judges (by simp)).ite h

theorem writeEdern (h : s0.Keeps s) {e o v} : s0.Keeps (s.writeEdern e o v) := h.modStack.ite h

theorem writeTrack (h : s0.Keeps s) {d o v} : s0.Keeps (s.writeTrack d o v) := (h.tracks (by simp)).ite h

theorem setTrace (h : s0.Keeps s) {n on} : s0.Keeps (s.setTrace n on) := h.modCore fun _ hc => .ite hc hc

theorem writeHc (h : s0.Keeps s) {src n o v} : s0.Keeps (s.writeHc src n o v) := h.modCore.ite (h.setTrace.ite h)

theorem writeBlock (h : s0.Keeps s) {src b o v} : s0.Keeps (s.writeBlock src b o v) :=
  h.writeTop.ite (h.writePacer.ite ((h.setDrive.ite h).ite ((h.ethControl.ite h).ite
      ((h.setLoopback.setEnable.ite h).ite (h.writeJudge.ite (h.writeEdern.ite (h.writeTrack.ite
          (h.writeHc.ite h))))))))

theorem writeAt (h : s0.Keeps s) {src a bs} : s0.Keeps (s.writeAt src a bs) := by
  unfold State.writeAt
  split
  · exact h.writeBlock.ite h
  · exact h.ringQueue.ite h
  · exact h.mboxAreaWrite.ite (h.ite ((h.ringMailbox.ite h).ite (h.mboxStatusWrite.ite h)))
  · exact h.foldl fun _ _ h => h.writeLinePart
  · exact h
  · exact h.store

theorem readAt (h : s0.Keeps s) {a n} : s0.Keeps (s.readAt a n) := h.readBytes.answer

theorem debugHeat (h : s0.Keeps s) {p write} : s0.Keeps (s.debugHeat p write) := by
  unfold State.debugHeat
  split <;> exact h.answer

/-! ### Mailbox -/

theorem sendStarter (h : s0.Keeps s) {p number response msg} : s0.Keeps (s.sendStarter p number response msg) :=
  h.send

theorem returnResponse (h : s0.Keeps s) {m msg} : s0.Keeps (s.returnResponse m msg) := by
  dsimp only [State.returnResponse]
  refine .ite ?_ ?_
  · split
    · exact h.modMbox.sendSuilo
    · exact h.modMbox
  · exact h.modMbox.sendStarter.ite h

theorem respond (h : s0.Keeps s) {m st detail result} : s0.Keeps (s.respond m st detail result) :=
  h.store.modMbox.returnResponse

theorem command {go} (h : s0.Keeps s) (hgo : s0.Keeps go) {g m len fails} : s0.Keeps
    (s.command g m len fails go) := by
  unfold State.command
  refine .ite ?_ ?_
  · exact h
  · refine .ite ?_ ?_
    · exact h.respond
    · refine .ite ?_ ?_
      · exact h.respond
      · refine .ite ?_ ?_
        · exact h
        · split
          · exact h.respond
          · exact hgo

theorem finishOk (h : s0.Keeps s) {m result} : s0.Keeps (s.finishOk m result) := h.respond

/-! ### Twin -/

theorem sendShadow (h : s0.Keeps s) {job kind step addr data} : s0.Keeps (s.sendShadow job kind step addr data) :=
  h.foldl fun _ _ h => (h.sampleJudge.ite h).send

theorem releaseShadows (h : s0.Keeps s) {job} : s0.Keeps (s.releaseShadows job) := h.sendShadow.ite h

/-! ### Jobs -/

theorem jobCreate (h : s0.Keeps s) {m} : s0.Keeps (s.jobCreate m) :=
  (h.initRing.ite h.initRing.initRing).frame.finishOk

theorem destroyJob (h : s0.Keeps s) {id} : s0.Keeps (s.destroyJob id) := by
  unfold State.destroyJob
  extract_lets s1 s2
  have h2 : s0.Keeps s2 := h.notify.releaseShadows.endChains
  clear_value s2
  refine ⟨(mapCores (h2.judges (List.length_map _)) fun c hc => ?_).guard⟩
  exact .ite hc hc

theorem restartHeld (h : s0.Keeps s) {id} : s0.Keeps (s.restartHeld id) := h.modJob

theorem jobSpares (h : s0.Keeps s) {m} : s0.Keeps (s.jobSpares m) := (h.modJob.ite h.modJob.restartHeld).finishOk

theorem queueCreate (h : s0.Keeps s) {m} : s0.Keeps (s.queueCreate m) :=
  h.frame.finishOk.ite h.initRing.frame.finishOk

theorem queueBind (h : s0.Keeps s) {m} : s0.Keeps (s.queueBind m) := by
  unfold State.queueBind
  split
  · exact h
  · exact (h.ownStore.ite h).setQueue.finishOk

theorem queueResume (h : s0.Keeps s) {m} : s0.Keeps (s.queueResume m) := by
  unfold State.queueResume
  split
  · exact h
  · exact h.setQueue.finishOk

theorem queueSreg (h : s0.Keeps s) {m} : s0.Keeps (s.queueSreg m) := by
  unfold State.queueSreg
  split
  · exact h
  · exact h.finishOk.ite h.setQueue.finishOk

theorem queueDestroy (h : s0.Keeps s) {m} : s0.Keeps (s.queueDestroy m) := h.frame.finishOk

theorem descLoad (h : s0.Keeps s) {m} : s0.Keeps (s.descLoad m) := by
  unfold State.descLoad
  split
  · exact h
  · exact h.ownStore.finishOk

theorem debugBreak (h : s0.Keeps s) {m} : s0.Keeps (s.debugBreak m) := by
  unfold State.debugBreak
  split
  · exact h
  · exact h.setQueue.finishOk

/-! ### Policies -/

theorem groupJoin (h : s0.Keeps s) {m} : s0.Keeps (s.groupJoin m) :=
  ((h.frame.modJob.ite h.frame).floodSerial.ite (h.frame.modJob.ite h.frame)).settle.finishOk

theorem groupLeave (h : s0.Keeps s) {m} : s0.Keeps (s.groupLeave m) := h.frame.settle.finishOk

theorem ckptPolicy (h : s0.Keeps s) {m} : s0.Keeps (s.ckptPolicy m) := h.modJob.finishOk

/-! ### Enrol -/

theorem modSessionAt (h : s0.Keeps s) {m f} : s0.Keeps (s.modSessionAt m f) := by
  unfold State.modSessionAt
  split
  · exact h.modSession
  · exact h

theorem enrol {go} (h : s0.Keeps s) (hgo : s0.Keeps go) {m kind n ok fails} :
    s0.Keeps (s.enrol m kind n ok fails go) := (h.command h).ite (h.ite (h.command hgo))

theorem ownerAdd (h : s0.Keeps s) {m} : s0.Keeps (s.ownerAdd m) := h.frame.modSessionAt.finishOk

theorem ownerRevoke (h : s0.Keeps s) {m} : s0.Keeps (s.ownerRevoke m) :=
  (h.frame.foldl fun _ _ h => h.startClosing).finishOk.foldl fun _ _ h => h.startClosing

theorem regionAdd (h : s0.Keeps s) {m} : s0.Keeps (s.regionAdd m) := by
  unfold State.regionAdd
  exact finishOk (modSessionAt h.frame)

theorem regionRemove (h : s0.Keeps s) {m} : s0.Keeps (s.regionRemove m) := h.modSessionAt.finishOk

theorem qpConnect (h : s0.Keeps s) {m} : s0.Keeps (s.qpConnect m) := by
  dsimp only [State.qpConnect]
  split
  · exact h
  · exact h.fresh.frame.initRing.finishOk

theorem qpDestroy (h : s0.Keeps s) {m} : s0.Keeps (s.qpDestroy m) := h.frame.finishOk

theorem subscribe (h : s0.Keeps s) {m} : s0.Keeps (s.subscribe m) := by
  unfold State.subscribe
  split
  · exact h.modSessionAt.finishOk
  · exact h

theorem unsubscribe (h : s0.Keeps s) {m} : s0.Keeps (s.unsubscribe m) := h.modSessionAt.finishOk

theorem netAddress (h : s0.Keeps s) {e addr gateway len} : s0.Keeps (State.netAddress e addr gateway len s) :=
  h.modEth

theorem netPort (h : s0.Keeps s) {m} : s0.Keeps (s.netPort m) := h.ethControl.netAddress.finishOk

theorem sessionClose (h : s0.Keeps s) {m} : s0.Keeps (s.sessionClose m) := by
  dsimp only [State.sessionClose]
  split
  · exact h.finishOk.startClosing
  · exact h.finishOk

/-! ### Device -/

theorem noteThrottle (h : s0.Keeps s) : s0.Keeps s.noteThrottle := h.frame.raiseAlert.ite h.frame

theorem startRamp (h : s0.Keeps s) {m} : s0.Keeps (s.startRamp m) := by
  unfold State.startRamp
  refine .ite ?_ ?_
  · split
    · exact h.finishOk
    · exact h
  · exact h.frame

theorem requestPace (h : s0.Keeps s) {m p} : s0.Keeps (s.requestPace m p) := h.frame.noteThrottle.startRamp

theorem laterPaces (h : s0.Keeps s) {n} : s0.Keeps (State.laterPaces n s) := by
  induction n generalizing s with
  | zero => exact h
  | succ n ih =>
    unfold State.laterPaces
    split
    · exact h
    · exact .ite h (ih (requestPace h.frame))

theorem paceSet (h : s0.Keeps s) {m} : s0.Keeps (s.paceSet m) := by
  unfold State.paceSet
  split
  · exact h
  · exact h.ite (h.frame.ite h.requestPace)

theorem readRegs (h : s0.Keeps s) {b o n} : s0.Keeps (State.readRegs b o n s).2 :=
  foldlSnd h fun _ _ h => h.readReg

theorem telemetryRead (h : s0.Keeps s) {m} : s0.Keeps (s.telemetryRead m) := h.readRegs.finishOk

theorem photoFinish (h : s0.Keeps s) {m} : s0.Keeps (s.photoFinish m) := h.frame.finishOk

theorem withMeasured (h : s0.Keeps s) {n ns} : s0.Keeps (State.withMeasured n ns s).2 := h.freshBytes

theorem unitCounters (h : s0.Keeps s) {u} : s0.Keeps (State.unitCounters u s).2 := by
  unfold State.unitCounters
  split
  · exact h.withMeasured
  · split <;> exact h.withMeasured
  · exact h.freshBytes
  · exact h.withMeasured
  · split <;> exact h.withMeasured
  · exact h.withMeasured
  · exact h.withMeasured
  · exact h
  · exact h

theorem unitSection (h : s0.Keeps s) {u} : s0.Keeps (State.unitSection u s).2 := h.freshBytes.unitCounters

theorem photoSections (h : s0.Keeps s) : s0.Keeps s.photoSections.2 := foldlSnd h fun _ _ h => h.unitSection

theorem photoDone (h : s0.Keeps s) : s0.Keeps s.photoDone := by
  unfold State.photoDone
  split
  · exact h
  · split
    next body s1 e =>
      have h1 : s0.Keeps s1 := ofSnd (photoSections h) e
      extract_lets s2 s3
      have h2 : s0.Keeps s2 := h1.ownStore
      have h3 : s0.Keeps s3 := (h2.tracks (List.length_map _)).frame
      exact h3.postDevice

theorem deviceTune (h : s0.Keeps s) {m} : s0.Keeps (s.deviceTune m) := h.writeBlock.finishOk

theorem coreAssign (h : s0.Keeps s) {m} : s0.Keeps (s.coreAssign m) := h.modCore.finishOk

theorem fwUpdate (h : s0.Keeps s) {m} : s0.Keeps (s.fwUpdate m) :=
  h.store.frame.finishOk.requestReset.ite h.store.frame.finishOk

theorem attestReport (h : s0.Keeps s) {m} : s0.Keeps (s.attestReport m) := h.finishOk

/-! ### Clocks -/

theorem detectAll (h : s0.Keeps s) {f} : s0.Keeps (s.detectAll f) := h.detect.ite (h.foldl fun _ _ h => h.detect)

theorem holdUnspared (h : s0.Keeps s) : s0.Keeps s.holdUnspared := by
  refine h.foldl fun _ _ h => ?_
  split
  · exact h
  · exact h.holdAll.ite h

theorem linksLost (h : s0.Keeps s) : s0.Keeps s.linksLost :=
  ((h.ports (by simp)).foldl fun _ _ h => h.ethDown).pairEvent.ite ((h.ports (by simp)).foldl fun _ _ h => h.ethDown)

theorem clockLost (h : s0.Keeps s) : s0.Keeps s.clockLost := by
  unfold State.clockLost
  exact h.frame.linksLost.detectAll.holdUnspared.postDevice

theorem checkWindow (h : s0.Keeps s) {n} : s0.Keeps (s.checkWindow n) := h.frame.ite (h.frame.ite h.frame.clockLost)

theorem windowEnds (h : s0.Keeps s) {n} : s0.Keeps (s.windowEnds n) :=
  h.ite (h.frame.frame.ite (h.frame.checkWindow.ite h.frame))

theorem oscillatorFails (h : s0.Keeps s) : s0.Keeps s.oscillatorFails := h.ite h.frame.detect

theorem crystalLate (h : s0.Keeps s) : s0.Keeps s.crystalLate := h.frame.recordFault.ite h

theorem paceSettles (h : s0.Keeps s) : s0.Keeps s.paceSettles := by
  unfold State.paceSettles
  refine .ite ?_ ?_
  · exact h
  · refine .laterPaces ?_
    split
    · exact h.frame.finishOk
    · exact h.frame

theorem moveLimit (h : s0.Keeps s) {p} : s0.Keeps (s.moveLimit p) :=
  h.frame.noteThrottle.ite h.frame.noteThrottle.startRamp

theorem throttle (h : s0.Keeps s) : s0.Keeps s.throttle := h.frame.moveLimit.ite h

theorem release1s (h : s0.Keeps s) : s0.Keeps s.release1s := by
  unfold State.release1s
  split
  · exact h.frame.moveLimit.ite h
  · exact h

theorem noteTemps (h : s0.Keeps s) {r} : s0.Keeps (s.noteTemps r) := by
  refine ⟨(h.edern ?_).guard⟩
  exact (List.length_map _).trans List.length_zipIdx

theorem tripPower (h : s0.Keeps s) {hub} : s0.Keeps (s.tripPower hub) := by
  unfold State.tripPower
  split
  · exact frame h.held
  · refine ⟨(mapCores h fun c hc => ?_).guard⟩
    exact hc

theorem thermalTrip (h : s0.Keeps s) {r bits} : s0.Keeps (s.thermalTrip r bits) :=
  h.frame.detectAll.postDevice.raiseAlert.tripPower

theorem readSensors (h : s0.Keeps s) {r} : s0.Keeps (s.readSensors r) :=
  h.ite (h.noteTemps.ite (h.noteTemps.thermalTrip.ite (h.noteTemps.frame.tripPower.ite h.noteTemps.frame)))

/-! ### Bringup -/

theorem trialFails (h : s0.Keeps s) : s0.Keeps s.trialFails := h.requestReset.frame.fresh.recordFault

theorem settleTrial (h : s0.Keeps s) {os} : s0.Keeps (s.settleTrial os) := h.frame.ite h

theorem trialLate (h : s0.Keeps s) : s0.Keeps s.trialLate := h.trialFails.ite h

theorem imageChecked (h : s0.Keeps s) {ok} : s0.Keeps (s.imageChecked ok) := h.ite (h.frame.ite (h.trialFails.ite h))

theorem selfTestFailed (h : s0.Keeps s) {f} : s0.Keeps (s.selfTestFailed f) := by
  unfold State.selfTestFailed
  split
  · exact h.detect
  · split
    · exact h.markDie
    · exact h.ite h.detect
  · exact h.detect
  · exact h.detect
  · exact h.detect
  · exact h.detect
  · exact h.detect
  · exact h.detect

theorem zeroMemory (h : s0.Keeps s) : s0.Keeps s.zeroMemory := (h.mem fun hm => Memory.wf_slice hm _ _).frame

theorem selfTested (h : s0.Keeps s) {fs} : s0.Keeps (s.selfTested fs) := by
  unfold State.selfTested
  split
  · exact h
  · extract_lets s1 _ s2
    have h1 : s0.Keeps s1 := (h.foldl fun _ _ h => h.selfTestFailed).zeroMemory
    clear_value s1
    have h2 : s0.Keeps s2 := ⟨(h1.edern (List.length_map _)).guard⟩
    exact (h2.foldl fun _ _ h => h.trainPort).followPresent

theorem startAddressing (h : s0.Keeps s) : s0.Keeps s.startAddressing := h.frame.ite h

theorem resolvePairing (h : s0.Keeps s) : s0.Keeps s.resolvePairing :=
  h.ite (h.frame.startAddressing.ite (h.postDevice.frame.startAddressing.ite h))

theorem resolveLinks (h : s0.Keeps s) : s0.Keeps s.resolveLinks := h.ite (h.frame.startAddressing.ite h)

theorem resolveAddressing (h : s0.Keeps s) : s0.Keeps s.resolveAddressing := h.ite (h.frame.ite h)

theorem bootOs (h : s0.Keeps s) {entry} : s0.Keeps (s.bootOs entry) := by
  unfold State.bootOs
  split
  · exact h
  · refine ⟨(h.cores ?_ fun hw c hc => ?_).guard⟩
    · rw [List.length_map, List.length_zipIdx]
    · obtain ⟨x, hx, rfl⟩ := List.mem_map.1 hc
      have hd : x.1.whole := hw _ (List.fst_mem_of_mem_zipIdx hx)
      exact .ite hd hd

theorem reachReady (h : s0.Keeps s) : s0.Keeps s.reachReady :=
  h.ite (h.settleTrial.settleTrial.frame.frame.postDevice.ite h.settleTrial.settleTrial.frame.frame.postDevice)

theorem idleCycle (h : s0.Keeps s) : s0.Keeps s.idleCycle := h.ite (h.frame.ite h.frame.pushEvents)

/-! ### Shadows -/

theorem rewind (h : s0.Keeps s) {id step lap qs seqs} : s0.Keeps (s.rewind id step lap qs seqs) := h.frame.modJob

theorem dropSetLines (h : s0.Keeps s) {j} : s0.Keeps (s.dropSetLines j) := h.frame

theorem wf_foldl_overlay {m : Memory} (hm : m.wf = true) (rs : List Range) (cells : List Host.Cell) :
    (rs.foldl (fun m r => m.overlay r.base r.len cells) m).wf = true := by
  induction rs generalizing m with
  | nil => exact hm
  | cons r rs ih => exact ih (Memory.wf_overlay hm _ _ _)

theorem localRestore (h : s0.Keeps s) {id step} : s0.Keeps (s.localRestore id step) := by
  unfold State.localRestore
  split
  next => exact h
  next j _ =>
    split
    next => exact h
    next g _ =>
      refine .ite h (rewind (modJob (dropSetLines ?_)))
      exact (h.mem fun hm => wf_foldl_overlay hm _ _).frame

theorem modGen (h : s0.Keeps s) {id step f} : s0.Keeps (s.modGen id step f) := h.modJob

theorem streamRecord (h : s0.Keeps s) {id step} : s0.Keeps (s.streamRecord id step) := by
  unfold State.streamRecord
  split
  · exact h
  · split
    · exact h.modJob.modGen.sendShadow.ite h
    · exact h

theorem shadowStream (h : s0.Keeps s) {id st} : s0.Keeps (s.shadowStream id st) := by
  unfold State.shadowStream
  split
  · exact h
  · split
    · exact h
    · exact h.modGen.modJob.postDevice.ite (h.foldl fun _ _ h => h.sendShadow).modStack.modGen.streamRecord

theorem shadowWhole (h : s0.Keeps s) {id step} : s0.Keeps (s.shadowWhole id step) := by
  unfold State.shadowWhole
  split
  · exact h
  · exact h.modJob.ite h

theorem shadowConfirms (h : s0.Keeps s) {id step addr} : s0.Keeps (s.shadowConfirms id step addr) :=
  h.modGen.shadowWhole

theorem shadowConfirmed (h : s0.Keeps s) {id step} : s0.Keeps (s.shadowConfirmed id step) := h.modGen.shadowWhole

theorem setShadow (h : s0.Keeps s) {a1} : s0.Keeps (s.setShadow a1) := h.frame

theorem shadowData (h : s0.Keeps s) {job step addr data crcOk} : s0.Keeps (s.shadowData job step addr data crcOk) :=
  h.sendShadow.ite (h.setShadow.sendShadow.ite (h.setShadow.sendShadow.ite
      (h.setShadow.sendShadow.ite h.setShadow.sendShadow)))

theorem shadowRefused (h : s0.Keeps s) {job step addr} : s0.Keeps (s.shadowRefused job step addr) := by
  unfold State.shadowRefused
  split
  · exact h.ite h.modGen.postDevice
  · exact h

theorem shadowResend (h : s0.Keeps s) {job step addr} : s0.Keeps (s.shadowResend job step addr) := by
  unfold State.shadowResend
  split
  · exact h.sendShadow
  · exact h

theorem shadowRequested (h : s0.Keeps s) {job step only} : s0.Keeps (s.shadowRequested job step only) := by
  dsimp only [State.shadowRequested]
  split
  · exact (h.foldl fun _ _ h => h.sendShadow).sendShadow.ite (h.foldl fun _ _ h => h.sendShadow)
  · split
    · exact ((h.foldl fun _ _ h => h.sendShadow).sendShadow.ite (h.foldl fun _ _ h => h.sendShadow)).ite h
    · exact h

theorem restoreAwaits (h : s0.Keeps s) {job addr again} : s0.Keeps (s.restoreAwaits job addr again) := h.modJob

theorem restoreData {again} (h : s0.Keeps s) (hagain : ∀ t, s0.Keeps t → s0.Keeps (again t))
    {job step addr data crcOk} : s0.Keeps (s.restoreData job step addr data crcOk again) := by
  unfold State.restoreData
  split
  · exact h
  · exact h.ite ((hagain _ h.restoreAwaits).ite (h.restoreAwaits.dropSetLines.modJob.rewind.ite
      (h.restoreAwaits.store.ite h)))

theorem shadowMessage (h : s0.Keeps s) {job kind bs} : s0.Keeps (s.shadowMessage job kind bs) := by
  unfold State.shadowMessage
  split
  · exact h.shadowData
  · exact h.shadowConfirms
  · exact h.shadowRefused
  · exact h.shadowResend
  · exact h.restoreData fun _ h => h.sendShadow
  · exact h.shadowRequested
  · exact h.shadowRequested
  · exact h.frame

theorem shadowIn (h : s0.Keeps s) {k} : s0.Keeps (s.shadowIn k) := by
  unfold State.shadowIn
  refine .ite ?_ ?_
  · exact h.frame
  · split
    · exact h.frame.shadowMessage
    · exact h.frame

/-! ### Restart -/

theorem forward (h : s0.Keeps s) {src job n origin number value more} :
    s0.Keeps (s.forward src job n origin number value more) := h.modJob.notify

theorem modTransfer (h : s0.Keeps s) {job f} : s0.Keeps (s.modTransfer job f) := h.frame

theorem sendTransfer (h : s0.Keeps s) {p job number bs} : s0.Keeps (s.sendTransfer p job number bs) :=
  h.foldl fun _ _ h => h.send

theorem sendGeneration (h : s0.Keeps s) {p t} : s0.Keeps (s.sendGeneration p t) := h.foldl fun _ _ h => h.sendTransfer

theorem startTransfer (h : s0.Keeps s) {job spare step} : s0.Keeps (s.startTransfer job spare step) := h.frame.notify

theorem pathNoticed (h : s0.Keeps s) {p job origin step spare} : s0.Keeps (s.pathNoticed p job origin step spare) :=
  h.ite (h.frame.notify.notify.ite h.frame.notify)

theorem pathClaimed (h : s0.Keeps s) {p job} : s0.Keeps (s.pathClaimed p job) := by
  unfold State.pathClaimed
  split
  · exact h
  · refine .ite ?_ ?_
    · exact h
    · split
      · exact h.modTransfer.sendGeneration
      · exact h.modTransfer.notify

theorem endTransfer (h : s0.Keeps s) {job} : s0.Keeps (s.endTransfer job) := h.frame

theorem spareTakes (h : s0.Keeps s) {job step addr data} : s0.Keeps (s.spareTakes job step addr data) := by
  unfold State.spareTakes
  refine .ite (h.restoreData fun _ h => h) (.ite h.frame (.ite h.store h))

theorem transferMessage (h : s0.Keeps s) {p job number bs} : s0.Keeps (s.transferMessage p job number bs) := by
  dsimp only [State.transferMessage]
  refine .ite ?_ ?_
  · exact h.modTransfer.notify
  · split
    · exact (h.modTransfer.ite h.modTransfer.spareTakes).spareTakes.notify.endTransfer.ite
        (h.modTransfer.ite h.modTransfer.spareTakes)
    · exact h.modTransfer.ite h.modTransfer.spareTakes

theorem transferAgain (h : s0.Keeps s) {p job number origin} : s0.Keeps (s.transferAgain p job number origin) := by
  unfold State.transferAgain
  split
  · exact h
  · refine .ite ?_ ?_
    · exact h
    · split
      · exact h.notify
      · split
        · exact h.sendTransfer
        · exact h

theorem transferDone (h : s0.Keeps s) {p job number origin} : s0.Keeps (s.transferDone p job number origin) := by
  unfold State.transferDone
  split
  · exact h
  · refine .ite ?_ ?_
    · exact h
    · refine .endTransfer ?_
      split
      · exact h.notify
      · exact h

theorem transferPacket (h : s0.Keeps s) {p k} : s0.Keeps (s.transferPacket p k) := by
  unfold State.transferPacket
  split
  · exact h.freeCredits.hopFail
  · split
    · exact h.freeCredits.hopFail
    · refine .ite ?_ ?_
      · exact h.freeCredits.hopFail
      · split
        · exact h.freeCredits.modTransfer.send
        · exact h.freeCredits.modTransfer.modTransfer.ite h.freeCredits.modTransfer.modTransfer.transferMessage

theorem noteAnswer (h : s0.Keeps s) {job device steps} : s0.Keeps (s.noteAnswer job device steps) := h.modJob

theorem answerFor (h : s0.Keeps s) {job device steps} : s0.Keeps (s.answerFor job device steps) := h.noteAnswer.flood

theorem asked (h : s0.Keeps s) {job} : s0.Keeps (s.asked job) := by
  dsimp only [State.asked]
  split
  · exact h.restartHeld.modJob.answerFor.answerFor.ite h.restartHeld.modJob.answerFor
  · exact h.restartHeld

theorem replaceSerials (h : s0.Keeps s) {job pairs} : s0.Keeps (s.replaceSerials job pairs) := h.frame

theorem restoreAt (h : s0.Keeps s) {job step pairs} : s0.Keeps (s.restoreAt job step pairs) := by
  dsimp only [State.restoreAt]
  split
  · refine .ite ?_ ?_
    · refine .startTransfer ?_
      split
      · exact h.replaceSerials.modJob.sendShadow.ite h.replaceSerials.modJob
      · exact h.replaceSerials.modJob
    · split
      · exact h.replaceSerials.modJob.sendShadow.ite h.replaceSerials.modJob
      · exact h.replaceSerials.modJob
  · split
    · exact h.replaceSerials.modJob.sendShadow.ite h.replaceSerials.modJob
    · exact h.replaceSerials.modJob

theorem restoreNoticed (h : s0.Keeps s) {job step more} : s0.Keeps (s.restoreNoticed job step more) :=
  h.holdJob.ite h.restoreAt

theorem agree (h : s0.Keeps s) {j fits} : s0.Keeps (s.agree j fits) := by
  unfold State.agree
  split
  · exact h.postJob.holdAll
  · split
    · exact h.holdAll
    · split
      · exact h.holdAll
      · exact h.flood.restoreAt

theorem restorePointAgreed (h : s0.Keeps s) {job fits} : s0.Keeps (s.restorePointAgreed job fits) := by
  dsimp only [State.restorePointAgreed]
  split
  · exact h
  · refine .ite ?_ ?_
    · exact h
    · split
      · exact (h.ite h.flood.asked).agree.ite (h.ite h.flood.asked)
      · exact h.ite h.flood.asked

theorem elected (h : s0.Keeps s) {job} : s0.Keeps (s.elected job) := h.modJob

theorem restoreComplete (h : s0.Keeps s) {job} : s0.Keeps (s.restoreComplete job) := by
  unfold State.restoreComplete
  split
  · exact h
  · split
    · exact h
    · exact h.ite (h.frame.foldl fun _ _ h => h.frame.leaveBuffer).modJob

theorem jobResumed (h : s0.Keeps s) {job} : s0.Keeps (s.jobResumed job) := by
  unfold State.jobResumed
  split
  · exact h
  · exact h.ite h.frame.modJob.tellCores.postJob

theorem takeNotice (h : s0.Keeps s) {p job n origin number value more} :
    s0.Keeps (s.takeNotice p job n origin number value more) := by
  dsimp only [State.takeNotice]
  split
  · exact h.endChains.noteDevices.faultJob
  · split
    · exact h.holdJob
    · exact h
  · exact h.ite h.noteRecord.faultJob.forward
  · split
    · exact h.modJob.floodSerial.ite h
    · exact h
  · exact h.ite h.modJob.forward
  · exact h.ite h.restoreNoticed.forward
  · exact (h.ite h.asked.forward).ite (h.frame.notify.ite h)
  · exact h.ite h.noteAnswer.forward
  · exact h.pathNoticed
  · exact h.pathClaimed
  · exact h.transferAgain
  · exact h.transferDone

theorem ctrlIn (h : s0.Keeps s) {p k} : s0.Keeps (s.ctrlIn p k) := by
  dsimp only [State.ctrlIn]
  split
  · exact h.freeCredits.hopFail
  · split
    · exact h.freeCredits.takeNotice.settle.ite h.freeCredits.hopFail
    · exact h.freeCredits.hopFail

theorem faultNoticed (h : s0.Keeps s) {n} : s0.Keeps (s.faultNoticed n) := by
  dsimp only [State.faultNoticed]
  split
  · exact h.detect
  · split
    · exact h
    · exact h.ite h.fresh.noteDevices.faultJob.forward

theorem channelExpired (h : s0.Keeps s) {die o u job} : s0.Keeps (s.channelExpired die o u job) :=
  h.ite ((h.tracks (by simp)).frame.ite (h.tracks (by simp))).detect

theorem lockstepHc (h : s0.Keeps s) {n} : s0.Keeps (s.lockstepHc n) := h.modCore.dropReservation.detect

theorem lockstepSt (h : s0.Keeps s) : s0.Keeps s.lockstepSt := by
  refine ⟨(mapCores h fun c hc => ?_).guard⟩
  exact .ite hc hc

theorem spareTested (h : s0.Keeps s) {a1 passed} : s0.Keeps (s.spareTested a1 passed) := h.detect.ite h

theorem unitTested (h : s0.Keeps s) {p u passed partner} : s0.Keeps (s.unitTested p u passed partner) :=
  (h.modPort.ite h).detect.ite (h.modPort.ite h)

/-! ### Pair -/

theorem sendPairctl (h : s0.Keeps s) {k} : s0.Keeps (s.sendPairctl k) := h.send

theorem settleMode (h : s0.Keeps s) : s0.Keeps s.settleMode := h.frame.postDevice.ite h

theorem joinTwin (h : s0.Keeps s) {serial m} : s0.Keeps (s.joinTwin serial m) :=
  (h.frame.ite h.frame.sendPairctl).settleMode

theorem unpair (h : s0.Keeps s) : s0.Keeps s.unpair := h.frame

theorem pairctlIn (h : s0.Keeps s) {k} : s0.Keeps (s.pairctlIn k) := by
  unfold State.pairctlIn
  refine .ite ?_ ?_
  · exact h
  · split
    · exact h.joinTwin
    · exact h.frame.settleMode.ite h
    · exact h.unpair.sendPairctl.ite h
    · split
      · exact h.frame.unpair.finishOk
      · exact h
    · exact h

theorem pairReset (h : s0.Keeps s) {k} : s0.Keeps (s.pairReset k) := h.frame.requestReset.ite h

theorem onPair {go} (h : s0.Keeps s) (hgo : ∀ t, s0.Keeps t → s0.Keeps (go t)) {k needsTwin} :
    s0.Keeps (s.onPair k needsTwin go) := by
  unfold State.onPair
  split
  · exact h.freeCredits.hopFail
  · exact h.freeCredits.hopFail.ite (hgo _ h.freeCredits)

theorem beatOut (h : s0.Keeps s) : s0.Keeps s.beatOut := h.frame.send.ite h

theorem beatIn (h : s0.Keeps s) {k} : s0.Keeps (s.beatIn k) := h.frame

theorem loseTwinOf (h : s0.Keeps s) {job} : s0.Keeps (s.loseTwinOf job) :=
  h.detect.ite h.recordFault.notify.frame.notify

theorem heartbeatLost (h : s0.Keeps s) : s0.Keeps s.heartbeatLost := by
  unfold State.heartbeatLost
  split
  · exact h
  · exact h.ite ((h.recordFault.ite (h.foldl fun _ _ h => h.loseTwinOf)).sendPairctl.ite (h.recordFault.ite
      (h.foldl fun _ _ h => h.loseTwinOf))).frame.pairEvent

theorem digestIn (h : s0.Keeps s) {k} : s0.Keeps (s.digestIn k) := by
  dsimp only [State.digestIn]
  split
  · exact h
  · split
    · exact h.modJob.mirrorDiffers.ite h.modJob
    · exact h.modJob

theorem relayIn (h : s0.Keeps s) {k} : s0.Keeps (s.relayIn k) := by
  dsimp only [State.relayIn]
  split
  · exact h
  · split
    · exact h.frame.modEth.ite h
    · exact h

theorem starterIn (h : s0.Keeps s) {p k} : s0.Keeps (s.starterIn p k) := by
  unfold State.starterIn
  refine .ite ?_ ?_
  · split
    · exact h.modPort.answer.ite h
    · exact h
  · exact h.ringMailbox.ite h.mboxAreaWrite.ringMailbox.modPort

theorem starterSends (h : s0.Keeps s) {p msg} : s0.Keeps (s.starterSends p msg) := h.ite h.setPort.sendStarter

theorem starterTimeout (h : s0.Keeps s) {p} : s0.Keeps (s.starterTimeout p) := by
  unfold State.starterTimeout
  extract_lets s1
  have h1 : s0.Keeps s1 := by
    unfold s1
    split
    · exact .ite h.modPort.answer h
    · exact h
  split
  · exact .ite (respond (unpair h1.frame)) h1
  · exact h1

theorem sendTopo (h : s0.Keeps s) {ps} : s0.Keeps (s.sendTopo ps) := h.foldl fun _ _ h => h.send

theorem topoOut (h : s0.Keeps s) : s0.Keeps s.topoOut := h.frame.sendTopo

theorem topoIn (h : s0.Keeps s) {p k} : s0.Keeps (s.topoIn p k) :=
  h.freeCredits.hopFail.ite (h.freeCredits.hopFail.ite (h.freeCredits.ite
      (h.freeCredits.modPort.ite h.freeCredits.modPort.frame.topoOut)))

theorem topoAgain (h : s0.Keeps s) : s0.Keeps s.topoAgain := h.topoOut.ite h

theorem topoDeclared (h : s0.Keeps s) : s0.Keeps s.topoDeclared := by
  dsimp only [State.topoDeclared]
  refine .ite ?_ ?_
  · exact h
  · split <;> exact (h.frame.ite h.frame.topoOut).postDevice

theorem linkUp (h : s0.Keeps s) {p} : s0.Keeps (s.linkUp p) :=
  h.linkIsUp.ite (h.linkIsUp.sendPairctl.ite (h.linkIsUp.frame.sendTopo.ite h.linkIsUp.frame))

theorem setPairMode (h : s0.Keeps s) {m} : s0.Keeps (s.setPairMode m) :=
  (h.frame.sendPairctl.ite h.frame).settleMode.finishOk

theorem pairDetach (h : s0.Keeps s) {m} : s0.Keeps (s.pairDetach m) := h.sendPairctl.frame

/-! ### Scalar -/

theorem scalarLoadI (h : s0.Keeps s) {hc w} : s0.Keeps (Scalar.loadI hc w s).state := by
  dsimp only [Scalar.loadI]
  split
  · exact h.illegal
  · split
    · exact h.mmuLoad.ofTrap ‹_›
    · exact (h.mmuLoad.ofOk ‹_›).withReg

theorem scalarStoreI (h : s0.Keeps s) {hc w} : s0.Keeps (Scalar.storeI hc w s).state := by
  dsimp only [Scalar.storeI]
  split
  · exact h.illegal
  · split
    · exact h.mmuStore.ofTrap ‹_›
    · exact h.mmuStore.ofOk ‹_›

theorem csrAccess (h : s0.Keeps s) {n a f v} (e : Csr.access s n a f = some (v, t)) : s0.Keeps t := by
  unfold Csr.access at e
  split at e
  · cases e
  split at e
  · obtain ⟨-, rfl⟩ := Prod.mk.inj (Option.some.inj e)
    exact h
  split at e
  · cases e
  · obtain ⟨-, rfl⟩ := Prod.mk.inj (Option.some.inj e)
    exact h.modCore

theorem scalarCsrI (h : s0.Keeps s) {hc w} : s0.Keeps (Scalar.csrI hc w s).state := by
  unfold Scalar.csrI
  extract_lets c src wr
  split
  next => exact h.illegal
  next e => exact withReg (csrAccess h e)

theorem scalarSystem (h : s0.Keeps s) {hc w} : s0.Keeps (Scalar.system hc w s).state := by
  dsimp only [Scalar.system]
  split
  · split
    · exact h.illegal
    · exact h.scalarCsrI
  · split
    · split
      · exact h.illegal
      · exact h
    · split
      · exact h.illegal
      · split
        · exact h
        · exact h
        · split
          · exact h.illegal
          · exact h.modCore
        · split
          · exact h.modCore
          · exact h.illegal
        · split
          · exact h.illegal
          · split <;> exact h
        · exact h.illegal

theorem scalarMiscMem (h : s0.Keeps s) {hc w} : s0.Keeps (Scalar.miscMem hc w s).state := by
  unfold Scalar.miscMem
  split
  · exact h.fenceInstr
  · exact h
  · split
    · exact h.illegal
    · split
      · exact h.cboBody
      · exact h.cboBody
      · exact h.cboBody
      · exact h.cboBody
      · exact h.illegal
  · exact h.illegal

theorem scalarAmo (h : s0.Keeps s) {hc w} : s0.Keeps (Scalar.amo hc w s).state := by
  dsimp only [Scalar.amo]
  split
  · exact h.illegal
  · split
    · split
      · exact h.amoLr
      · exact h.illegal
    · split
      · exact h.amoSc
      · split
        · exact h.amoBody
        · exact h.illegal

theorem scalarFput (h : s0.Keeps s) {n double i r} : s0.Keeps (Scalar.fput s n double i r).state :=
  h.modCore fun _ hc => hc.setFreg.accrue

theorem scalarXput (h : s0.Keeps s) {n i v fl} : s0.Keeps (Scalar.xput s n i v fl).state :=
  h.modCore fun _ hc => hc.setReg.accrue

theorem scalarLoadF (h : s0.Keeps s) {hc w} : s0.Keeps (Scalar.loadF hc w s).state := by
  dsimp only [Scalar.loadF]
  split
  · exact h.illegal
  · split
    · exact h.mmuLoad.ofTrap ‹_›
    · exact (h.mmuLoad.ofOk ‹_›).scalarFput

theorem scalarStoreF (h : s0.Keeps s) {hc w} : s0.Keeps (Scalar.storeF hc w s).state := by
  dsimp only [Scalar.storeF]
  split
  · exact h.illegal
  · split
    · exact h.mmuStore.ofTrap ‹_›
    · exact h.mmuStore.ofOk ‹_›

theorem scalarFmadd (h : s0.Keeps s) {hc w negP negC} : s0.Keeps (Scalar.fmadd hc w negP negC s).state := by
  dsimp only [Scalar.fmadd]
  split
  · split
    · exact h.illegal
    · exact h.scalarFput
  · exact h.illegal

theorem scalarOpFp (h : s0.Keeps s) {hc w fs d} : s0.Keeps (Scalar.opFp hc w fs d s).state := by
  dsimp only [Scalar.opFp]
  split
  · split
    · exact h.scalarFput
    · exact h.illegal
  · split
    · exact h.scalarFput
    · exact h.illegal
  · split
    · exact h.scalarFput
    · exact h.illegal
  · split
    · exact h.scalarFput
    · exact h.illegal
  · split
    · split
      · exact h.scalarFput
      · exact h.illegal
    · exact h.illegal
  · split
    · exact h.scalarFput
    · exact h.illegal
  · split
    · exact h.scalarFput
    · exact h.illegal
  · split
    · exact h.scalarFput
    · exact h.scalarFput
    · exact h.illegal
  · split
    · exact h.scalarXput
    · exact h.scalarXput
    · exact h.scalarXput
    · exact h.illegal
  · split
    · exact h.scalarXput
    · exact h.illegal
  · split
    · exact h.scalarFput
    · exact h.illegal
  · split
    · exact h.illegal
    · split
      · exact h.scalarXput
      · split
        · exact h.scalarXput
        · exact h.illegal
  · split
    · exact h.scalarFput
    · exact h.illegal
  · exact h.illegal

theorem scalarFp (h : s0.Keeps s) {hc w} : s0.Keeps (Scalar.fp hc w s).state := by
  unfold Scalar.fp
  split
  · split
    · exact h.scalarOpFp
    · exact h.illegal
  · exact h.illegal

theorem scalarOrIllegal (h : s0.Keeps s) {n w r} : s0.Keeps (Scalar.orIllegal s n w r).state := by
  unfold Scalar.orIllegal
  split
  · exact h.withReg
  · exact h.illegal

theorem scalarRun32 {svx} (h : s0.Keeps s)
    (hsvx : ∀ x0 x1 t, s0.Keeps t → s0.Keeps (svx x0 x1 t).state) {hc w len} :
    s0.Keeps (Scalar.run32 svx hc w len s).state := by
  unfold Scalar.run32
  extract_lets n c a b link
  split
  · exact withReg h
  · exact withReg h
  · exact h.modCore fun _ hc => hc.setReg
  · split
    · exact h.modCore fun _ hc => hc.setReg
    · exact h.illegal
  · split
    · exact h
    · exact h
    · exact h.illegal
  · exact h.scalarLoadI
  · exact h.scalarStoreI
  · exact h.scalarOrIllegal
  · exact h.scalarOrIllegal
  · exact h.scalarOrIllegal
  · exact h.scalarOrIllegal
  · exact h.scalarMiscMem
  · exact h.scalarSystem
  · exact h.scalarAmo
  · exact h.scalarLoadF
  · exact h.scalarStoreF
  · exact h.scalarFmadd
  · exact h.scalarFmadd
  · exact h.scalarFmadd
  · exact h.scalarFmadd
  · exact h.scalarFp
  · exact hsvx _ _ _ h
  · exact hsvx _ _ _ h
  · exact hsvx _ _ _ h
  · exact hsvx _ _ _ h
  · exact h.illegal

theorem scalarRun {svx} (h : s0.Keeps s) (hsvx : ∀ x0 x1 t, s0.Keeps t → s0.Keeps (svx x0 x1 t).state) {hc w} :
    s0.Keeps (Scalar.run svx hc w s).state := by
  unfold Scalar.run
  split
  · exact scalarRun32 h hsvx
  split
  next x _ =>
    have h1 := scalarRun32 h hsvx (hc := hc) (w := x) (len := 2)
    split
    next s1 _ e =>
      rw [e] at h1
      exact h1
    next => exact h1
  next => exact h.illegal

/-! ### Svx -/

theorem svxOp (h : s0.Keeps s) {hc w f} (hf : ∀ c : HostCore, c.whole → ((f c).getD c).whole) :
    s0.Keeps (Svx.op hc w f s).state := by
  unfold Svx.op
  extract_lets c
  split
  · exact h.illegal
  split
  next c1 e =>
    refine h.setCore fun hc => ?_
    have h1 := hf c hc
    rwa [e] at h1
  next => exact h.illegal

theorem svxLoadElem (h : s0.Keeps s) {hc mop nf f e} : s0.Keeps (Svx.loadElem hc mop nf f e s).1.state := by
  refine foldlMemRes h fun x a h => ?_
  split
  next =>
    extract_lets b
    split
    next e1 => exact ofOk (mmuLoad h) e1
    next e1 => exact ofTrap (mmuLoad h) e1
  next => exact h

theorem svxStoreElem (h : s0.Keeps s) {hc mop nf f e} : s0.Keeps (Svx.storeElem hc mop nf f e s).1.state := by
  refine foldlMemRes h fun x a h => ?_
  split
  next =>
    extract_lets c b
    split
    next e1 => exact ofOk (mmuResolve h) e1
    next e1 => exact ofTrap (mmuResolve h) e1
  next => exact h

theorem svxOneElem (h : s0.Keeps s) {hc mop nf f e} : s0.Keeps (Svx.oneElem hc mop nf f e s).1 := by
  unfold Svx.oneElem
  extract_lets n
  split
  · split
    next e1 =>
      refine (ofOkPair (svxLoadElem h) e1).modCore fun c hc => hc.foldl fun c g hc => ?_
      exact hc.putElem
    next e1 => exact ofTrapPair (svxLoadElem h) e1
  · split
    next e1 => exact (ofOkPair (svxStoreElem h) e1).foldl fun _ _ h => h.physWrite
    next e1 => exact ofTrapPair (svxStoreElem h) e1

theorem svxSetStart (h : s0.Keeps s) {n e} : s0.Keeps (Svx.setStart s n e) := h.modCore

theorem svxElems (h : s0.Keeps s) {hc mop nf f p l} : s0.Keeps (Svx.elems hc mop nf f p l s).state := by
  induction l generalizing s with
  | nil => exact h.svxSetStart
  | cons e es ih =>
    unfold Svx.elems
    split
    · split
      next e1 => exact ih (ofFst (svxOneElem h) e1)
      next e1 => exact (ofFst (svxOneElem h) e1).svxSetStart
    · exact ih h

theorem svxMem (h : s0.Keeps s) {hc mop nf f w} : s0.Keeps (Svx.mem hc mop nf f w s).state := by
  dsimp only [Svx.mem]
  split
  · exact h.illegal
  · exact h.svxElems

theorem svxRunVa (h : s0.Keeps s) {hc k f} : s0.Keeps (Svx.runVa hc k f s) :=
  runInstr h fun _ h => svxOp h fun _ hc => hc.va

theorem svxRunVr (h : s0.Keeps s) {hc k f} : s0.Keeps (Svx.runVr hc k f s) :=
  runInstr h fun _ h => svxOp h fun _ hc => hc.vr

theorem svxRunVm (h : s0.Keeps s) {hc mop nf f} : s0.Keeps (Svx.runVm hc mop nf f s) := h.runInstr fun _ h => h.svxMem

theorem svxRunVp (h : s0.Keeps s) {hc k f} : s0.Keeps (Svx.runVp hc k f s) :=
  runInstr h fun _ h => svxOp h fun _ hc => hc.vp

theorem svxOfWord (h : s0.Keeps s) {hc w} : s0.Keeps (Svx.ofWord hc w s).state := by
  unfold Svx.ofWord
  split
  · exact svxOp h fun _ hc => hc.va
  · exact svxOp h fun _ hc => hc.vr
  · exact h.svxMem
  · exact svxOp h fun _ hc => hc.vp

end Keeps

/-! ### Commands -/

/-- What a command leaves, where it leaves a state, keeps what `s0` had. -/
def After (s0 : State) (o : Host.Outcome State Fault Refusal) : Prop := ∀ t, o = .next t → s0.Keeps t

namespace After
open Keeps
variable {s0 s t : State}

theorem next (h : s0.Keeps t) : s0.After (.next t) := fun u e => by
  cases e
  exact h

theorem fault {f : Fault} : s0.After (.fault f) := fun u e => by cases e

theorem refused {r : Refusal} : s0.After (.refused r) := fun u e => by cases e

theorem onPacket {go} (h : s0.Keeps s) (hgo : ∀ t, s0.Keeps t → s0.Keeps (go t)) {ts p k} :
    s0.After (State.onPacket ts p k go s) := by
  unfold State.onPacket
  split
  · exact .fault
  split
  · exact .next h
  split
  · exact .next h.freeCredits.hopFail
  · exact .next (.ite (hgo s h) h)

theorem wordReached {q} (h : s0.Keeps s) (e : Machine.wordReached q s = some t) : s0.Keeps t := by
  unfold Machine.wordReached at e
  split at e
  · split at e
    · exact Option.some.inj e ▸ h
    · cases e
  · cases e

theorem chainsDone {q} (h : s0.Keeps s) (e : Machine.chainsDone q s = some t) : s0.Keeps t := by
  unfold Machine.chainsDone at e
  split at e
  · exact Option.some.inj e ▸ h
  · cases e

theorem slotFree {q} (h : s0.Keeps s) (e : Machine.slotFree q s = some t) : s0.Keeps t := by
  unfold Machine.slotFree at e
  split at e
  · split at e
    · split at e
      · cases e
      · exact Option.some.inj e ▸ h.ringPut
    · cases e
  · cases e

theorem execMessageSlotFree (h : s0.Keeps s) {q} : s0.After (Machine.execMessageSlotFree q s) := by
  refine .next ?_
  split
  · exact h.detect
  · exact h.release fun _ _ e => slotFree h e

theorem execStackAmo (h : s0.Keeps s) {addr op double v} : s0.After (Machine.execStackAmo addr op double v s) := by
  unfold Machine.execStackAmo
  extract_lets n
  split
  · exact .next h.amoAtStack
  · exact .next h.answer

theorem execStarterPacket (h : s0.Keeps s) {p m} : s0.After (Machine.execStarterPacket p m s) := by
  unfold Machine.execStarterPacket
  split
  · refine .onPacket h fun t h => .ite (h.onPair fun _ h => h.starterIn) ?_
    split
    · exact h.freeCredits.hopFail
    · exact h.freeCredits.starterIn
  · split
    · exact .fault
    · exact .next h.starterSends

theorem execLrSc (h : s0.Keeps s) {n sc double rd rs1 rs2} : s0.After (Machine.execLrSc n sc double rd rs1 rs2 s) := by
  refine .next (h.runInstr fun t h => ?_)
  split
  · exact h.amoSc
  · exact h.amoLr

theorem execMailboxDoorbell (h : s0.Keeps s) {src m v} : s0.After (Machine.execMailboxDoorbell src m v s) := by
  unfold Machine.execMailboxDoorbell
  refine .next ?_
  split
  · exact h.frame
  · exact (h.frame.ringMailbox.ite h.frame)

theorem execReadClear (h : s0.Keeps s) {src a} : s0.After (Machine.execReadClear src a s) := by
  unfold Machine.execReadClear
  refine .next ?_
  split
  · exact h.answer
  · exact h.debugHeat
  · exact h.readAt

theorem execRegisterWrite (h : s0.Keeps s) {src a v} : s0.After (Machine.execRegisterWrite src a v s) := by
  unfold Machine.execRegisterWrite
  refine .next ?_
  split
  · exact h.answer
  · exact h.debugHeat
  · exact h.writeAt.answer

theorem execFlitReceived (h : s0.Keeps s) {p f} : s0.After (Machine.execFlitReceived p f s) := by
  unfold Machine.execFlitReceived
  split
  · exact .fault
  · exact .next (h.judgeFlit.ite h)

theorem execPairEpisodeClose (h : s0.Keeps s) : s0.After (Machine.execPairEpisodeClose s) := by
  unfold Machine.execPairEpisodeClose
  refine .next ?_
  split
  · exact (h.closeEpisode.ite h)
  · exact h

theorem execSensorReading (h : s0.Keeps s) {r} : s0.After (Machine.execSensorReading r s) := by
  unfold Machine.execSensorReading
  split
  · exact .next h.readSensors.settle
  · exact .fault

theorem exec (h : s0.Keeps s) (c : Instr) : s0.After (Machine.exec c s) := by
  cases c with
  | nop => exact .next (h.runMacro fun _ _ h => h.nopBody)
  | load => exact .next (h.runMacro fun _ _ h => h.loadBody)
  | store => exact .next (h.runMacro fun _ _ h => h.copyBody)
  | copy => exact .next (h.runMacro fun _ _ h => h.copyBody)
  | convert => exact .next (h.runMacro fun _ _ h => h.copyBody)
  | fill => exact .next (h.runMacro fun _ _ h => h.fillBody)
  | gather => exact .next (h.runMacro fun _ _ h => h.gatherBody)
  | scatter => exact .next (h.runMacro fun _ _ h => h.scatterBody)
  | rng => exact .next (h.runMacro fun _ _ h => h.rngBody)
  | gemm => exact .next (h.runMacro fun _ _ h => h.gemmBody)
  | bgemm => exact .next (h.runMacro fun _ _ h => h.gemmBody)
  | bwd2 => exact .next (h.runMacro fun _ _ h => h.bwdBody)
  | ewise => exact .next (h.runMacro fun _ _ h => h.ewBody)
  | stencil => exact .next (h.runMacro fun _ _ h => h.ewBody)
  | reduce => exact .next (h.runMacro fun _ _ h => h.reduceBody)
  | argred => exact .next (h.runMacro fun _ _ h => h.argredBody)
  | norm => exact .next (h.runMacro fun _ _ h => h.rowsNormBody)
  | normb => exact .next (h.runMacro fun _ _ h => h.rowsNormbBody)
  | smax => exact .next (h.runMacro fun _ _ h => h.rowsSmaxBody)
  | smaxb => exact .next (h.runMacro fun _ _ h => h.rowsSmaxbBody)
  | scal => exact .next (h.runMacro fun _ _ h => h.scalBody)
  | br => exact .next (h.runMacro fun _ _ h => h.branchBody)
  | lap => exact .next (h.runMacro fun _ _ h => h.lapOpBody)
  | endlap => exact .next (h.runMacro fun _ _ h => h.lapOpEndBody)
  | wait => exact .next (h.runMacro fun _ _ h => h.syncWaitBody)
  | signalAdd => exact .next (h.runMacro fun _ _ h => h.syncAddBody)
  | signalPost => exact .next (h.runMacro fun _ _ h => h.syncPostBody)
  | hurdleLocal => exact .next (h.runMacro fun _ _ h => h.syncLocalBody)
  | hurdleGroup => exact .next (h.runMacro fun _ _ h => h.syncGroupBody)
  | trig => exact .next (h.runMacro fun _ _ h => h.trigBody).settle
  | phase => exact .next (h.runMacro fun _ _ h => h.phaseBody)
  | stash => exact .next (h.runMacro fun _ _ h => h.stashBody)
  | unstash => exact .next (h.runMacro fun _ _ h => h.stashUnBody)
  | ckpt => exact .next (h.runMacro fun _ _ h => h.ckptBody)
  | commit => exact .next (h.runMacro fun _ _ h => h.commitBody)
  | tag => exact .next (h.runMacro fun _ _ h => h.tagBody)
  | fence => exact .next (h.runMacro fun _ _ h => h.fenceBody)
  | halt => exact .next (h.runMacro fun _ _ h => h.haltBody)
  | commitClose => exact .next h.commitClose
  | waitSatisfied => exact .next (h.release fun _ _ e => wordReached h e)
  | fenceRelease => exact .next (h.release fun _ _ e => chainsDone h e)
  | cqSlotFree => exact .next h.cqRelease
  | messageSlotFree => exact execMessageSlotFree h
  | breakFires => exact .next h.breakNow
  | doorbell => exact .next h.ringQueue
  | sessionClose => exact .next (h.command h.sessionClose)
  | ownerAdd => exact .next (h.enrol h.ownerAdd)
  | ownerRevoke => exact .next (h.enrol h.ownerRevoke)
  | regionAdd => exact .next (h.enrol h.regionAdd)
  | regionRemove => exact .next (h.enrol h.regionRemove)
  | qpConnect => exact .next (h.enrol h.qpConnect)
  | qpDestroy => exact .next (h.enrol h.qpDestroy)
  | subscribe => exact .next (h.enrol h.subscribe)
  | unsubscribe => exact .next (h.enrol h.unsubscribe)
  | netPort => exact .next (h.enrol h.netPort)
  | jobCreate => exact .next (h.command h.jobCreate)
  | jobDestroy => exact .next (h.command h.destroyJob.settle.finishOk)
  | jobResume => exact .next (h.command h.restartHeld.finishOk)
  | jobSpares => exact .next (h.command h.jobSpares)
  | jobStatus => exact .next (h.command h.finishOk)
  | queueCreate => exact .next (h.command h.queueCreate)
  | queueBind => exact .next (h.command h.queueBind)
  | queueResume => exact .next (h.command h.queueResume)
  | queueSreg => exact .next (h.command h.queueSreg)
  | queueDestroy => exact .next (h.command h.queueDestroy)
  | descLoad => exact .next (h.command h.descLoad)
  | groupJoin => exact .next (h.command h.groupJoin)
  | groupLeave => exact .next (h.command h.groupLeave)
  | ckptPolicy => exact .next (h.command h.ckptPolicy)
  | pairMode => exact .next (h.command h.setPairMode)
  | pairDetach => exact .next (h.ite (h.command h.pairDetach))
  | paceSet => exact .next (h.command h.paceSet)
  | telemetryRead => exact .next (h.command h.telemetryRead)
  | telemetryPhotoFinish => exact .next (h.command h.photoFinish)
  | deviceTune => exact .next (h.command h.deviceTune)
  | coreAssign => exact .next (h.command h.coreAssign)
  | fwUpdate => exact .next (h.command h.fwUpdate)
  | attestReport => exact .next (h.command h.attestReport)
  | debugBreak => exact .next (h.command h.debugBreak)
  | mailboxDoorbell src m v => exact execMailboxDoorbell h (src := src) (m := m) (v := v)
  | starterWatchdogKick => exact .next h.kick
  | starterWatchdog => exact .next h.watchdog
  | linkEnable => exact .next h.setEnable
  | loopback => exact .next h.setLoopback
  | traceEnable => exact .next h.setTrace
  | alertDrive => exact .next h.setDrive
  | readClear => exact execReadClear h
  | registerWrite => exact execRegisterWrite h
  | debugAccess => exact .next h.debugHeat
  | lineRead => exact .next (h.guarded h.readLine)
  | lineWrite => exact .next (h.guarded (h.foldl fun _ _ h => h.writeLinePart).answer)
  | stackAmo => exact execStackAmo h
  | patrolRead => exact .next h.patrol
  | refresh => exact .next h.modStack
  | updateInvocation => exact .next h.chainInvoke.settle
  | shadowStream => exact .next h.shadowStream
  | shadowConfirm => exact .next h.shadowConfirmed
  | localRestore => exact .next h.localRestore
  | flitReceived => exact execFlitReceived h
  | ackTimeout => exact .next (h.replay.ite h)
  | ackReturn => exact .next (h.sendAck.ite h)
  | retrainComplete => exact .next h.retrainDone
  | retrainTimeout => exact .next (h.linkDown.ite h)
  | laneLockLost => exact .next h.laneLost
  | trainingResend => exact .next (h.setPort.frame.ite h)
  | portAbsent => exact .next (h.setPort.ite h)
  | portHello => exact .next h.helloFrom
  | linkUp => exact .next h.linkUp
  | reducePacket => exact .onPacket h fun _ h => h.chainPacket
  | putPacket => exact .onPacket h fun _ h => (h.transferPacket.ite h.chainPacket)
  | agreePacket => exact .onPacket h fun _ h => h.chainPacket
  | arrivePacket => exact .onPacket h fun _ h => h.arrived
  | ctrlPacket => exact .onPacket h fun _ h => h.ctrlIn
  | topoPacket => exact .onPacket h fun _ h => h.topoIn
  | topoSend => exact .next h.topoAgain
  | topoDeclare => exact .next h.topoDeclared
  | starterPacket => exact execStarterPacket h
  | starterRequestTimeout => exact .next h.starterTimeout
  | beatPacket => exact .onPacket h fun _ h => h.onPair fun _ h => h.beatIn
  | beatSend => exact .next h.beatOut
  | heartbeatLoss => exact .next h.heartbeatLost.settle
  | shadowPacket => exact .onPacket h fun _ h => h.onPair fun _ h => h.shadowIn
  | digestPacket => exact .onPacket h fun _ h => h.onPair fun _ h => h.digestIn
  | relayPacket => exact .onPacket h fun _ h => h.onPair fun _ h => h.relayIn
  | pairctlPacket => exact .onPacket h fun _ h => h.onPair fun _ h => h.pairctlIn
  | pairctlReset => exact .onPacket h fun _ h => h.onPair fun _ h => h.pairReset
  | pairEpisodeClose => exact execPairEpisodeClose h
  | chainEntryStart => exact .next h.startEntry.settle
  | verdictPass => exact .next h.verdictPass.settle
  | chainComplete => exact .next h.completeChain
  | judgeCompare => exact .next h.judgeCompare
  | stall => exact .next h.stalled
  | faultNotice => exact .next h.faultNoticed.settle
  | coordinatorElection => exact .next h.elected
  | restorePointAgreed => exact .next h.restorePointAgreed
  | pathNotice => exact .next h.fresh.pathNoticed
  | pathClaim => exact .next h.pathClaimed
  | restoreComplete => exact .next h.restoreComplete
  | jobResumed => exact .next h.jobResumed
  | channelWatchdog => exact .next h.channelExpired.settle
  | hcLockstepDivergence => exact .next h.lockstepHc.settle
  | starterLockstep => exact .next h.lockstepSt
  | photoDone => exact .next h.photoDone
  | svxAdd => exact .next h.svxRunVa
  | svxSub => exact .next h.svxRunVa
  | svxMul => exact .next h.svxRunVa
  | svxMin => exact .next h.svxRunVa
  | svxMax => exact .next h.svxRunVa
  | svxAnd => exact .next h.svxRunVa
  | svxOr => exact .next h.svxRunVa
  | svxXor => exact .next h.svxRunVa
  | svxSll => exact .next h.svxRunVa
  | svxSrl => exact .next h.svxRunVa
  | svxSra => exact .next h.svxRunVa
  | svxMinu => exact .next h.svxRunVa
  | svxMaxu => exact .next h.svxRunVa
  | svxFadd => exact .next h.svxRunVa
  | svxFsub => exact .next h.svxRunVa
  | svxFmul => exact .next h.svxRunVa
  | svxFdiv => exact .next h.svxRunVa
  | svxFmin => exact .next h.svxRunVa
  | svxFmax => exact .next h.svxRunVa
  | svxFsqrt => exact .next h.svxRunVa
  | svxFsgnj => exact .next h.svxRunVa
  | svxFsgnjn => exact .next h.svxRunVa
  | svxFsgnjx => exact .next h.svxRunVa
  | svxSel => exact .next h.svxRunVa
  | svxFma => exact .next h.svxRunVr
  | svxFnma => exact .next h.svxRunVr
  | svxIma => exact .next h.svxRunVr
  | svxFwmul => exact .next h.svxRunVr
  | svxFwma => exact .next h.svxRunVr
  | svxIwmul => exact .next h.svxRunVr
  | svxIwma => exact .next h.svxRunVr
  | svxFdot => exact .next h.svxRunVr
  | svxIdot => exact .next h.svxRunVr
  | svxIdotu => exact .next h.svxRunVr
  | svxVld => exact .next h.svxRunVm
  | svxVlds => exact .next h.svxRunVm
  | svxVldx => exact .next h.svxRunVm
  | svxVldr => exact .next h.svxRunVm
  | svxVst => exact .next h.svxRunVm
  | svxVsts => exact .next h.svxRunVm
  | svxVstx => exact .next h.svxRunVm
  | svxCmpeq => exact .next h.svxRunVp
  | svxCmplt => exact .next h.svxRunVp
  | svxCmpltu => exact .next h.svxRunVp
  | svxFcmpeq => exact .next h.svxRunVp
  | svxFcmplt => exact .next h.svxRunVp
  | svxFcmple => exact .next h.svxRunVp
  | svxFcmpun => exact .next h.svxRunVp
  | svxPrange => exact .next h.svxRunVp
  | svxPlog => exact .next h.svxRunVp
  | svxPcnt => exact .next h.svxRunVp
  | svxPfirst => exact .next h.svxRunVp
  | svxPtox => exact .next h.svxRunVp
  | svxXtop => exact .next h.svxRunVp
  | svxSplat => exact .next h.svxRunVp
  | svxFsplat => exact .next h.svxRunVp
  | svxExtr => exact .next h.svxRunVp
  | svxInsr => exact .next h.svxRunVp
  | svxIdx => exact .next h.svxRunVp
  | svxAddv => exact .next h.svxRunVp
  | svxFaddv => exact .next h.svxRunVp
  | svxFmaxv => exact .next h.svxRunVp
  | svxFminv => exact .next h.svxRunVp
  | svxFcvt => exact .next h.svxRunVp
  | cboClean => exact .next (h.runInstr fun _ h => h.cboBody)
  | cboFlush => exact .next (h.runInstr fun _ h => h.cboBody)
  | cboZero => exact .next (h.runInstr fun _ h => h.cboBody)
  | cboInval => exact .next (h.runInstr fun _ h => h.cboBody)
  | hcAmo => exact .next (h.runInstr fun _ h => h.amoBody)
  | lrSc => exact execLrSc h
  | hcFence => exact .next (h.runInstr fun _ h => h.fenceInstr)
  | timerInterrupt => exact .next h.timerFires
  | pacerWindow => exact .next h.windowEnds.settle
  | internalOscillatorFail => exact .next h.oscillatorFails.settle
  | crystalStartTimeout => exact .next h.crystalLate
  | paceSettled => exact .next h.paceSettles
  | sensorReading => exact execSensorReading h
  | throttleStep => exact .next h.throttle
  | throttleRelease => exact .next h.release1s
  | vinRise => exact .next h.vinRises
  | vinFall => exact .next h.vinFalls
  | resetN => exact .next h.resetInput
  | resetRelease => exact .next h.releaseReset
  | pairPresent => exact .next h.pairInput
  | alertN => exact .next h.alertInput
  | alertReleaseCheck => exact .next h.alertCheck
  | imageCheck => exact .next h.imageChecked
  | selftestComplete => exact .next h.selfTested
  | pairingResolved => exact .next h.resolvePairing
  | linksResolved => exact .next h.resolveLinks
  | addressingResolved => exact .next h.resolveAddressing
  | osBoot => exact .next h.bootOs
  | ready => exact .next h.reachReady
  | trialBootTimeout => exact .next h.trialLate
  | ethLinkUp => exact .next h.ethUp
  | ethLinkDown => exact .next h.ethDown
  | arp => exact .next h.arpReply
  | neighborDiscovery => exact .next h.neighbourReply
  | echo => exact .next h.echoReply
  | dhcpLease => exact .next h.lease
  | pauseFrame => exact .next h.pause
  | xon => exact .next h.drained
  | send => exact .next h.roceSend
  | rdmaWrite => exact .next h.roceWrite
  | rdmaRead => exact .next h.roceRead
  | rdmaAtomic => exact .next h.roceAtomic
  | cnp => exact .next h.cnpIn
  | cnpRateRecovery => exact .next h.rateUp
  | suiloHello => exact .next (h.suiloRow h.helloIn)
  | suiloAuth => exact .next (h.suiloRow h.authIn)
  | suiloMbx => exact .next (h.suiloRow h.suiloIn)
  | suiloDoorbell => exact .next (h.suiloRow h.suiloIn)
  | suiloAck => exact .next (h.suiloRow h.suiloIn)
  | suiloKeepalive => exact .next (h.suiloRow h.suiloIn)
  | suiloPath => exact .next (h.suiloRow h.suiloIn)
  | suiloClose => exact .next (h.suiloRow h.suiloIn)
  | suiloRetransmit => exact .next h.retransmit
  | suiloAckTimer => exact .next h.ackTimer
  | keepaliveTimer => exact .next h.keepalive
  | sessionIdleTimeout => exact .next h.idleTimeout
  | handshakeTimeout => exact .next h.handshakeTimeout
  | closingTimeout => exact .next h.closingTimeout
  | pathLoss => exact .next h.pathLoss
  | pathProbeRetry => exact .next h.probeRetry
  | alertStatus => exact .next h.smbAlertStatus
  | alertMask => exact .next h.smbAlertMask
  | smbState => exact .next h.smb
  | smbTemp => exact .next h.smb
  | smbPower => exact .next h.smbMeasured
  | smbVin => exact .next h.smbMeasured
  | smbSerial => exact .next h.smb
  | smbSite => exact .next h.smb
  | alertResponseAddress => exact .next (h.smb.ite h.answer)
  | fruRead => exact .next h.smb
  | tapExtest => exact .next h.loadTap
  | samplePreload => exact .next h.samplePreload
  | tapIdcode => exact .next h.loadTap.answer
  | extestPulse => exact .next h.loadTap
  | extestTrain => exact .next h.loadTap
  | tapDebug => exact .next h.loadTap
  | tapBypass => exact .next (h.ite h.loadTap)
  | scalarInstruction => exact .next (h.runInstr fun _ h => (h.scalarRun (fun _ _ _ h => h.svxOfWord)))
  | backgroundSelfTest => exact .next h.spareTested
  | unitSelfTest => exact .next h.unitTested.settle
  | laneLock => exact .next (h.setPort.ite h)
  | fecLock => exact .next (h.setPort.frame.ite h)
  | pwrGood => exact .next h.powerGood
  | trstN => exact .next h.loadTap
  | rxDrop => exact .next h.dropFrame
  | suiloBad => exact .next h.suiloFlawed

end After

theorem Keeps.kept {s0 t : State} (h : s0.Keeps t) (h0 : s0.kept) : t.kept := h.guard.1 h0

end State
end Sys2Proof.Machine
end

section
/-! The block stays whole. -/

open Sys2Proof.Machine

namespace Sys2Proof.Proofs

/-- Settles O55: every list of units is a replicated default, and memory is empty. -/
theorem resetIsWhole : Obligations.ResetIsWhole := by
  refine ⟨rfl, rfl, rfl, rfl, rfl, rfl, rfl, rfl, rfl, fun c hc => ?_⟩
  rw [List.eq_of_mem_replicate hc]
  exact ⟨rfl, rfl, rfl⟩

/-- Settles O56: an idle cycle keeps the block whole, and so does the command in front; its entry in the queue is no
part of what `State.kept` speaks of. -/
theorem everyStepKeepsTheBlockWhole : Obligations.EveryStepKeepsTheBlockWhole := by
  intro s t hs e
  unfold step at e
  split at e
  next => exact (State.After.next State.Keeps.refl.idleCycle t e).kept hs
  next c rest _ => exact (State.After.exec State.Keeps.refl c t e).kept hs

end Sys2Proof.Proofs
end
section
/-! How an update of one mailbox or port reads back, and what it leaves unchanged. -/

namespace Sys2Proof.Machine.State

theorem mbox_modMbox {s : State} {m : Nat} (f : Mailbox → Mailbox) (h : m < s.mailboxes.length) :
    (s.modMbox m f).mbox m = f (s.mbox m) := by
  simp [mbox, modMbox, List.getD, h]

theorem mbox_modMbox_ne (s : State) {m k : Nat} (f : Mailbox → Mailbox) (h : k ≠ m) :
    (s.modMbox m f).mbox k = s.mbox k := by
  simp [mbox, modMbox, List.getD, h.symm]

theorem port_setPort {s : State} {p : Nat} (x : Port) (h : p < s.ports.length) : (s.setPort p x).port p = x := by
  simp [port, setPort, List.getD, h]

theorem port_setPort_ne (s : State) {p k : Nat} (x : Port) (h : k ≠ p) : (s.setPort p x).port k = s.port k := by
  simp [port, setPort, List.getD, List.getElem?_set_ne h.symm]

theorem ringMailbox_busy {s : State} {m : Nat} (h55 : m ≠ 55) (h : (s.mbox m).busy = true) :
    s.ringMailbox m = s.modMbox m fun x => { x with overrun := true } :=
  (if_neg h55).trans (if_pos h)

theorem ringMailbox_free {s : State} {m : Nat} (h55 : m ≠ 55) (h : (s.mbox m).busy = false) :
    s.ringMailbox m = s.modMbox m fun x => { x with busy := true, done := false, count := x.count + 1 } :=
  (if_neg h55).trans (if_neg (Bool.not_eq_true _ ▸ h))

end Sys2Proof.Machine.State
end

section
open Sys2Proof.Machine
namespace Sys2Proof.Proofs

/-- Settles O13: the doorbell rings a free mailbox and marks the overrun of a busy one; the change is that mailbox's alone. -/
theorem mailboxDoorbellIsAccepted : Obligations.MailboxDoorbellIsAccepted := by
  intro s src m v hm h55 hr hv
  have hring : exec (.mailboxDoorbell src m v) s = .next (State.ringMailbox { s with replyStatus := 0 } m.val) := by
    simp only [exec, execMailboxDoorbell, hr, hv, if_true]
  have hmod (f : Mailbox → Mailbox) : (State.modMbox { s with replyStatus := 0 } m.val f).mbox m.val = f (s.mbox m.val) :=
    State.mbox_modMbox f hm
  cases hb : (s.mbox m.val).busy with
  | true =>
    exact ⟨_, hring.trans (congrArg _ (State.ringMailbox_busy h55 hb)), rfl, rfl, rfl,
      fun k hk => State.mbox_modMbox_ne _ _ hk, nofun, fun _ => hmod _⟩
  | false =>
    refine ⟨_, hring.trans (congrArg _ (State.ringMailbox_free h55 hb)), rfl, rfl, rfl,
      fun k hk => State.mbox_modMbox_ne _ _ hk, fun _ => ?_, nofun⟩
    rw [hmod]
    exact ⟨rfl, rfl, rfl⟩

end Sys2Proof.Proofs
end

section
/-! Lines of Edern memory: the verdict on a line's codewords, the count of what was corrected, and what a write of a line leaves
(R268 to R273, R290). -/

namespace Sys2Proof.Machine

theorem nodup_eraseDups {α : Type} [BEq α] [LawfulBEq α] : ∀ l : List α, l.eraseDups.Nodup
  | [] => by simp
  | a :: l => by
    rw [List.eraseDups_cons]
    exact List.nodup_cons.2 ⟨by simp, nodup_eraseDups _⟩
termination_by l => l.length
decreasing_by exact Nat.lt_succ_of_le (List.length_filter_le ..)

theorem length_eraseDups_le {α : Type} [BEq α] [LawfulBEq α] (l : List α) : l.eraseDups.length ≤ l.length :=
  ((nodup_eraseDups l).subperm fun _ h => List.mem_eraseDups.1 h).length_le

namespace Ecc

/-- Up to 8 symbols in error are corrected without the help of an erasure (R269). -/
theorem corrects_of_length_le {e : List Nat} (h : e.length ≤ 8) : Rs.line.corrects e [] = true := by
  have hl : ((e.filter fun k => !([] : List Nat).contains k).eraseDups).length ≤ 8 :=
    (length_eraseDups_le _).trans ((List.length_filter_le ..).trans h)
  refine decide_eq_true ?_
  simp only [List.length_nil, Rs.line]
  omega

theorem judge_of_length_le {err : List (Fin 144)} (h : err.length ≤ 8) :
    judge none err = if err.isEmpty then .clean
      else .corrected (((err.map Fin.val).eraseDups.map symbolDie).eraseDups) none := by
  have hc : Rs.line.corrects (err.map Fin.val).eraseDups [] = true :=
    corrects_of_length_le ((length_eraseDups_le _).trans (by simpa using h))
  cases err with
  | nil => rfl
  | cons x l =>
    have he : ((x :: l).map Fin.val).eraseDups.isEmpty = false := by simp [List.eraseDups_cons]
    simp only [judge, he, hc, List.isEmpty_cons, if_true, if_false, Bool.false_eq_true]

theorem judge_isCorrected {err : List (Fin 144)} (h : err.length ≤ 8) : (judge none err).isCorrected = !err.isEmpty := by
  rw [judge_of_length_le h]
  cases err <;> rfl

theorem judge_erased {err : List (Fin 144)} (h : err.length ≤ 8) : (judge none err).erased = none := by
  rw [judge_of_length_le h]
  cases err <;> rfl

theorem judge_ne_uncorrectable {err : List (Fin 144)} (h : err.length ≤ 8) : judge none err ≠ .uncorrectable := by
  rw [judge_of_length_le h]
  cases err <;> simp

end Ecc

namespace State

theorem stack_modStack {s : State} {st : Nat} (f : Edern → Edern) (h : st < s.edern.length) :
    (s.modStack st f).stack st = f (s.stack st) := by
  simp [stack, modStack, List.getD, h]

/-- The errors of one line mark no die where none has been seen before: a die is marked by errors in 16 lines. -/
theorem dieToMark_oneLine {x : Edern} {line : Nat} {ds : List Nat} (hm : x.markedDie = none) (hd : ds.Nodup)
    (hc : x.corrected = ds.map fun d => (line, d)) : dieToMark x none = none := by
  have hone (d : Nat) : (x.corrected.filter fun c => c.2 == d).length ≤ 1 := by
    rw [hc, List.filter_map, List.length_map]
    have := List.nodup_iff_count_le_one.1 hd d
    rwa [List.count, List.countP_eq_length_filter] at this
  simp only [dieToMark, hm, Option.isSome_none, Bool.false_eq_true, if_false, List.find?_eq_none, decide_eq_true_eq]
  intro d _ h16
  have := hone d
  omega

/-- Corrections that no erasure helped, on a stack that has seen none before, count their codewords and mark no die. -/
theorem noteCorrected_first {s : State} {st addr line : Nat} {vs : List Ecc.Verdict} (hst : st < s.edern.length)
    (hm : (s.stack st).markedDie = none) (hc : (s.stack st).corrected = []) (he : ∀ v ∈ vs, v.erased = none) :
    let t := s.noteCorrected st addr line vs
    (∃ e, t = { s with edern := e }) ∧
      (t.stack st).eccCe = (s.stack st).eccCe + (vs.filter Ecc.Verdict.isCorrected).length := by
  have hf : vs.findSome? Ecc.Verdict.erased = none := List.findSome?_eq_none_iff.2 he
  unfold noteCorrected
  extract_lets n pairs s1 t
  by_cases hn : n = 0
  · have ht : t = s := if_pos hn
    rw [ht]
    exact ⟨⟨s.edern, rfl⟩, by simp only [n] at hn; omega⟩
  · have hs1 : s1.stack st = _ := stack_modStack _ hst
    have hd : dieToMark (s1.stack st) (vs.findSome? Ecc.Verdict.erased) = none := by
      rw [hf]
      refine dieToMark_oneLine (line := line) (ds := (vs.flatMap Ecc.Verdict.dies).eraseDups) ?_ (nodup_eraseDups _) ?_
      · rw [hs1]
        exact hm
      · rw [hs1]
        simp only [hc, List.nil_append, List.contains_nil, Bool.not_false, List.filter_true, pairs]
    have ht : t = s1 := by
      simp only [t, if_neg hn, hd]
    rw [ht]
    exact ⟨⟨_, rfl⟩, by rw [hs1]⟩

/-- No fault is forgotten. -/
theorem Keeps.faultsEver_le {s t : State} (h : s.Keeps t) : s.faultsEver ≤ t.faultsEver := by
  obtain ⟨_, _, _, _, hf⟩ := h.guard
  exact hf

/-- A recorded fault is counted. -/
theorem faultsEver_recordFault (s : State) (f : FaultInfo) : s.faultsEver < (s.recordFault f).faultsEver := by
  have h : (s.logFault (s.faultRecord f)).Keeps (s.recordFault f) := by
    unfold recordFault
    exact Keeps.refl.postRecord
  exact h.faultsEver_le

/-- A detected fault is counted. -/
theorem faultsEver_detect (s : State) (retire : Bool) (f : FaultInfo) : s.faultsEver < (s.detect retire f).faultsEver := by
  unfold detect
  extract_lets heat bad outcome f1 rec_ s1 s2 number s3 s4 s5 js s6
  have h1 : s1.faultsEver = s.faultsEver := by
    unfold s1
    split <;> rfl
  have h2 : s.faultsEver < s2.faultsEver := h1 ▸ faultsEver_recordFault s1 f1
  have h4 : s2.Keeps s4 := (Keeps.refl.loseStack.ite Keeps.refl).frame.ite (Keeps.refl.loseStack.ite Keeps.refl)
  have h6 : s2.Keeps s6 := h4.retireHeat.foldl fun _ _ h => h.faultNotify
  have h7 : s2.Keeps (if bad then s6.becomeUnfit number else s6) := h6.becomeUnfit.ite h6
  exact h2.trans_le h7.faultsEver_le

/-- The read of a line with at most 8 symbols in error in each codeword (R270, R271). -/
theorem readLine_corrected {s : State} {src : Initiator} {a : Nat} {err : LineErr}
    (hp : s.poisoned.contains (a / 256 * 256) = false) (h1 : err.first.length ≤ 8) (h2 : err.second.length ≤ 8)
    (hm : (s.stack (stackOf a)).markedDie = none) (hc : (s.stack (stackOf a)).corrected = [])
    (hst : stackOf a < s.edern.length) :
    let t := s.readLine src a err
    (∃ e c, t = { s with edern := e, caches := c, replyStatus := 0, reply := s.bytes (a / 256 * 256) 256 }) ∧
      (t.stack (stackOf a)).eccCe =
        (s.stack (stackOf a)).eccCe + ([err.first, err.second].filter fun e => !e.isEmpty).length := by
  have hv : ∀ v ∈ [Ecc.judge none err.first, Ecc.judge none err.second], v.erased = none := by
    simp [Ecc.judge_erased h1, Ecc.judge_erased h2]
  have hu : [Ecc.judge none err.first, Ecc.judge none err.second].contains .uncorrectable = false := by
    simp [(Ecc.judge_ne_uncorrectable h1).symm, (Ecc.judge_ne_uncorrectable h2).symm]
  have hn : ([Ecc.judge none err.first, Ecc.judge none err.second].filter Ecc.Verdict.isCorrected).length =
      ([err.first, err.second].filter fun e => !e.isEmpty).length := by
    simp only [List.filter_cons, Ecc.judge_isCorrected h1, Ecc.judge_isCorrected h2, List.filter_nil]
    split <;> split <;> rfl
  obtain ⟨hs1, hce⟩ := noteCorrected_first (addr := a / 256 * 256) (line := s.physLine a) hst hm hc hv
  rw [hn] at hce
  unfold readLine
  extract_lets line st p mark vs s1 s2 t
  have hvs : vs = [Ecc.judge none err.first, Ecc.judge none err.second] := by
    simp only [vs, mark, st, hm]
  have ht : t = s2.answer .ok (s2.stored line) := by
    simp only [t, hvs, hu, line, hp, Bool.false_eq_true, if_false]
  have hs1' : s1 = s.noteCorrected st line p [Ecc.judge none err.first, Ecc.judge none err.second] :=
    congrArg (s.noteCorrected st line p) hvs
  have hs2 : ∃ c, s2 = { s1 with caches := c } := by
    unfold s2
    split
    · exact ⟨_, rfl⟩
    · exact ⟨_, rfl⟩
  obtain ⟨e, he⟩ := hs1
  obtain ⟨c, hc2⟩ := hs2
  rw [← hs1'] at he hce
  rw [ht, stored_eq, hc2]
  refine ⟨⟨e, c, ?_⟩, hce⟩
  rw [he]
  rfl

/-- An access of Edern memory that its region does not refuse is carried out (R35). -/
theorem guarded_of_refusal_none {s : State} {src : Initiator} {write : Bool} {a n : Nat} (he : isEdern a = true)
    (hr : s.refusal src write a n = none) (go : State) : s.guarded src write a n go = go := by
  rw [guarded, if_pos he, hr]

theorem guarded_of_refusal_some {s : State} {src : Initiator} {write : Bool} {a n : Nat} {st : Status} (he : isEdern a = true)
    (hr : s.refusal src write a n = some st) (go : State) : s.guarded src write a n go = s.answer st [] := by
  rw [guarded, if_pos he, hr]

/-- A poisoned line answers FAULT, none of its data, and the fault is counted (R272). -/
theorem readLine_poisoned {s : State} {src : Initiator} {a : Nat} (err : LineErr)
    (hp : s.poisoned.contains (a / 256 * 256) = true) :
    let t := s.readLine src a err
    t.replyStatus = Status.fault.code ∧ t.reply = [] ∧ s.faultsEver < t.faultsEver := by
  unfold readLine
  extract_lets line st p mark vs s1 s2 t
  have ht : t = ((s.detect false
      { mech := Mech.poisonRead.code, cls := 3, index := st, job := s.jobOfAccess src a, addr := line }).readerSees
        src a).answer .fault [] := if_pos hp
  rw [ht]
  refine ⟨rfl, rfl, ?_⟩
  exact (faultsEver_detect s false _).trans_le Keeps.refl.readerSees.faultsEver_le

/-- The lines of an access that stays within one line. -/
theorem linesOf_of_oneLine {a n : Nat} (hn : 0 < n) (h : a % 256 + n ≤ 256) : linesOf a n = [a / 256 * 256] := by
  have h0 : (a + n - 1) / 256 - a / 256 + 1 = 1 := by omega
  rw [linesOf, if_neg hn.ne', h0]
  rfl

/-- The part of a write within one line is the whole write, where the line is not poisoned or the write covers it (R272). -/
theorem writeLinePart_oneLine {s : State} {src : Initiator} {a : Nat} {bs : List Byte} (h : a % 256 + bs.length ≤ 256)
    (hp : s.poisoned.contains (a / 256 * 256) = false ∨ bs.length = 256) :
    writeLinePart src a bs s (a / 256 * 256) = s.store a bs := by
  have hlo : max a (a / 256 * 256) = a := by omega
  have hhi : min (a + bs.length) (a / 256 * 256 + 256) = a + bs.length := by omega
  have hn : a + bs.length - a = bs.length := by omega
  have hg : (s.poisoned.contains (a / 256 * 256) && decide (bs.length < 256)) = false := by
    rcases hp with hp | hl
    · rw [hp, Bool.false_and]
    · simp [hl]
  simp only [writeLinePart, hlo, hhi, hn, hg, Bool.false_eq_true, if_false, Nat.sub_self, List.drop_zero, List.take_length]

theorem mem_poisoned_store {s : State} {a : Nat} {bs : List Byte} (l : Nat) :
    l ∈ (s.store a bs).poisoned ↔ l ∈ s.poisoned ∧ ¬ (a ≤ l ∧ l + 256 ≤ a + bs.length) := by
  simp only [store, List.mem_filter, Bool.not_eq_true', Bool.and_eq_false_iff, decide_eq_false_iff_not, not_and_or]

/-- No reservation is left on a line that was written (R268). -/
theorem reservations_store {s : State} {a : Nat} {bs : List Byte} :
    ∀ r ∈ (s.store a bs).reservations, ¬ (r.2 < a + bs.length ∧ a < r.2 + 256) := by
  intro r hr
  have h := (List.mem_filter.1 hr).2
  simp only [Bool.not_eq_true', Bool.and_eq_false_iff, decide_eq_false_iff_not] at h
  omega

/-- No cached block is left on bytes that were written (R290). -/
theorem caches_store {s : State} {a : Nat} {bs : List Byte} :
    ∀ b ∈ (s.store a bs).caches, ¬ (b.addr < a + bs.length ∧ a < b.addr + 64) := by
  intro b hb
  have h := (List.mem_filter.1 hb).2
  simp only [Bool.not_eq_true', Bool.and_eq_false_iff, decide_eq_false_iff_not] at h
  omega

end State
end Sys2Proof.Machine
end

section
open Sys2Proof.Machine
namespace Sys2Proof.Proofs

/-- Settles O17: a store by the rules of `State.store`, a read by the verdicts on its two codewords, and a write within a line
as one store. -/
theorem stackLinesAndStores : Obligations.StackLinesAndStores := by
  refine ⟨fun s a bs h => ?_, fun s src a err he hr => ?_, fun s src a bs he => ⟨fun hr hn hl hp => ?_, fun st hr => ?_⟩⟩
  · exact ⟨State.memOk_store s h a bs, State.bytes_store s h a bs, fun b hb => State.byte_store_out s h a bs hb,
      State.mem_poisoned_store, State.reservations_store, State.caches_store, rfl, rfl, rfl, rfl⟩
  · have hread : exec (.lineRead src a err) s = .next (s.readLine src a err) :=
      congrArg _ (State.guarded_of_refusal_none he hr _)
    refine ⟨fun hp h1 h2 hm hc hst => ?_, fun hp => ⟨_, hread, State.readLine_poisoned err hp⟩⟩
    obtain ⟨⟨e, c, ht⟩, hcount⟩ := State.readLine_corrected (src := src) hp h1 h2 hm hc hst
    rw [ht] at hread hcount
    exact ⟨_, hread, rfl, rfl, rfl, rfl, rfl, rfl, hcount⟩
  · refine congrArg Host.Outcome.next ((State.guarded_of_refusal_none he hr _).trans ?_)
    rw [State.linesOf_of_oneLine hn hl, List.foldl_cons, State.writeLinePart_oneLine hl hp]
    rfl
  · exact congrArg Host.Outcome.next (State.guarded_of_refusal_some he hr _)

end Sys2Proof.Proofs
end

section
/-! Accesses of registers: the region that an address of a register block lies in, and what a write and a read of an aligned
register by the Starter or the debug port come to (R11, R13, R35). -/

namespace Sys2Proof.Machine

/-- The aligned 8 bytes at `a` are the register at offset `o` of block `b` (R33). -/
structure CsrWord (a b o : Nat) : Prop where
  region : regionOf a = .csr b
  last : regionOf (a + 7) = .csr b
  aligned : a % 8 = 0
  offset : (a - csrBase) % 0x100_0000 = o

theorem regionOf_csr {a : Nat} (hlo : csrBase ≤ a) (hhi : a < csrBase + 0x168 * 0x100_0000)
    (hd : csrBlockDefined ((a - csrBase) / 0x100_0000) = true) : regionOf a = .csr ((a - csrBase) / 0x100_0000) := by
  have hc : csrBase = 0xF000_0000_0000 := rfl
  have h1 : ¬ a < 8 * stackStride := by
    unfold stackStride
    omega
  have h2 : ¬ (clusterBase ≤ a ∧ a < clusterBase + 800 * 0x10_0000) := by
    unfold clusterBase
    omega
  have h3 : ¬ (hcBase ≤ a ∧ a < hcBase + 32 * 0x100_0000) := by
    unfold hcBase
    omega
  have h4 : ¬ (doorbellBase ≤ a ∧ a < doorbellBase + 0x1000_0000) := by
    unfold doorbellBase
    omega
  unfold regionOf
  rw [if_neg h1, if_neg h2, if_neg h3, if_neg h4, if_pos ⟨hlo, hhi⟩, if_pos hd]

/-- Every aligned offset of a block that is defined is one of its registers. -/
theorem csrWord {b o : Nat} (hd : csrBlockDefined b = true) (hb : b < 0x168) (ho : o + 8 ≤ 0x100_0000) (h8 : o % 8 = 0) :
    CsrWord (csrBase + b * 0x100_0000 + o) b o := by
  have hreg (a : Nat) (hq : (a - csrBase) / 0x100_0000 = b) (ha : csrBase ≤ a) (hh : a < csrBase + 0x168 * 0x100_0000) :
      regionOf a = .csr b :=
    hq ▸ regionOf_csr ha hh (hq ▸ hd)
  refine ⟨hreg _ ?_ ?_ ?_, hreg _ ?_ ?_ ?_, ?_, ?_⟩ <;> unfold csrBase <;> omega

theorem dbgHeat?_eq_none {a b o : Nat} (h : CsrWord a b o) (hb : b < 0x100) : dbgHeat? a = none := by
  rw [dbgHeat?, h.region]
  exact if_neg hb.not_ge

namespace State

variable {s : State} {src : Initiator} {a b o : Nat}

/-- The Starter and the debug port are let read and write every register (R35). -/
theorem refusal_csr (hs : src = .starter ∨ src = .debug) (w : Bool) (h : CsrWord a b o) : s.refusal src w a 8 = none := by
  rcases hs with rfl | rfl <;> simp [refusal, oneRegion, mayAccess, h.region, h.last, Region.same, isSoftware]

/-- A host core is not let write a register (R35). -/
theorem refusal_csr_hostCore (n : Fin 32) (h : CsrWord a b o) : s.refusal (.hostCore n) true a 8 = some .noperm := by
  simp [refusal, oneRegion, mayAccess, h.region, h.last, Region.same]

theorem writeAt_csr (v : W64) (h : CsrWord a b o) : s.writeAt src a (toLe 8 v.toNat) = s.writeBlock src b o v := by
  have hv : BitVec.ofNat 64 (leNat (toLe 8 v.toNat)) = v := by
    rw [leNat_toLe, Nat.mod_eq_of_lt (show v.toNat < 256 ^ 8 from v.isLt), BitVec.ofNat_toNat, BitVec.setWidth_eq]
  simp [writeAt, h.region, h.aligned, h.offset, hv]

/-- An aligned register word as it is read, and what the read clears. -/
theorem readAt_csr (h : CsrWord a b o) (h5 : b ≠ 5) :
    s.readAt a 8 = (s.clearRc b o).answer .ok (toLe 8 (BitVec.ofNat 64 (s.blockReg b o)).toNat) := by
  have hal := h.aligned
  have hword : a / 8 * 8 = a := by omega
  have hone : (a + 8 - 1) / 8 - a / 8 + 1 = 1 := by omega
  have hbytes : s.readBytes a 8 = (toLe 8 (BitVec.ofNat 64 (s.blockReg b o)).toNat, s.clearRc b o) := by
    simp only [readBytes, h.region, hone, hal, OfNat.ofNat_ne_zero, if_false, List.range'_one, List.foldl_cons, List.foldl_nil,
      hword, readWord, h.offset, readReg, h5, false_and, List.nil_append, List.drop_zero]
    rw [List.take_of_length_le (toLe_length ..).le]
  rw [readAt, hbytes]

end State

variable {s : State} {src : Initiator} {a b o : Nat}

/-- REGISTER_WRITE of an aligned register by the Starter or the debug port. -/
theorem exec_registerWrite_csr (v : W64) (hs : src = .starter ∨ src = .debug) (h : CsrWord a b o) (hb : b < 0x100) :
    exec (.registerWrite src a (toLe 8 v.toNat)) s = .next ((s.writeBlock src b o v).answer .ok []) := by
  simp only [exec, execRegisterWrite, toLe_length, State.refusal_csr hs true h, dbgHeat?_eq_none h hb, State.writeAt_csr v h]

/-- READ_CLEAR of an aligned register by the Starter or the debug port. -/
theorem exec_readClear_csr (hs : src = .starter ∨ src = .debug) (h : CsrWord a b o) (hb : b < 0x100) (h5 : b ≠ 5) :
    exec (.readClear src a) s =
      .next ((s.clearRc b o).answer .ok (toLe 8 (BitVec.ofNat 64 (s.blockReg b o)).toNat)) := by
  simp only [exec, execReadClear, State.refusal_csr hs false h, dbgHeat?_eq_none h hb, State.readAt_csr h h5]

end Sys2Proof.Machine
end

section
/-! What the posting of an event leaves unchanged: ports, queues, cores and inputs (R484, R485). -/

namespace Sys2Proof.Machine.State

/-- `t` differs from `s` at most by events and fault records that were posted: the ports, queues, cores and inputs are those of
`s`. -/
structure Posts (s t : State) : Prop where
  ports : t.ports = s.ports
  queues : t.queues = s.queues
  cores : t.cores = s.cores
  inputs : t.inputs = s.inputs

namespace Posts

variable {s t : State}

theorem refl : s.Posts s := ⟨rfl, rfl, rfl, rfl⟩

theorem trans {u : State} (h1 : s.Posts t) (h2 : t.Posts u) : s.Posts u :=
  ⟨h2.ports.trans h1.ports, h2.queues.trans h1.queues, h2.cores.trans h1.cores, h2.inputs.trans h1.inputs⟩

theorem foldl {α : Type} {f : State → α → State} (hf : ∀ (s : State) (x : α), s.Posts (f s x)) (l : List α) (s : State) :
    s.Posts (l.foldl f s) := by
  induction l generalizing s with
  | nil => exact refl
  | cons x l ih => exact (hf s x).trans (ih _)

end Posts

theorem posts_ringWrite (rec : List Byte) (s : State) (r : RingQ) : s.Posts (ringWrite rec s r) := by
  unfold ringWrite
  split <;> exact ⟨rfl, rfl, rfl, rfl⟩

theorem posts_toBacklog (s : State) (rec : List Byte) : s.Posts (s.toBacklog rec) := by
  unfold toBacklog
  extract_lets
  split <;> exact ⟨rfl, rfl, rfl, rfl⟩

theorem posts_noteEvent (s : State) (rec : List Byte) : s.Posts (s.noteEvent rec) := ⟨rfl, rfl, rfl, rfl⟩

theorem posts_strike (s : State) (l : Nat) : s.Posts (s.strike l) := by
  unfold strike
  extract_lets f rec_ s1 ev s2
  have h2 : s.Posts s2 := ⟨rfl, rfl, rfl, rfl⟩
  split
  · exact h2.trans (posts_toBacklog _ _)
  · exact h2.trans (Posts.foldl (posts_ringWrite ev) _ _)

theorem posts_ringEvent (rec : List Byte) (s : State) (r : RingQ) : s.Posts (ringEvent rec s r) := by
  unfold ringEvent
  split
  · exact posts_strike _ _
  · exact posts_ringWrite _ _ _

theorem posts_postRecord (s : State) (rings : List Nat) (device : Bool) (rec : List Byte) :
    s.Posts (s.postRecord rings device rec) := by
  unfold postRecord
  extract_lets s1 s2
  have h2 : s.Posts s2 := (posts_noteEvent s rec).trans (Posts.foldl (posts_ringEvent rec) _ _)
  split
  · split
    · exact h2.trans (posts_toBacklog _ _)
    · exact h2.trans (Posts.foldl (posts_ringEvent rec) _ _)
  · exact h2

theorem posts_recordFault (s : State) (f : FaultInfo) : s.Posts (s.recordFault f) := by
  unfold recordFault
  exact (show s.Posts (s.logFault _) from ⟨rfl, rfl, rfl, rfl⟩).trans (posts_postRecord _ _ _ _)

/-- A fault that is laid to no unit and affects no job is recorded, and that is all (R397, R406). -/
theorem posts_detect {s : State} {f : FaultInfo} (hj : f.job = none) : s.Posts (s.detect false f) := by
  have hc (s : State) (f : FaultInfo) : s.Posts
      (if f.cls = 3 ∧ (f.mech = Mech.poisonRead.code ∨ f.mech = Mech.eccUe.code) then s.countUe f.index f.addr else s) := by
    split <;> exact ⟨rfl, rfl, rfl, rfl⟩
  simp only [detect, Bool.false_eq_true, if_false, Bool.false_and, hj, Option.map_none, Option.getD_none, Option.toList_none,
    List.foldl_nil]
  exact (hc _ _).trans (posts_recordFault _ _)

theorem posts_noteEdge (s : State) (i : Nat) :
    (s.noteEdge i).ports = s.ports ∧ (s.noteEdge i).queues = s.queues ∧ (s.noteEdge i).cores = s.cores ∧
      (s.noteEdge i).inputs.drive = s.inputs.drive := by
  unfold noteEdge
  extract_lets w c n _ s1
  split
  · have h := posts_postRecord s1 [] true (s1.eventRecord .chatter none none 0 0 (toLe 1 i))
    exact ⟨h.ports, h.queues, h.cores, (congrArg Inputs.drive h.inputs : _ = s1.inputs.drive)⟩
  · exact ⟨rfl, rfl, rfl, rfl⟩

/-- ALERT_N is driven as asked; ports, queues and cores stay (R528). -/
theorem setDrive_frame (s : State) (on : Bool) :
    (s.setDrive on).ports = s.ports ∧ (s.setDrive on).queues = s.queues ∧ (s.setDrive on).cores = s.cores ∧
      (s.setDrive on).inputs.drive = on := by
  unfold setDrive
  split
  next h => exact ⟨rfl, rfl, rfl, eq_of_beq h⟩
  next =>
    extract_lets _ s1
    split
    · exact posts_noteEdge s1 2
    · exact ⟨rfl, rfl, rfl, rfl⟩

theorem ports_postDevice (s : State) (e : Ev) (payload : List Byte) : (s.postDevice e payload).ports = s.ports := by
  unfold postDevice
  extract_lets s1
  have h1 : s1.ports = s.ports := (posts_postRecord ..).ports
  split
  · exact (setDrive_frame _ _).1.trans h1
  · exact h1

theorem ports_pairLost (s : State) : s.pairLost.ports = s.ports := by
  unfold pairLost
  split
  · exact ports_postDevice _ _ _
  · rfl

end Sys2Proof.Machine.State
end

section
/-! What a pair event does to the ports: the pair port trains or goes off, and no other port changes (R341). -/

namespace Sys2Proof.Machine.State

/-- The ports of `t` are those of `s` but for the pair port, which did not come up. -/
def PairPortMoved (s t : State) : Prop :=
  (∀ k, k ≠ 6 → t.port k = s.port k) ∧ ((s.port 6).state ≠ .up → (t.port 6).state ≠ .up) ∧ t.ports.length = s.ports.length

theorem PairPortMoved.of_ports_eq {s t : State} (h : t.ports = s.ports) : s.PairPortMoved t := by
  have hp (k : Nat) : t.port k = s.port k := by rw [port, h, port]
  exact ⟨fun k _ => hp k, fun hu => (hp 6).symm ▸ hu, congrArg _ h⟩

theorem PairPortMoved.trans {s t u : State} (h1 : s.PairPortMoved t) (h2 : t.PairPortMoved u) : s.PairPortMoved u :=
  ⟨fun k hk => (h2.1 k hk).trans (h1.1 k hk), fun hu => h2.2.1 (h1.2.1 hu), h2.2.2.trans h1.2.2⟩

theorem pairPortMoved_modPort {s : State} {f : Port → Port} (hf : (f (s.port 6)).state ≠ .up) :
    s.PairPortMoved (s.modPort 6 f) := by
  refine ⟨fun k hk => port_setPort_ne s _ hk, fun hu => ?_, List.length_set ..⟩
  by_cases h6 : 6 < s.ports.length
  · rwa [modPort, port_setPort _ h6]
  · have he : (s.modPort 6 f).ports = s.ports := List.set_eq_of_length_le (Nat.le_of_not_lt h6)
    rwa [port, he, ← port]

theorem pairPortMoved_followPresent (s : State) : s.PairPortMoved s.followPresent := by
  unfold followPresent
  split
  · split
    · exact .of_ports_eq rfl
    · exact pairPortMoved_modPort nofun
  · split
    · exact pairPortMoved_modPort nofun
    · exact .of_ports_eq rfl

theorem pairPortMoved_closeEpisode (s : State) : s.PairPortMoved s.closeEpisode := by
  unfold closeEpisode
  extract_lets _ s1
  have h1 : s.PairPortMoved s1 := (PairPortMoved.of_ports_eq rfl).trans (pairPortMoved_followPresent _)
  split
  · exact h1.trans (.of_ports_eq (ports_pairLost _))
  · exact h1

theorem pairPortMoved_pairEvent (s : State) (cause : Nat) (loss : Bool) : s.PairPortMoved (s.pairEvent cause loss) := by
  unfold pairEvent
  extract_lets joins _ s0 s1 _ s2
  have h0 : s.PairPortMoved s0 := by
    unfold s0
    split
    · exact pairPortMoved_closeEpisode s
    · exact .of_ports_eq rfl
  have h2 : s.PairPortMoved s2 := h0.trans (.of_ports_eq (ports_postDevice s0 _ _))
  split
  · exact .of_ports_eq rfl
  · split
    · exact h2.trans (.of_ports_eq (ports_pairLost _))
    · exact h2.trans (pairPortMoved_followPresent _)

/-- A link that goes DOWN where no job is: a detected fault, and no other port changes (R320). -/
theorem linkDown_noJobs {s : State} {p cause : Nat} (hj : s.jobs = []) (hp : p < s.ports.length) :
    let t := s.linkDown p cause
    t.ports.length = s.ports.length ∧ (t.port p).state ≠ .up ∧ (∀ k, k ≠ p → t.port k = s.port k) ∧
      s.faultsEver < t.faultsEver := by
  unfold linkDown
  extract_lets s1 info js s2 t
  have hjs : js = [] := by simp only [js, jobsOnPort, hj, List.map_nil, List.filter_nil]
  have hs2 : s2 = s1.detect false (info none) := by simp only [s2, hjs, List.isEmpty_nil, if_true]
  have hports : s2.ports = s1.ports := hs2 ▸ (posts_detect rfl).ports
  have hport (k : Nat) : s2.port k = s1.port k := by rw [port, hports, port]
  have hlen : s2.ports.length = s.ports.length := (congrArg _ hports).trans (List.length_set ..)
  have hdown : (s2.port p).state ≠ .up := by
    rw [hport, show s1.port p = _ from port_setPort _ hp]
    nofun
  have hother (k : Nat) (hk : k ≠ p) : s2.port k = s.port k := (hport k).trans (port_setPort_ne s _ hk)
  have hfault : s.faultsEver < s2.faultsEver := hs2 ▸ faultsEver_detect s1 false (info none)
  by_cases h6 : p = 6
  · subst h6
    rw [show t = s2.pairEvent 1 true from if_pos rfl]
    obtain ⟨hsame, hup, hlen6⟩ := pairPortMoved_pairEvent s2 1 true
    exact ⟨hlen6.trans hlen, hup hdown, fun k hk => (hsame k hk).trans (hother k hk),
      hfault.trans_le Keeps.refl.pairEvent.faultsEver_le⟩
  · rw [show t = s2 from if_neg h6]
    exact ⟨hlen, hdown, hother, hfault⟩

end Sys2Proof.Machine.State
end

section
/-! The registers and switches of R31, R332, R343, R383, R424 and R444, each with what an access of it does. -/

namespace Sys2Proof.Machine.State

variable {s : State}

/-- The Judge's rate is the low 5 bits, 10 to 16 (R383). -/
theorem writeJudge_rate (s : State) (k : Nat) (v : W64) :
    s.writeJudge k 0 v = if 10 ≤ v.toNat % 32 ∧ v.toNat % 32 ≤ 16 then
      { s with judges := s.judges.modify k fun x => { x with rate := v.toNat % 32 } } else s := by
  simp [writeJudge, bitsAt]

/-- The patrol period is the low 9 bits, 60 to 480 (R277). -/
theorem writeEdern_patrolPeriod (s : State) (k : Nat) (v : W64) :
    s.writeEdern k 0x100 v = if 60 ≤ v.toNat % 512 ∧ v.toNat % 512 ≤ 480 then
      { s with edern := s.edern.modify k fun x => { x with patrolPeriod := v.toNat % 512 } } else s := by
  simp [writeEdern, bitsAt, modStack]

/-- The watchdog limit of a Track is the low 20 bits, 10,000 to 500,000 (R424). -/
theorem writeTrack_limit (s : State) (k : Nat) (v : W64) :
    s.writeTrack k 0 v = if 10000 ≤ v.toNat % 2 ^ 20 ∧ v.toNat % 2 ^ 20 ≤ 500000 then
      { s with tracks := s.tracks.modify k fun x => { x with limit := v.toNat % 2 ^ 20 } } else s := by
  simp [writeTrack, bitsAt]

theorem writeBlock_judge {src : Initiator} {k : Nat} (hk : k < 3) (v : W64) :
    s.writeBlock src (0x18 + k) 0 v = s.writeJudge k 0 v := by
  interval_cases k <;> rfl

theorem writeBlock_edern {src : Initiator} {k : Nat} (hk : k < 8) (v : W64) :
    s.writeBlock src (0x20 + k) 0x100 v = s.writeEdern k 0x100 v := by
  interval_cases k <;> rfl

theorem writeBlock_track {src : Initiator} {k : Nat} (hk : k < 2) (v : W64) :
    s.writeBlock src (0x30 + k) 0 v = s.writeTrack k 0 v := by
  interval_cases k <;> rfl

theorem blockReg_relay {p : Nat} (hp : p < 7) : s.blockReg (0x10 + p) 0x30 = (s.port p).crcErr := by
  interval_cases p <;> rfl

theorem clearRc_relay {p : Nat} (hp : p < 7) :
    s.clearRc (0x10 + p) 0x30 = s.modPort p fun x => { x with crcErr := 0 } := by
  interval_cases p <;> rfl

theorem blockReg_edern {e : Nat} (he : e < 8) : s.blockReg (0x20 + e) 8 = (s.stack e).eccCe := by
  interval_cases e <;> rfl

theorem clearRc_edern {e : Nat} (he : e < 8) :
    s.clearRc (0x20 + e) 8 = { s with edern := s.edern.modify e fun x => { x with eccCe := 0 } } := by
  interval_cases e <;> rfl

theorem debugHeat_absent {p : Nat} (h : s.unitMap.state[p]? = some .fused ∨ s.unitMap.state[p]? = some .retired)
    (w : Option W64) : s.debugHeat p w = s.answer .absent (toLe 8 0) := by
  rcases h with h | h <;> simp only [debugHeat, h]

theorem debugHeat_present {p : Nat} (h : s.unitMap.state[p]? = some .active ∨ s.unitMap.state[p]? = some .spare)
    (w : Option W64) : s.debugHeat p w = s.answer .ok (if w.isSome then [] else toLe 8 0) := by
  rcases h with h | h <;> simp only [debugHeat, h]

theorem portOff_frame {p : Nat} (hp : p < s.ports.length) :
    ((s.portOff p).port p).state = .off ∧ ((s.portOff p).port p).enable = false ∧
      ∀ k, k ≠ p → (s.portOff p).port k = s.port k := by
  have h : (s.portOff p).port p = _ := port_setPort _ hp
  rw [h]
  exact ⟨rfl, rfl, fun k hk => port_setPort_ne s _ hk⟩

theorem trainPort_frame {p : Nat} (hp : p < s.ports.length) :
    ((s.trainPort p).port p).state = .training ∧ ((s.trainPort p).port p).enabledAt = s.now ∧
      ∀ k, k ≠ p → (s.trainPort p).port k = s.port k := by
  have h : (s.trainPort p).port p = _ := port_setPort _ hp
  rw [h]
  exact ⟨rfl, rfl, fun k hk => port_setPort_ne s _ hk⟩

theorem modPort_loopback_frame {p : Nat} (hp : p < s.ports.length) :
    let t := s.modPort p fun x => { x with loopback := true }
    (t.port p).loopback = true ∧ (t.port p).state = (s.port p).state ∧ ∀ k, k ≠ p → t.port k = s.port k := by
  intro t
  have h : t.port p = { s.port p with loopback := true } := port_setPort _ hp
  rw [h]
  exact ⟨rfl, rfl, fun k hk => port_setPort_ne s _ hk⟩

theorem setLoopback_up {p : Nat} (h : (s.port p).state = .up ∨ (s.port p).state = .retrain) :
    s.setLoopback p true = (s.linkDown p (s.port p).cause).modPort p fun x => { x with loopback := true } := by
  simp only [setLoopback, if_true, if_pos h]

theorem setLoopback_down {p : Nat} (hu : (s.port p).state ≠ .up) (hr : (s.port p).state ≠ .retrain) :
    s.setLoopback p true = s.modPort p fun x => { x with loopback := true } := by
  have h : ¬ ((s.port p).state = .up ∨ (s.port p).state = .retrain) := not_or.2 ⟨hu, hr⟩
  simp only [setLoopback, if_true, if_neg h]

/-- A port in loopback is not UP; taking an UP link DOWN for it is a detected fault (R320, R343). -/
theorem setLoopback_noJobs {p : Nat} (hj : s.jobs = []) (hp : p < s.ports.length) :
    let t := s.setLoopback p true
    (t.port p).loopback = true ∧ (t.port p).state ≠ .up ∧ ((s.port p).state = .up → s.faultsEver < t.faultsEver) ∧
      ∀ k, k ≠ p → t.port k = s.port k := by
  by_cases h : (s.port p).state = .up ∨ (s.port p).state = .retrain
  · obtain ⟨hlen, hdown, hother, hfault⟩ := linkDown_noJobs (cause := (s.port p).cause) hj hp
    obtain ⟨hl, hst, hk⟩ := modPort_loopback_frame (hlen ▸ hp : p < (s.linkDown p (s.port p).cause).ports.length)
    rw [setLoopback_up h]
    exact ⟨hl, hst ▸ hdown, fun _ => hfault, fun k hne => (hk k hne).trans (hother k hne)⟩
  · obtain ⟨hu, hr⟩ := not_or.1 h
    obtain ⟨hl, hst, hk⟩ := modPort_loopback_frame hp
    rw [setLoopback_down hu hr]
    exact ⟨hl, hst ▸ hu, fun hup => absurd hup hu, hk⟩

theorem setEnable_off_on {p : Nat} (he : (s.port p).enable = false) : s.setEnable p true = s.trainPort p := by
  simp only [setEnable, if_true, he, Bool.false_eq_true, if_false]

theorem setEnable_on_on {p : Nat} (he : (s.port p).enable = true) : s.setEnable p true = s := by
  simp only [setEnable, if_true, he]

theorem setTrace_eq (n : Nat) (on : Bool) :
    s.setTrace n on = s.setCore n { s.core n with
      trace := on, traceCnt := if on && !(s.core n).trace then 0 else (s.core n).traceCnt } := by
  refine congrArg (s.setCore n) ?_
  generalize s.core n = c
  cases on <;> cases h : c.trace <;> simp [h]
  all_goals
    rw [← h]

end Sys2Proof.Machine.State
end

section
/-! The writes and reads of R277, R343, R383 and R424 as commands. -/

namespace Sys2Proof.Machine

variable {s : State} {src : Initiator} {k : Nat}

theorem exec_registerWrite_judge (v : W64) (hs : src = .starter ∨ src = .debug) (hk : k < 3) :
    exec (.registerWrite src (csrBase + (0x18 + k) * 0x100_0000 + 0) (toLe 8 v.toNat)) s =
      .next ((s.writeJudge k 0 v).answer .ok []) := by
  have hw : CsrWord (csrBase + (0x18 + k) * 0x100_0000 + 0) (0x18 + k) 0 :=
    csrWord (by interval_cases k <;> rfl) (by omega) (by decide) rfl
  rw [exec_registerWrite_csr v hs hw (by omega), State.writeBlock_judge hk]

theorem exec_registerWrite_edern (v : W64) (hs : src = .starter ∨ src = .debug) (hk : k < 8) :
    exec (.registerWrite src (csrBase + (0x20 + k) * 0x100_0000 + 0x100) (toLe 8 v.toNat)) s =
      .next ((s.writeEdern k 0x100 v).answer .ok []) := by
  have hw : CsrWord (csrBase + (0x20 + k) * 0x100_0000 + 0x100) (0x20 + k) 0x100 :=
    csrWord (by interval_cases k <;> rfl) (by omega) (by decide) rfl
  rw [exec_registerWrite_csr v hs hw (by omega), State.writeBlock_edern hk]

theorem exec_registerWrite_track (v : W64) (hs : src = .starter ∨ src = .debug) (hk : k < 2) :
    exec (.registerWrite src (csrBase + (0x30 + k) * 0x100_0000 + 0) (toLe 8 v.toNat)) s =
      .next ((s.writeTrack k 0 v).answer .ok []) := by
  have hw : CsrWord (csrBase + (0x30 + k) * 0x100_0000 + 0) (0x30 + k) 0 :=
    csrWord (by interval_cases k <;> rfl) (by omega) (by decide) rfl
  rw [exec_registerWrite_csr v hs hw (by omega), State.writeBlock_track hk]

/-- A host core's write of a register answers NOPERM (R35). -/
theorem exec_registerWrite_hostCore {a b o : Nat} (n : Fin 32) (v : W64) (h : CsrWord a b o) :
    exec (.registerWrite (.hostCore n) a (toLe 8 v.toNat)) s = .next (s.answer .noperm []) := by
  simp only [exec, execRegisterWrite, toLe_length, State.refusal_csr_hostCore n h]

theorem exec_readClear_crcErr (hs : src = .starter ∨ src = .debug) (hk : k < 7) :
    exec (.readClear src (csrBase + (0x10 + k) * 0x100_0000 + 0x30)) s =
      .next ((s.modPort k fun x => { x with crcErr := 0 }).answer .ok (toLe 8 (BitVec.ofNat 64 (s.port k).crcErr).toNat)) := by
  have hw : CsrWord (csrBase + (0x10 + k) * 0x100_0000 + 0x30) (0x10 + k) 0x30 :=
    csrWord (by interval_cases k <;> rfl) (by omega) (by decide) rfl
  rw [exec_readClear_csr hs hw (by omega) (by omega), State.clearRc_relay hk, State.blockReg_relay hk]

theorem exec_readClear_eccCe (hs : src = .starter ∨ src = .debug) (hk : k < 8) :
    exec (.readClear src (csrBase + (0x20 + k) * 0x100_0000 + 8)) s =
      .next ((State.answer { s with edern := s.edern.modify k fun x => { x with eccCe := 0 } } .ok
        (toLe 8 (BitVec.ofNat 64 (s.stack k).eccCe).toNat))) := by
  have hw : CsrWord (csrBase + (0x20 + k) * 0x100_0000 + 8) (0x20 + k) 8 :=
    csrWord (by interval_cases k <;> rfl) (by omega) (by decide) rfl
  rw [exec_readClear_csr hs hw (by omega) (by omega), State.clearRc_edern hk, State.blockReg_edern hk]

end Sys2Proof.Machine
end

section
open Sys2Proof.Machine
namespace Sys2Proof.Proofs

/-- Settles O21: an access of a register comes to `writeBlock`, `blockReg` and `clearRc`; a port that leaves UP for loopback goes
DOWN, which touches no other port. -/
theorem registersAndDebug : Obligations.RegistersAndDebug := by
  refine ⟨fun s src v hs => ⟨fun k hk => ?_, fun k hk => ?_, fun k hk => ?_, ?_⟩,
    fun s src hs => ⟨fun p hp => exec_readClear_crcErr hs hp, fun e he => exec_readClear_eccCe hs he⟩,
    fun s => ⟨fun h o w => ⟨fun hst => ?_, fun hst => ?_⟩,
      fun p hp => ⟨?_, fun he => ?_, fun he => ?_, fun hj => ?_, fun hu hr => ?_⟩,
      fun n on hn => ?_, fun on => ?_, fun l => rfl⟩⟩
  · refine (exec_registerWrite_judge v hs hk).trans ?_
    rw [State.writeJudge_rate]
    rfl
  · refine (exec_registerWrite_edern v hs hk).trans ?_
    rw [State.writeEdern_patrolPeriod]
    rfl
  · refine (exec_registerWrite_track v hs hk).trans ?_
    rw [State.writeTrack_limit]
    rfl
  · exact exec_registerWrite_hostCore 0 v (csrWord (b := 0x18) (o := 0) rfl (by decide) (by decide) rfl)
  · exact congrArg Host.Outcome.next (State.debugHeat_absent hst w)
  · exact congrArg Host.Outcome.next (State.debugHeat_present hst w)
  · exact ⟨_, rfl, State.portOff_frame hp⟩
  · exact ⟨_, congrArg Host.Outcome.next (State.setEnable_off_on he), State.trainPort_frame hp⟩
  · exact congrArg Host.Outcome.next (State.setEnable_on_on he)
  · exact ⟨_, rfl, State.setLoopback_noJobs hj hp⟩
  · exact congrArg Host.Outcome.next (State.setLoopback_down hu hr)
  · exact congrArg Host.Outcome.next (State.setTrace_eq _ _)
  · obtain ⟨_, hq, hc, hd⟩ := State.setDrive_frame s on
    exact ⟨_, rfl, hd, hq, hc⟩

end Sys2Proof.Proofs
end

section
/-! A fault recorded at the release of reset reaches the jobs: its FAULT event is a write of memory, which copies a shared granule
(R296, R462, R485). -/

namespace Sys2Proof.Machine.State

theorem eventRecord_length (s : State) (e : Ev) (job queue : Option Nat) (tag step : Nat) (payload : List Byte) :
    (s.eventRecord e job queue tag step payload).length = 128 := by
  simp [eventRecord]

/-- In an empty memory every ring stands at its first slot. -/
theorem read64_of_mem_nil {s : State} (hm : s.mem = []) (a : Nat) : s.read64 a = 0 := by
  rw [read64, read, hm]
  rfl

/-- An event goes into the first slot of a ring in an empty memory. -/
theorem ringEvent_of_mem_nil {s : State} {r : RingQ} (hp : s.poisoned = []) (hm : s.mem = []) (hs : 0 < r.slots)
    (rec : List Byte) : ringEvent rec s r = (s.store (r.base + 0x40) rec).store64 r.base 1 := by
  have hl : s.ringLine r = none := by simp [ringLine, hp]
  have hf : s.ringFull r = false := by simp [ringFull, read64_of_mem_nil hm, hs.ne']
  simp [ringEvent, hl, ringWrite, hf, ringPut, read64_of_mem_nil hm]

theorem jobs_store (s : State) (a : Nat) (bs : List Byte) :
    (s.store a bs).jobs = s.jobs.map fun j => (granulesIn a bs.length).foldl touchGranule j := rfl

/-- The FAULT event of a fault that affects no job touches the granules of the only device ring, where memory is empty. -/
theorem jobs_recordFault_deviceRing {s : State} {f : FaultInfo} {r : RingQ} (hr : s.rings = [r]) (hk : r.kind = .event)
    (hj : r.job = none) (hp : s.poisoned = []) (hm : s.mem = []) (hs : 0 < r.slots) (hf : f.job = none) :
    (s.recordFault f).jobs =
      (s.jobs.map fun j => (granulesIn (r.base + 0x40) 128).foldl touchGranule j).map fun j =>
        (granulesIn r.base 8).foldl touchGranule j := by
  unfold recordFault
  extract_lets rec_ s1 rings
  have hrings : rings = [] := by simp [rings, hf]
  generalize hev : s1.eventRecord .fault f.job f.queue 0 (s1.stepOf f.job) rec_ = ev
  have hlen : ev.length = 128 := hev ▸ eventRecord_length ..
  have hpost : s1.postRecord rings true ev = ringEvent ev (s1.noteEvent ev) r := by
    have hd : (s1.noteEvent ev).deviceRings = [r] := by
      simp [deviceRings, noteEvent, s1, logFault, hr, hk, hj]
    simp [postRecord, hrings, hd]
  rw [hpost, ringEvent_of_mem_nil (s := s1.noteEvent ev) hp hm hs, store64, jobs_store, jobs_store, hlen, toLe_length]
  rfl

end Sys2Proof.Machine.State
end

section
open Sys2Proof.Machine
namespace Sys2Proof.Proofs.ReleaseWithSharedGranule

/-- An empty device event queue at the start of Edern memory. -/
def ring : RingQ := { id := 0, kind := .event, job := none, base := 0, slots := 256, core := none }

/-- A generation that shares the first granule with the live mapping. -/
def gen : Gen :=
  { step := 0, record := [], map := [], cells := [], committed := [], seqs := [], lap := 0, warm := false, state := .frozen,
    streamed := [], lostLocal := false }

/-- A job with the first granule in its checkpoint set and the second in its snapshot pool. -/
def job : Job :=
  { State.newJob State.reset 0 with
    ranges := [{ base := 0, len := State.granule }], pools := [{ base := State.granule, len := State.granule }], gens := [gen] }

/-- The job with its first granule copied into the pool. -/
def jobMoved : Job := { job with map := [(0, State.granule)] }

/-- A copy of the unit map whose CRC does not fit. -/
def badCopy : MapCopy := { map := .firstPowerUp, crc := crc32c (State.mapBytes .firstPowerUp) + 1 }

/-- A device held in reset that is free to leave it, with the job, the ring in the job's shared granule and the bad copy. -/
def held : State :=
  { State.reset with
    rings := [ring], jobs := [job], mapCopies := [badCopy], power := { State.reset.power with held := true } }

/-- A write of the ring's granule takes the granule of the pool (R296). -/
theorem touchGranule_job : State.touchGranule job 0 = jobMoved := rfl

/-- A further write finds the granule unshared. -/
theorem touchGranule_moved : State.touchGranule jobMoved 0 = jobMoved := rfl

/-- The bad copy is recorded as a fault that affects no job (R462). -/
theorem checkCopies_badCopy {s : State} (h : s.mapCopies = [badCopy]) :
    ∃ t f, s.checkCopies = State.recordFault t f ∧ f.job = none ∧ t.rings = s.rings ∧ t.jobs = s.jobs ∧
      t.poisoned = s.poisoned ∧ t.mem = s.mem := by
  have hall : (s.mapCopies.all fun c => crc32c (State.mapBytes c.map) == c.crc) = false := by
    rw [h]
    simp [badCopy]
  rw [State.checkCopies, if_neg (by rw [hall]; decide)]
  exact ⟨_, _, rfl, rfl, rfl, rfl, rfl, rfl⟩

/-- The FAULT event of the bad copy is written into the shared granule, which the live mapping then leaves. -/
theorem jobs_checkCopies {s : State} (hc : s.mapCopies = [badCopy]) (hr : s.rings = [ring]) (hp : s.poisoned = [])
    (hm : s.mem = []) (hj : s.jobs = [job]) : s.checkCopies.jobs = [jobMoved] := by
  obtain ⟨t, f, ht, hf, htr, htj, htp, htm⟩ := checkCopies_badCopy hc
  have h1 : State.granulesIn (ring.base + 0x40) 128 = [0] := rfl
  have h2 : State.granulesIn ring.base 8 = [0] := rfl
  rw [ht, State.jobs_recordFault_deviceRing (htr.trans hr) rfl rfl (htp.trans hp) (htm.trans hm) (by decide) hf, h1, h2, htj, hj]
  simp only [List.map_cons, List.map_nil, List.foldl_cons, List.foldl_nil, touchGranule_job, touchGranule_moved]

theorem jobs_releaseReset (st : Straps) : (held.releaseReset st).jobs = [jobMoved] := by
  have hfree : (held.power.held && held.power.good && held.inputs.resetN && !held.extestHolds) = true := rfl
  have hstopped : held.starter.stopped = false := rfl
  simp only [State.releaseReset, if_pos hfree, hstopped, Bool.false_eq_true, if_false]
  refine jobs_checkCopies ?_ ?_ ?_ ?_ ?_
  · rfl
  · rfl
  · rfl
  · rfl
  · rfl

end Sys2Proof.Proofs.ReleaseWithSharedGranule
end

section
open Sys2Proof.Machine
namespace Sys2Proof.Proofs

/-- Refutes O22: a release of reset that finds a bad copy of the unit map posts a FAULT event, and where the ring of device
events lies in a granule that a job shares with a generation, that write copies the granule, so the jobs do not stay. -/
theorem not_resetsAndRelease : ¬ Obligations.ResetsAndRelease := by
  intro h
  let st : Straps := { siteId := 0, pairSide := false, ethSpeed := false }
  obtain ⟨t, ht, _, _, _, _, _, hjobs, _⟩ := (h.2.2 ReleaseWithSharedGranule.held st).1 ⟨rfl, rfl, rfl, rfl⟩ rfl
  have ht' : ReleaseWithSharedGranule.held.releaseReset st = t := Host.Outcome.next.inj ht
  rw [← ht', ReleaseWithSharedGranule.jobs_releaseReset] at hjobs
  exact absurd (congrArg (List.map Job.map) hjobs) (by decide)

end Sys2Proof.Proofs
end

section
/-! SUPPORT. The patterns of the number formats (R39 to R43): reading one and writing its value again gives it back. -/

namespace Sys2Proof.Machine

@[simp] theorem shiftNat_zero (m : Nat) : shiftNat m 0 = m := by
  simp [shiftNat]

@[simp] theorem sInt_natAbs (i : Int) : sInt (decide (i < 0)) i.natAbs = i := by
  by_cases h : i < 0
  · simp [sInt, h, Int.ofNat_natAbs_of_nonpos h.le]
  · simp [sInt, h, Int.natAbs_of_nonneg (not_lt.1 h)]

theorem log2_two_pow_add {k m : Nat} (hm : m < 2 ^ k) : (2 ^ k + m).log2 = k :=
  (Nat.log2_eq_iff (by have := Nat.two_pow_pos k; omega)).2 ⟨by omega, by rw [Nat.pow_succ]; omega⟩

/-! ### Two's complement -/

theorem unsignedOf_lt (n : Nat) (i : Int) : unsignedOf n i < 2 ^ n :=
  (Int.toNat_lt_of_ne_zero (Nat.two_pow_pos n).ne').2 (Int.emod_lt_of_pos i (by exact_mod_cast Nat.two_pow_pos n))

theorem unsignedOf_ofNat (n w : Nat) : unsignedOf n w = w % 2 ^ n := by
  rw [unsignedOf, ← Int.natCast_emod, Int.toNat_natCast]

theorem unsignedOf_add_two_pow (n : Nat) (i : Int) : unsignedOf n (i + (2 ^ n : Nat)) = unsignedOf n i := by
  rw [unsignedOf, Int.add_emod_right, unsignedOf]

theorem unsignedOf_signedOf {n w : Nat} (hw : w < 2 ^ n) : unsignedOf n (signedOf n w) = w := by
  have hmod : w % 2 ^ n = w := Nat.mod_eq_of_lt hw
  simp only [signedOf, hmod]
  split
  · rw [unsignedOf_ofNat, hmod]
  · rw [← unsignedOf_add_two_pow, Int.sub_add_cancel, unsignedOf_ofNat, hmod]

theorem two_pow_eq_add_half {n : Nat} (hn : 0 < n) : 2 ^ n = 2 ^ (n - 1) + 2 ^ (n - 1) := by
  rw [← Nat.two_mul, Nat.mul_comm, ← Nat.pow_succ, Nat.succ_eq_add_one, Nat.sub_add_cancel hn]

theorem signedOf_bounds {n : Nat} (hn : 0 < n) (w : Nat) :
    -((2 ^ (n - 1) : Nat) : Int) ≤ signedOf n w ∧ signedOf n w < (2 ^ (n - 1) : Nat) := by
  have hv : w % 2 ^ n < 2 ^ n := Nat.mod_lt w (Nat.two_pow_pos n)
  have h2 := two_pow_eq_add_half hn
  simp only [signedOf]
  split <;> omega

/-- What is written in `n` bits is read back, for an integer in their range. -/
theorem signedOf_unsignedOf {n : Nat} (hn : 0 < n) {i : Int} (hlo : -((2 ^ (n - 1) : Nat) : Int) ≤ i)
    (hhi : i < (2 ^ (n - 1) : Nat)) : signedOf n (unsignedOf n i) = i := by
  have h2 := two_pow_eq_add_half hn
  have hmod := Nat.mod_eq_of_lt (unsignedOf_lt n i)
  simp only [signedOf, hmod]
  by_cases h : 0 ≤ i
  · obtain ⟨k, rfl⟩ := Int.eq_ofNat_of_zero_le h
    have hk : unsignedOf n k = k := by
      rw [unsignedOf_ofNat, Nat.mod_eq_of_lt (by omega)]
    rw [hk, if_pos (by omega)]
  · obtain ⟨k, hk⟩ := Int.eq_ofNat_of_zero_le (a := i + (2 ^ n : Nat)) (by omega)
    have hu : unsignedOf n i = k := by
      rw [← unsignedOf_add_two_pow, hk, unsignedOf_ofNat, Nat.mod_eq_of_lt (by omega)]
    rw [hu, if_neg (by omega)]
    omega

theorem clampInt_bounds (n : Nat) (i : Int) :
    -((2 ^ (n - 1) : Nat) : Int) ≤ clampInt n i ∧ clampInt n i < (2 ^ (n - 1) : Nat) := by
  have hpos := Nat.two_pow_pos (n - 1)
  simp only [clampInt]
  omega

/-- An integer in the range of `n` bits is in the range of `m` bits for `m` at least `n`. -/
theorem clampInt_signedOf {n m : Nat} (hn : 0 < n) (hnm : n ≤ m) (w : Nat) : clampInt m (signedOf n w) = signedOf n w := by
  obtain ⟨hlo, hhi⟩ := signedOf_bounds hn w
  have hpow : 2 ^ (n - 1) ≤ 2 ^ (m - 1) := Nat.pow_le_pow_right (by decide) (by omega)
  simp only [clampInt]
  omega

namespace FloatSpec

variable {f : FloatSpec} {raw e m : Nat} {s : Bool}

/-! ### Patterns and their fields -/

/-- The pattern with the given sign, exponent and fraction. -/
def pack (f : FloatSpec) (s : Bool) (e m : Nat) : Nat :=
  ((if s then 2 ^ (f.expBits + f.frac) else 0) + (e * 2 ^ f.frac + m)) <<< f.shift

/-- A pattern whose bits below the format's are 0 is put together from its fields. -/
theorem pack_fields (hlt : raw < 2 ^ (f.shift + f.width)) (hlow : raw % 2 ^ f.shift = 0) :
    f.pack (f.fields raw).1 (f.fields raw).2.1 (f.fields raw).2.2 = raw := by
  obtain ⟨v, rfl⟩ := Nat.dvd_of_mod_eq_zero hlow
  have hv : v / 2 ^ (f.expBits + f.frac) < 2 := by
    rw [Nat.div_lt_iff_lt_mul (Nat.two_pow_pos _), ← Nat.pow_succ']
    rw [Nat.pow_add] at hlt
    exact (Nat.lt_of_mul_lt_mul_left hlt).trans_eq (congrArg (2 ^ ·) (by simp only [width]; omega))
  have hsign : (if v / 2 ^ (f.expBits + f.frac) % 2 = 1 then 2 ^ (f.expBits + f.frac) else 0) =
      2 ^ (f.expBits + f.frac) * (v / 2 ^ (f.expBits + f.frac)) := by
    obtain h | h := Nat.le_one_iff_eq_zero_or_eq_one.1 (Nat.le_of_lt_succ hv) <;> simp [h]
  have hexp : v / 2 ^ f.frac % 2 ^ f.expBits * 2 ^ f.frac + v % 2 ^ f.frac = v % 2 ^ (f.expBits + f.frac) := by
    rw [Nat.add_comm f.expBits, Nat.pow_add, Nat.mod_mul, Nat.mul_comm, Nat.add_comm]
  simp only [pack, fields, Nat.shiftRight_eq_div_pow, Nat.shiftLeft_eq, Nat.mul_div_cancel_left _ (Nat.two_pow_pos _),
    decide_eq_true_eq, hsign, hexp, Nat.div_add_mod]
  exact Nat.mul_comm ..

theorem decode_of_fields (h : f.fields raw = (s, e, m)) :
    f.decode raw =
      if e = 0 then .fin s m f.qmin
      else if e = 2 ^ f.expBits - 1 ∧ f.kind = .ieee then (if m = 0 then .inf s else .nan)
      else if e = 2 ^ f.expBits - 1 ∧ m = 2 ^ f.frac - 1 ∧ f.kind = .allOnes then .nan
      else .fin s (2 ^ f.frac + m) ((e : Int) - f.bias - f.frac) := by
  rw [decode, h]

theorem encode_inf (f : FloatSpec) (s : Bool) : f.encode (.inf s) = f.pack s (2 ^ f.expBits - 1) 0 := rfl

theorem encode_zero (f : FloatSpec) (s : Bool) (q : Int) : f.encode (.fin s 0 q) = f.pack s 0 0 := by
  simp [encode, pack]

theorem encode_subnormal (f : FloatSpec) (s : Bool) (hm : m < 2 ^ f.frac) :
    f.encode (.fin s m f.qmin) = f.pack s 0 m := by
  by_cases h0 : m = 0
  · rw [h0, encode_zero]
  · have hlog : m.log2 < f.frac := (Nat.log2_lt h0).2 hm
    have htop : f.qmin + m.log2 < f.emin := by simp only [qmin]; omega
    simp [encode, pack, h0, htop]

theorem encode_normal (f : FloatSpec) (s : Bool) (he : e ≠ 0) (hm : m < 2 ^ f.frac) :
    f.encode (.fin s (2 ^ f.frac + m) ((e : Int) - f.bias - f.frac)) = f.pack s e m := by
  have h0 : 2 ^ f.frac + m ≠ 0 := by have := Nat.two_pow_pos f.frac; omega
  have htop : (e : Int) - f.bias - f.frac + f.frac = e - f.bias := by omega
  have hmin : ¬ (e : Int) - f.bias < f.emin := by simp only [emin]; omega
  simp only [encode, if_neg h0, log2_two_pow_add hm, htop, if_neg hmin, sub_self, shiftNat_zero, Nat.add_sub_cancel_left,
    Int.sub_add_cancel, Int.toNat_natCast, pack]

/-- A pattern that is no NaN is the pattern of its value. -/
theorem encode_decode (hlt : raw < 2 ^ (f.shift + f.width)) (hlow : raw % 2 ^ f.shift = 0) (hnan : f.decode raw ≠ .nan) :
    f.encode (f.decode raw) = raw := by
  obtain ⟨s, e, m, h⟩ : ∃ s e m, f.fields raw = (s, e, m) := ⟨_, _, _, rfl⟩
  have hm : m < 2 ^ f.frac := by
    rw [← show (f.fields raw).2.2 = m by rw [h]]
    exact Nat.mod_lt _ (Nat.two_pow_pos _)
  have hraw : f.pack s e m = raw := by simpa only [h] using pack_fields hlt hlow
  rw [decode_of_fields h] at hnan ⊢
  split_ifs at hnan ⊢ with he htop hm0
  · rw [encode_subnormal f s hm, ← he, hraw]
  · rw [encode_inf, ← htop.1, ← hm0, hraw]
  · exact absurd rfl hnan
  · exact absurd rfl hnan
  · rw [encode_normal f s he hm, hraw]

end FloatSpec

/-- The format's bits end where its container ends (R39, R41). -/
theorem Fmt.bits_of_spec {f : Fmt} {fs : FloatSpec} (h : f.spec = some fs) : f.bits = fs.shift + fs.width := by
  cases f <;> cases h <;> rfl

end Sys2Proof.Machine
end

section
open Sys2Proof.Machine
namespace Sys2Proof.Proofs

/-- Settles O58, by the cases of the fields: each value is written back into the fields it was read from. -/
theorem formatPatternsRoundTrip : Obligations.FormatPatternsRoundTrip :=
  ⟨fun _ _ hf _ hlt hlow hnan => FloatSpec.encode_decode (Fmt.bits_of_spec hf ▸ hlt) hlow hnan,
    fun _ _ _ _ hw => unsignedOf_signedOf hw⟩

end Sys2Proof.Proofs
end

section
/-! SUPPORT. Conversions: between integers nothing is rounded (R59), and the powers of two of SCE8 round to themselves in FP32 or
lie below its normal range (R46, R60). -/

namespace Sys2Proof.Machine

variable {mode : RMode} {sat s neg : Bool} {r m m1 m2 : Nat} {e u e1 e2 : Int}

/-- A value whose last bit is no finer than the step rounds to itself. -/
theorem roundAt_of_le (h : u ≤ e) : roundAt mode r neg m e u = m <<< (e - u).toNat := by
  rw [roundAt, if_pos h]

@[simp] theorem roundInt_ofInt (i : Int) : roundInt mode r (decide (i < 0)) i.natAbs 0 = i := by
  simp [roundInt, roundAt_of_le]

theorem cmpMag_eq_lt (h1 : m1 ≠ 0) (h2 : m2 ≠ 0) (h : e1 + m1.log2 < e2 + m2.log2) : cmpMag m1 e1 m2 e2 = .lt := by
  simp [cmpMag, h1, h2, h]

theorem cmpMag_eq_gt (h1 : m1 ≠ 0) (h2 : m2 ≠ 0) (h : e2 + m2.log2 < e1 + m1.log2) : cmpMag m1 e1 m2 e2 = .gt := by
  simp [cmpMag, h1, h2, h, Int.lt_asymm h]

/-! ### Integers -/

/-- Reading an element of an integer format gives its integer. -/
theorem readElem_int {a : Fmt} {n : Nat} (h : a.intBits = some n) (raw : Nat) :
    readElem a raw = { val := .ofInt (signedOf n raw) } := by
  cases a <;> cases h <;> rfl

theorem Fmt.intBits_pos {a : Fmt} {n : Nat} (h : a.intBits = some n) : 0 < n := by
  cases a <;> cases h <;> decide

theorem Fmt.spec_of_intBits {a : Fmt} {n : Nat} (h : a.intBits = some n) : a.spec = none := by
  cases a <;> cases h <;> rfl

/-- An integer converts to an integer format by a clamp to its range. -/
theorem convertElem_int {b : Fmt} {k : Nat} (h : b.intBits = some k) (from64 : Bool) (i : Int) :
    (convertElem from64 b mode sat r { val := .ofInt i }).1 = unsignedOf k (clampInt k i) := by
  simp only [convertElem, Fmt.spec_of_intBits h, h, Num.ofInt, roundInt_ofInt]

/-! ### SCE8 -/

theorem log2_one : Nat.log2 1 = 0 := Nat.log2_two_pow (n := 0)

/-- A power of two is written with its one bit at the top of the significand. -/
theorem roundMag_one (p : Nat) (e : Int) : roundMag (p + 1) none mode r s 1 e = (2 ^ p, e - p) := by
  have hu : e + (Nat.log2 1 : Nat) - ((p + 1 : Nat) : Int) + 1 = e - p := by
    rw [log2_one]
    omega
  have hsh : (e - (e - p)).toNat = p := by omega
  simp only [roundMag, Nat.one_ne_zero, if_false, hu]
  rw [roundAt_of_le (by omega), hsh, Nat.one_shiftLeft]

theorem log2_f32_maxM : f32.maxM.log2 = 23 := by decide

/-- A power of two up to 2^127 does not exceed FP32's largest magnitude. -/
theorem cmpMag_f32_max (he : e ≤ 127) : cmpMag (2 ^ 23) (e - 23) f32.maxM f32.maxE = .lt := by
  obtain rfl | hlt := he.eq_or_lt
  · decide
  · refine cmpMag_eq_lt (by decide) (by decide) ?_
    rw [log2_f32_maxM, Nat.log2_two_pow, show f32.maxE = 104 from rfl]
    omega

/-- A power of two is below FP32's normal range when its exponent is. -/
theorem cmpMag_f32_emin : cmpMag (2 ^ 23) (e - 23) 1 f32.emin = .lt ↔ e < -126 := by
  have hlog : (2 ^ 23 : Nat).log2 = 23 := Nat.log2_two_pow
  have hmin : f32.emin = -126 := rfl
  rcases lt_trichotomy e (-126) with h | rfl | h
  · rw [cmpMag_eq_lt (by decide) (by decide) (by rw [hlog, log2_one, hmin]; omega)]
    simp [h]
  · decide
  · rw [cmpMag_eq_gt (by decide) (by decide) (by rw [hlog, log2_one, hmin]; omega)]
    simp [h.le]

/-- A power of two not above the largest magnitude is kept, or flushed below the normal range (R46). -/
theorem round_one {f : FloatSpec} (h : cmpMag (2 ^ f.frac) (e - f.frac) f.maxM f.maxE = .lt) :
    (f.round false mode sat r (.fin s 1 e)).1 =
      if cmpMag (2 ^ f.frac) (e - f.frac) 1 f.emin = .lt then .fin s 0 0 else .fin s (2 ^ f.frac) (e - f.frac) := by
  simp only [FloatSpec.round, FloatSpec.p, Bool.false_eq_true, if_false, Nat.one_ne_zero, roundMag_one, h]
  by_cases hlt : cmpMag (2 ^ f.frac) (e - f.frac) 1 f.emin = .lt <;> simp [hlt]

theorem round_f32_one (he : e ≤ 127) :
    (f32.round false mode sat r (.fin s 1 e)).1 = if e < -126 then .fin s 0 0 else .fin s (2 ^ 23) (e - 23) :=
  (round_one (f := f32) (cmpMag_f32_max he)).trans (if_congr cmpMag_f32_emin rfl rfl)

theorem convertElem_fp32 (x : Elem) :
    (convertElem false .fp32 mode sat r x).1 = f32.encode (f32.round false mode sat r x.val).1 := rfl

theorem convertElem_sce8 (from64 : Bool) (x : Elem) : (convertElem from64 .sce8 mode sat r x).1 = toSce8 x.val := rfl

/-- The value of an SCE8 code: 2^(c - 127), or the NaN of code 255 (R60). -/
theorem readElem_sce8_val {c : Nat} (hc : c < 256) :
    (readElem .sce8 c).val = if c = 255 then .nan else .fin false 1 ((c : Int) - 127) := by
  simp only [readElem, Fmt.spec, Nat.mod_eq_of_lt hc]
  split <;> rfl

/-- The value 2^(c - 127) has the FP32 pattern with exponent field c. -/
theorem encode_f32_two_pow {c : Nat} (hc : c ≠ 0) : f32.encode (.fin false (2 ^ 23) ((c : Int) - 127 - 23)) = c * 2 ^ 23 := by
  refine (FloatSpec.encode_normal f32 false (m := 0) hc (by decide)).trans ?_
  simp [FloatSpec.pack, f32, Fmt.spec]

theorem convertElem_fp32_sce8 {c : Nat} (hc : c < 256) :
    (convertElem false .fp32 mode sat r (readElem .sce8 c)).1 =
      if c = 255 then 0x7FC00000 else if c = 0 then 0 else c * 2 ^ 23 := by
  rw [convertElem_fp32, readElem_sce8_val hc]
  split_ifs with h255 h0
  · rfl
  · rw [round_f32_one (by omega), if_pos (by omega)]
    rfl
  · rw [round_f32_one (by omega), if_neg (by omega), encode_f32_two_pow h0]

/-- A normal value's SCE8 code is the exponent field of its FP32 pattern (R60). -/
theorem toSce8_normal {e m : Nat} (hm : m < 2 ^ 23) (h255 : e < 255) :
    toSce8 (.fin s (2 ^ 23 + m) ((e : Int) - 127 - 23)) = e := by
  have hne : 2 ^ 23 + m ≠ 0 := by omega
  simp only [toSce8, if_neg hne, log2_two_pow_add hm]
  omega

theorem fields_f32 (raw : Nat) :
    f32.fields raw = (decide (raw / 2 ^ 31 % 2 = 1), raw / 2 ^ 23 % 256, raw % 2 ^ 23) := by
  simp [FloatSpec.fields, f32, Fmt.spec, Nat.shiftRight_eq_div_pow]

/-- An FP32 element: subnormals are read as zeros (R45). -/
theorem readElem_fp32_val (raw : Nat) :
    (readElem .fp32 raw).val = if f32.subnormal raw then .zero (f32.fields raw).1 else f32.decode raw := by
  have h : readElem .fp32 raw =
      if f32.subnormal raw then { val := .zero (f32.fields raw).1, flushed := true } else { val := f32.decode raw } := rfl
  rw [h]
  split <;> rfl

theorem convertElem_sce8_fp32 (raw : Nat) :
    (convertElem false .sce8 mode sat r (readElem .fp32 raw)).1 =
      if raw / 2 ^ 23 % 256 = 255 then (if raw % 2 ^ 23 = 0 then 0xFE else 0xFF) else raw / 2 ^ 23 % 256 := by
  have hf := fields_f32 raw
  have hm : raw % 2 ^ 23 < 2 ^ 23 := Nat.mod_lt _ (by decide)
  have hlt : raw / 2 ^ 23 % 256 < 256 := Nat.mod_lt _ (by decide)
  rw [convertElem_sce8, readElem_fp32_val, FloatSpec.subnormal, FloatSpec.decode_of_fields hf, hf]
  generalize raw / 2 ^ 23 % 256 = e at *
  generalize raw % 2 ^ 23 = m at *
  by_cases h0 : e = 0
  · by_cases hm0 : m = 0 <;> simp [h0, hm0, toSce8, Num.zero]
  · have hsub : ¬ (e == 0 && m != 0) = true := by simp [h0]
    rw [if_neg hsub, if_neg h0]
    by_cases htop : e = 255
    · rw [if_pos ⟨htop, rfl⟩, if_pos htop]
      split <;> rfl
    · rw [if_neg (fun h => htop h.1), if_neg (fun h => htop h.1), if_neg htop]
      exact toSce8_normal hm (by omega)

end Sys2Proof.Machine
end

section
open Sys2Proof.Machine
namespace Sys2Proof.Proofs

/-- Settles O59: between integer formats the conversion is one clamp, and between SCE8 and FP32 a code is the exponent field. -/
theorem integerAndScaleConversions : Obligations.IntegerAndScaleConversions := by
  refine ⟨fun a b n k ha hb mode sat r raw _ => ?_, fun f => ⟨?_, ?_⟩,
    fun mode sat r => ⟨fun c hc => convertElem_fp32_sce8 hc, fun raw _ => convertElem_sce8_fp32 raw⟩⟩
  · rw [readElem_int ha, convertElem_int hb]
    dsimp only
    obtain ⟨hlo, hhi⟩ := clampInt_bounds k (signedOf n raw)
    rw [signedOf_unsignedOf (Fmt.intBits_pos hb) hlo hhi]
    refine ⟨unsignedOf_lt .., fun hnk => clampInt_signedOf (Fmt.intBits_pos ha) hnk raw, ?_⟩
    simp only [clampInt, min_comm, Nat.cast_pow, Nat.cast_ofNat]
  · cases f <;> decide
  · cases f <;> decide

end Sys2Proof.Proofs
end

section
/-! What the posting of an event counts (R484). -/

namespace Sys2Proof.Machine.State

theorem events_ringWrite (rec : List Byte) (s : State) (r : RingQ) : (ringWrite rec s r).events = s.events := by
  unfold ringWrite
  split <;> rfl

theorem events_toBacklog (s : State) (rec : List Byte) : (s.toBacklog rec).events = s.events := by
  unfold toBacklog
  extract_lets
  split <;> rfl

theorem events_lt_strike (s : State) (l : Nat) : s.events < (s.strike l).events := by
  unfold strike
  extract_lets f rec_ s1 ev s2
  have h2 : s.events < s2.events := Nat.lt_succ_self _
  split
  · rwa [events_toBacklog]
  · exact List.foldlRecOn (motive := fun t : State => s.events < t.events) _ _ h2 fun t ht r _ => (events_ringWrite ev t r).symm ▸ ht

theorem events_le_ringEvent (rec : List Byte) (s : State) (r : RingQ) : s.events ≤ (ringEvent rec s r).events := by
  unfold ringEvent
  split
  · exact (events_lt_strike ..).le
  · exact (events_ringWrite ..).ge

/-- An event that is posted is counted. -/
theorem events_lt_postRecord (s : State) (rings : List Nat) (device : Bool) (rec : List Byte) :
    s.events < (s.postRecord rings device rec).events := by
  have hfold (l : List RingQ) (t : State) (ht : s.events < t.events) :
      s.events < (l.foldl (ringEvent rec) t).events :=
    List.foldlRecOn (motive := fun t : State => s.events < t.events) _ _ ht fun u hu r _ => hu.trans_le (events_le_ringEvent rec u r)
  unfold postRecord
  extract_lets s1 s2
  have h2 : s.events < s2.events := hfold _ _ (Nat.lt_succ_self _)
  split
  · split
    · rwa [events_toBacklog]
    · exact hfold _ _ h2
  · exact h2

theorem ringQueue_accepted {s : State} {qid : Nat} {q : CmdQueue} {v : W64} (hq : s.queue? qid = some q)
    (hu : q.state ≠ .unbound) (h : (v - q.write).toNat < 2 ^ 63 ∧ (v - s.qwFree q).toNat ≤ q.slots) :
    let q1 := { q with write := v }
    s.ringQueue qid v = s.setQueue { q1 with state := if q.state = .idle then readyState q1 else q.state } := by
  simp only [ringQueue, hq, if_neg hu, if_pos h]

theorem ringQueue_rejected {s : State} {qid : Nat} {q : CmdQueue} {v : W64} (hq : s.queue? qid = some q)
    (hu : q.state ≠ .unbound) (h : ¬ ((v - q.write).toNat < 2 ^ 63 ∧ (v - s.qwFree q).toNat ≤ q.slots)) :
    s.ringQueue qid v =
      s.postQueue .doorbellBad q 0 (toLe 8 v.toNat ++ toLe 8 q.write.toNat ++ toLe 8 (s.qwFree q).toNat) := by
  simp only [ringQueue, hq, if_neg hu, if_neg h]

end Sys2Proof.Machine.State
end

section
open Sys2Proof.Machine
namespace Sys2Proof.Proofs

/-- Settles O8: the row is `ringQueue`; a write out of its bounds only posts an event, which touches no queue. -/
theorem doorbellIsJudgedByItsBounds : Obligations.DoorbellIsJudgedByItsBounds := by
  intro s qid q v hq
  refine ⟨fun hu => ?_, fun hu hw hf => ?_, fun hu h => ?_⟩
  · refine congrArg Host.Outcome.next ?_
    simp only [State.ringQueue, hq, hu, if_true]
  · exact congrArg Host.Outcome.next (State.ringQueue_accepted hq hu ⟨hw, hf⟩)
  · exact ⟨_, congrArg Host.Outcome.next (State.ringQueue_rejected hq hu h), (State.posts_postRecord ..).queues,
      State.events_lt_postRecord ..⟩

end Sys2Proof.Proofs
end

section
/-! A command in hand: what is decoded, and what the end of a command writes. `s.Confined A t` says that `t` differs from `s` in
memory at most in the bytes of `A`. -/

namespace Sys2Proof.Machine

/-! ### Memory that changes in some bytes only -/

namespace State

/-- From `s` to `t` memory changed at most in the bytes of `A`; the rings are there as before, and no line was poisoned. -/
structure Confined (A : Nat → Prop) (s t : State) : Prop where
  memOk : s.memOk → t.memOk
  byte : s.memOk → ∀ a, ¬ A a → t.byte a = s.byte a
  poisoned : s.poisoned = [] → t.poisoned = []
  rings : t.rings = s.rings

namespace Confined

variable {A B : Nat → Prop} {s t u : State}

theorem refl : Confined A s s := ⟨id, fun _ _ _ => rfl, id, rfl⟩

theorem trans (h : Confined A s t) (h1 : Confined A t u) : Confined A s u where
  memOk hm := h1.memOk (h.memOk hm)
  byte hm a ha := (h1.byte (h.memOk hm) a ha).trans (h.byte hm a ha)
  poisoned hp := h1.poisoned (h.poisoned hp)
  rings := h1.rings.trans h.rings

theorem mono (h : Confined A s t) (hAB : ∀ a, A a → B a) : Confined B s t :=
  { h with byte := fun hm a ha => h.byte hm a fun hA => ha (hAB a hA) }

/-- A change that touches neither memory, nor poison, nor rings. -/
theorem of_eq (hm : t.mem = s.mem) (hp : t.poisoned = s.poisoned) (hr : t.rings = s.rings) : Confined A s t where
  memOk h := show t.mem.wf = true from hm ▸ h
  byte _ a _ := congrArg (Memory.get · a) hm
  poisoned h := hp.trans h
  rings := hr

theorem store {a : Nat} {bs : List Byte} (hA : ∀ b, a ≤ b → b < a + bs.length → A b) : Confined A s (s.store a bs) where
  memOk hm := memOk_store s hm a bs
  byte hm b hb := byte_store_out s hm a bs (by by_contra hin; exact hb (hA b (by omega) (by omega)))
  poisoned hp := by simp [State.store, hp]
  rings := rfl

theorem storeNat {a n v : Nat} (hA : ∀ b, a ≤ b → b < a + n → A b) : Confined A s (s.storeNat a n v) :=
  store (by rwa [toLe_length])

theorem store64 {a : Nat} {v : W64} (hA : ∀ b, a ≤ b → b < a + 8 → A b) : Confined A s (s.store64 a v) :=
  store (by rwa [toLe_length])

theorem foldl {α : Type} {f : State → α → State} {l : List α} (h : ∀ t, ∀ x ∈ l, Confined A t (f t x)) (s : State) :
    Confined A s (l.foldl f s) :=
  List.foldlRecOn (motive := Confined A s) _ _ refl fun t ht x hx => ht.trans (h t x hx)

/-- The same, where each step asks for a state without poison. -/
theorem foldl_of_poisoned_nil {α : Type} {f : State → α → State} {l : List α} (hp : s.poisoned = [])
    (h : ∀ t : State, t.poisoned = [] → ∀ x ∈ l, Confined A t (f t x)) : Confined A s (l.foldl f s) :=
  List.foldlRecOn (motive := Confined A s) _ _ refl fun t ht x hx => ht.trans (h t (ht.poisoned hp) x hx)

end Confined

/-! ### Rings and events -/

theorem recBytes_pos (k : RingKind) : 32 ≤ k.recBytes := by cases k <;> decide

/-- A record goes into a slot and the index into the header: both lie in the ring (R205). -/
theorem confined_ringPut {s : State} {r : RingQ} {rec : List Byte} (hs : 0 < r.slots) (hl : rec.length ≤ r.kind.recBytes) :
    Confined (inRing r) s (s.ringPut r rec) := by
  have hslot : ((s.read64 r.base).toNat % r.slots + 1) * r.kind.recBytes ≤ r.slots * r.kind.recBytes :=
    Nat.mul_le_mul_right _ (Nat.mod_lt _ hs)
  rw [Nat.add_mul, Nat.one_mul] at hslot
  refine (Confined.store fun b h1 h2 => ?_).trans (Confined.store64 fun b h1 h2 => ?_) <;>
  · unfold inRing ringLen
    omega

theorem ringPut_queues (s : State) (r : RingQ) (rec : List Byte) : (s.ringPut r rec).queues = s.queues := rfl

theorem confined_ringWrite {s : State} {r : RingQ} {rec : List Byte} (hs : 0 < r.slots) (hl : rec.length ≤ r.kind.recBytes) :
    Confined (inRing r) s (ringWrite rec s r) := by
  unfold ringWrite
  split
  · exact Confined.store64 fun b h1 h2 => by unfold inRing ringLen; omega
  · exact confined_ringPut hs hl

theorem ringLine_of_poisoned_nil {s : State} (hp : s.poisoned = []) (r : RingQ) : s.ringLine r = none := by
  simp [ringLine, hp]

/-- The bytes of the rings of a list of IDs. -/
def ringBytes (s : State) (ids : List Nat) (a : Nat) : Prop := ∃ x ∈ s.rings, x.id ∈ ids ∧ inRing x a

/-- Where no line is poisoned, an event for some rings is written into those rings and nowhere else (R485). -/
theorem confined_postRecord {s : State} {ids : List Nat} {rec : List Byte} (hp : s.poisoned = [])
    (hs : ∀ x ∈ s.rings, 0 < x.slots) (hl : rec.length = 128) :
    Confined (s.ringBytes ids) s (s.postRecord ids false rec) := by
  have he : s.postRecord ids false rec =
      (s.rings.filter fun r => r.kind == .event && ids.contains r.id).foldl (ringEvent rec) (s.noteEvent rec) := rfl
  rw [he]
  have hn : Confined (s.ringBytes ids) s (s.noteEvent rec) := .of_eq rfl rfl rfl
  refine hn.trans (Confined.foldl_of_poisoned_nil hp fun t ht r hr => ?_)
  obtain ⟨hmem, hf⟩ := List.mem_filter.1 hr
  obtain ⟨hkind, hid⟩ := Bool.and_eq_true_iff.1 hf
  have hk : r.kind = .event := eq_of_beq hkind
  have hw : Confined (inRing r) t (ringWrite rec t r) := confined_ringWrite (hs r hmem) (by rw [hl, hk]; decide)
  rw [ringEvent, ringLine_of_poisoned_nil ht]
  exact hw.mono fun a ha => ⟨r, hmem, by simpa using hid, ha⟩

/-! ### The end of a command (R203 to R205) -/

theorem completionRecord_length (s : State) (q : CmdQueue) (head : Nat) (pos : W64) (st : Status) (a b : Nat) :
    (s.completionRecord q head pos st a b).length = 32 := by
  simp [completionRecord]

theorem doneQueue_id (q : CmdQueue) (d : Done) : (doneQueue q d).id = q.id := by
  unfold doneQueue
  split <;> rfl

theorem doneQueue_sregs (q : CmdQueue) (d : Done) : (doneQueue q d).sregs = q.sregs := by
  unfold doneQueue
  split <;> rfl

/-- A command that neither completes nor halts stops its queue where it stands (R203). -/
theorem doneQueue_stopped {q : CmdQueue} {d : Done} (h1 : d.status ≠ .ok) (h2 : d.status ≠ .halted) :
    doneQueue q d = { q with state := .stopped, status := d.status.code, wait := .none, next := q.pos } := by
  unfold doneQueue
  split
  · contradiction
  · contradiction
  · rfl

theorem recordLine_of_poisoned_nil {s : State} (hp : s.poisoned = []) (q : CmdQueue) (st : Status) :
    s.recordLine q st = none := by
  unfold recordLine
  split
  · cases s.ring? q.cq with
    | none => rfl
    | some r => exact ringLine_of_poisoned_nil hp r
  · rfl

/-- The state in which a command's record is written. -/
def recorded (s : State) (q : CmdQueue) (d : Done) : State :=
  match s.ring? q.cq with
  | some r => if writesRecord q.cur.toNat d.status then
      s.ringPut r (s.completionRecord q q.cur.toNat q.pos d.status d.countA d.countB) else s
  | none => s

/-- The record of a command lies in its completion queue (R204). -/
theorem confined_recorded {s : State} {q : CmdQueue} {d : Done} (hs : ∀ x ∈ s.rings, 0 < x.slots) :
    Confined (s.ringBytes [q.cq]) s (s.recorded q d) := by
  unfold recorded
  split
  next r hr =>
    have hmem : r ∈ s.rings := List.mem_of_find?_eq_some hr
    have hid : r.id = q.cq := by simpa using List.find?_some hr
    split
    · refine (confined_ringPut (hs r hmem) ?_).mono fun a ha => ⟨r, hmem, by simp [hid], ha⟩
      rw [completionRecord_length]
      exact recBytes_pos _
    · exact .refl
  next => exact .refl

theorem recorded_queues (s : State) (q : CmdQueue) (d : Done) : (s.recorded q d).queues = s.queues := by
  unfold recorded
  split
  · split
    · exact ringPut_queues ..
    · rfl
  · rfl

/-- The end of a command whose record meets no poisoned line: record, queue and counters, then its event. -/
theorem finish_eq {s : State} {q : CmdQueue} {d : Done} (hl : s.recordLine q d.status = none) :
    s.finish q d =
      let s2 := ((s.recorded q d).setQueue (doneQueue q d)).countHeat q.team d.status
      match doneEvent q.cur.toNat d.status with
      | some e => s2.postRecord [q.eq] false
          (s2.eventRecord e (some q.job) (some q.id) (bitsAt q.cur.toNat 16 16) (s2.stepOf (some q.job))
            (s.completionRecord q q.cur.toNat q.pos d.status d.countA d.countB))
      | none => s2 := by
  unfold finish
  rw [hl]
  rfl

/-- The end of a command writes into the two rings of its queue and nowhere else. -/
theorem confined_finish {s : State} {q : CmdQueue} {d : Done} (hp : s.poisoned = []) (hs : ∀ x ∈ s.rings, 0 < x.slots) :
    Confined (s.ringBytes [q.cq, q.eq]) s (s.finish q d) := by
  have hrec : Confined (s.ringBytes [q.cq]) s (s.recorded q d) := confined_recorded hs
  have h1 : Confined (s.ringBytes [q.cq, q.eq]) s (s.recorded q d) :=
    hrec.mono fun a ⟨x, hx, hid, ha⟩ => ⟨x, hx, List.mem_cons.2 (.inl (by simpa using hid)), ha⟩
  rw [finish_eq (recordLine_of_poisoned_nil hp q d.status)]
  extract_lets s2
  have h2 : Confined (s.ringBytes [q.cq, q.eq]) s s2 := h1.trans (.of_eq rfl rfl rfl)
  have hr2 : s2.rings = s.rings := h2.rings
  split
  · refine h2.trans ((confined_postRecord (h2.poisoned hp) (hr2 ▸ hs) (eventRecord_length ..)).mono ?_)
    rintro a ⟨x, hx, hid, ha⟩
    exact ⟨x, hr2 ▸ hx, List.mem_cons_of_mem _ hid, ha⟩
  · exact h2

/-- The end of a command sets its own queue and no other. -/
theorem finish_queues {s : State} {q : CmdQueue} {d : Done} (hl : s.recordLine q d.status = none) :
    (s.finish q d).queues = (s.setQueue (doneQueue q d)).queues := by
  have h2 : (((s.recorded q d).setQueue (doneQueue q d)).countHeat q.team d.status).queues =
      (s.setQueue (doneQueue q d)).queues := by
    simp only [countHeat, setQueue_queues, recorded_queues]
  rw [finish_eq hl]
  extract_lets s2
  split
  · exact (posts_postRecord ..).queues.trans h2
  · exact h2

theorem queue?_congr {s t : State} (h : t.queues = s.queues) (k : Nat) : t.queue? k = s.queue? k := by
  rw [queue?, h, queue?]

theorem queue?_id {s : State} {k : Nat} {q : CmdQueue} (h : s.queue? k = some q) : q.id = k := by
  simpa using List.find?_some h

/-- Its queue after the end of a command. -/
theorem queue?_finish {s : State} {q q0 : CmdQueue} {d : Done} (hl : s.recordLine q d.status = none)
    (hq : s.queue? q.id = some q0) : (s.finish q d).queue? q.id = some (doneQueue q d) := by
  rw [queue?_congr (finish_queues hl), ← doneQueue_id q d]
  exact queue?_setQueue _ _ q0 (by rwa [doneQueue_id])

theorem queue?_finish_ne {s : State} {q : CmdQueue} {d : Done} (hl : s.recordLine q d.status = none) {k : Nat}
    (hk : k ≠ q.id) : (s.finish q d).queue? k = s.queue? k := by
  rw [queue?_congr (finish_queues hl)]
  exact queue?_setQueue_ne _ _ (by rwa [doneQueue_id])

theorem complete_of_free {s : State} {q : CmdQueue} {d : Done} (h : s.cqBlocked q d.status = false) :
    s.complete q d = s.finish q d := by
  rw [complete, h]
  rfl

/-! ### The command in hand -/

/-- Fetching a slot and its descriptors makes cached blocks clean and changes nothing else (R290). -/
theorem fetched_eq (s : State) (q : CmdQueue) (j : Job) (w : Slot) : ∃ cs, s.fetched q j w = { s with caches := cs } :=
  List.foldlRecOn (motive := fun t : State => ∃ cs, t = { s with caches := cs }) _ _ ⟨s.caches, rfl⟩
    fun _ ⟨_, ht⟩ a _ => ⟨_, (congrArg (recallBlocks · a 64) ht).trans rfl⟩

theorem confined_deciding {A : Nat → Prop} (s : State) (c : Cmd) : Confined A s (s.deciding c) := by
  obtain ⟨cs, h⟩ := s.fetched_eq c.q c.job c.slot
  rw [deciding, h]
  exact .of_eq rfl rfl rfl

theorem queues_deciding (s : State) (c : Cmd) : (s.deciding c).queues = (s.setQueue c.q).queues := by
  obtain ⟨cs, h⟩ := s.fetched_eq c.q c.job c.slot
  rw [deciding, h]
  rfl

theorem cqBlocked_deciding (s : State) (c : Cmd) (q : CmdQueue) (st : Status) :
    (s.deciding c).cqBlocked q st = s.cqBlocked q st := by
  obtain ⟨cs, h⟩ := s.fetched_eq c.q c.job c.slot
  rw [deciding, h]
  rfl

/-- What holds of a command in hand: it is the next command of a queue that may run, and neither a break nor poison stops it. -/
theorem inHand_eq_some {s : State} {qid : Nat} {c : Cmd} (h : s.inHand qid = some c) :
    ∃ q, s.queue? qid = some q ∧ s.job? q.job = some c.job ∧ c.slot = s.slotAt q q.next ∧
      (queueReady q && s.runsJob c.job) = true ∧ breakHit q c.slot.tag = none ∧ s.cmdPoison q c.job c.slot = none ∧
      c.q = { q with cur := BitVec.ofNat 32 c.slot } ∧ c.pos = q.next := by
  unfold inHand at h
  split at h
  · cases h
  next q hq =>
    split at h
    · cases h
    next j hj =>
      extract_lets w at h
      split at h
      next hc =>
        obtain ⟨hc, hp⟩ := Bool.and_eq_true_iff.1 hc
        obtain ⟨hr, hb⟩ := Bool.and_eq_true_iff.1 hc
        cases h
        exact ⟨q, hq, hj, rfl, hr, Option.isNone_iff_eq_none.1 hb, Option.isNone_iff_eq_none.1 hp, rfl, rfl⟩
      next => cases h

theorem inHand_id {s : State} {qid : Nat} {c : Cmd} (h : s.inHand qid = some c) : c.q.id = qid := by
  obtain ⟨q, hq, -, -, -, -, -, hcq, -⟩ := inHand_eq_some h
  exact (congrArg CmdQueue.id hcq).trans (show q.id = qid from queue?_id hq)

theorem queue?_deciding {s : State} {qid : Nat} {c : Cmd} (h : s.inHand qid = some c) :
    (s.deciding c).queue? c.q.id = some c.q := by
  obtain ⟨q, hq, -⟩ := inHand_eq_some h
  rw [queue?_congr (queues_deciding s c)]
  exact queue?_setQueue s c.q q (by rwa [inHand_id h])

theorem queue?_deciding_ne {s : State} {c : Cmd} {k : Nat} (hk : k ≠ c.q.id) : (s.deciding c).queue? k = s.queue? k := by
  rw [queue?_congr (queues_deciding s c)]
  exact queue?_setQueue_ne s _ hk

theorem opcodeDefined_of_isOp {o : Op} {w : Slot} (h : isOp o w = true) : opcodeDefined w.opcode = true := by
  rw [show w.opcode = o.code from eq_of_beq h]
  cases o <;> decide

/-- The row of a command in hand decodes it and runs its body (R201 to R203). -/
theorem runMacro_inHand {s : State} {qid : Nat} {c : Cmd} {o : Op} {chk : Cmd → State → List Fail} {body : Cmd → State → Res}
    (h : s.inHand qid = some c) (ho : isOp o c.slot = true) :
    s.runMacro (isOp o) chk body qid = (s.deciding c).runCmd c c.q chk body := by
  have hdef := opcodeDefined_of_isOp ho
  obtain ⟨q, hq, hj, hw, hr, hb, hp, hcq, hpos⟩ := inHand_eq_some h
  obtain ⟨cq, j, w, pos⟩ := c
  dsimp only at hj hw hr hb hp hcq hpos
  subst hcq hpos
  have hready : (!queueReady q || !s.runsJob j) = false := by rw [← Bool.not_and, hr]; rfl
  simp only [runMacro, hq, hj, ← hw, hready, hb, hp, hdef, ho, Bool.not_true, Bool.false_eq_true, if_false]
  rfl

/-- A command that a decode check fails ends with the status reported (R201). -/
theorem runCmd_of_fails {s : State} {c : Cmd} {q : CmdQueue} {chk : Cmd → State → List Fail} {body : Cmd → State → Res}
    {f : Fail} (h : worst (chk c s) = some f) : s.runCmd c q chk body = s.complete q (failDone q f.1 f.2) := by
  rw [runCmd, h]

theorem runCmd_of_passes {s : State} {c : Cmd} {q : CmdQueue} {chk : Cmd → State → List Fail} {body : Cmd → State → Res}
    (h : worst (chk c s) = none) : s.runCmd c q chk body = settleRes c q (body c s) s := by
  rw [runCmd, h]

end State

/-! ### The failing check that is reported (R201) -/

theorem Status.code_injective : Function.Injective Status.code := by
  intro a b h
  revert h
  cases a <;> cases b <;> decide

theorem worst_eq_none {fs : List Fail} : worst fs = none ↔ fs = [] := by
  cases fs with
  | nil => simp [worst]
  | cons f fs =>
    simp only [worst, reduceCtorEq, iff_false]
    split
    · simp
    · split
      · simp
      · split <;> simp

/-- Of two failures with one status, the one of the first handle slot. -/
theorem worst_tie_mem (st : Status) (a b : Option Nat) :
    (st, match a, b with
      | some a, some b => some (min a b)
      | some a, none => some a
      | none, b => b) ∈ [((st, a) : Fail), (st, b)] := by
  cases a with
  | none => simp
  | some a =>
    cases b with
    | none => simp
    | some b => rcases min_choice a b with h | h <;> simp [h]

theorem worst_lowest {fs : List Fail} {f : Fail} (h : worst fs = some f) : f ∈ fs ∧ ∀ g ∈ fs, f.1.code ≤ g.1.code := by
  induction fs generalizing f with
  | nil => cases h
  | cons x xs ih =>
    simp only [worst] at h
    split at h
    next hn =>
      cases h
      rw [worst_eq_none.1 hn]
      simp
    next g hg =>
      obtain ⟨hmem, hle⟩ := ih hg
      split at h
      next hlt =>
        cases h
        exact ⟨List.mem_cons_self, List.forall_mem_cons.2 ⟨le_rfl, fun y hy => hlt.le.trans (hle y hy)⟩⟩
      next hge =>
        split at h
        next hlt =>
          cases h
          exact ⟨List.mem_cons_of_mem _ hmem, List.forall_mem_cons.2 ⟨hlt.le, hle⟩⟩
        next hge1 =>
          cases h
          have heq : x.1 = g.1 := Status.code_injective (by omega)
          refine ⟨?_, List.forall_mem_cons.2 ⟨le_rfl, fun y hy => heq ▸ hle y hy⟩⟩
          rcases List.mem_pair.1 (worst_tie_mem x.1 x.2 g.2) with ht | ht
          · exact List.mem_cons.2 (.inl ht)
          · exact List.mem_cons_of_mem _ (by rw [heq] at ht ⊢; exact ht ▸ hmem)

end Sys2Proof.Machine
end

section
/-! The record of a completion, and a command that a decode check fails (R201, R204). -/

namespace Sys2Proof.Machine.State

/-- A record put into a ring reads back from its slot, and the ring's index has moved on (R205). -/
theorem ringPut_reads {s : State} (hm : s.memOk) (r : RingQ) {rec : List Byte} :
    let t := s.ringPut r rec
    t.bytes (r.base + 0x40 + ((s.read64 r.base).toNat % r.slots) * r.kind.recBytes) rec.length = rec ∧
      t.read64 r.base = s.read64 r.base + 1 := by
  extract_lets t
  generalize ha : r.base + 0x40 + ((s.read64 r.base).toNat % r.slots) * r.kind.recBytes = a
  have h1 : (s.store a rec).memOk := memOk_store s hm a rec
  have ht : t = (s.store a rec).store64 r.base (s.read64 r.base + 1) := by rw [← ha]; rfl
  rw [ht]
  refine ⟨?_, read64_store64 _ h1 _ _⟩
  refine (Memory.getBytes_setBytes_out h1 r.base _ (Or.inr ?_)).trans (bytes_store s hm a rec)
  rw [toLe_length]
  omega

/-- A completion that writes a record and posts no event leaves memory as the record does (R203, R204). -/
theorem mem_finish_of_record {s : State} {q : CmdQueue} {d : Done} {r : RingQ} (hr : s.ring? q.cq = some r)
    (hl : s.ringLine r = none) (hw : writesRecord q.cur.toNat d.status = true) (he : doneEvent q.cur.toNat d.status = none) :
    (s.finish q d).mem = (s.ringPut r (s.completionRecord q q.cur.toNat q.pos d.status d.countA d.countB)).mem := by
  have hline : s.recordLine q d.status = none := by rw [recordLine, hw, hr]; exact hl
  have hrec : s.recorded q d = s.ringPut r (s.completionRecord q q.cur.toNat q.pos d.status d.countA d.countB) := by
    simp only [recorded, hr, hw, if_true]
  rw [finish_eq hline, he, ← hrec]
  rfl

/-- A command in hand that a decode check fails, where its completion queue has room: it ends with the lowest failing status. -/
theorem runMacro_of_fails {s : State} {qid : Nat} {c : Cmd} {o : Op} {chk : Cmd → State → List Fail} {body : Cmd → State → Res}
    {f : Fail} (h : s.inHand qid = some c) (ho : isOp o c.slot = true) (hf : worst (chk c (s.deciding c)) = some f)
    (hb : s.cqBlocked c.q f.1 = false) :
    s.runMacro (isOp o) chk body qid = (s.deciding c).finish c.q (failDone c.q f.1 f.2) := by
  rw [runMacro_inHand h ho, runCmd_of_fails hf]
  exact complete_of_free ((cqBlocked_deciding ..).trans hb)

/-- What a failed decode leaves: the queue stopped at its command, and memory outside its rings as it was (R201). -/
theorem exec_of_failed_decode {i : Nat → Instr} {o : Op} {chk : Cmd → State → List Fail} {body : Cmd → State → Res}
    (hexec : ∀ q s, exec (i q) s = .next (s.runMacro (isOp o) chk body q)) :
    ∀ (s : State) (qid : Nat) (c : Cmd) (f : Fail), s.inHand qid = some c → isOp o c.slot = true →
      worst (chk c (s.deciding c)) = some f → f.1 ≠ .ok → f.1 ≠ .halted → s.cqBlocked c.q f.1 = false →
      s.poisoned = [] → (∀ x ∈ s.rings, 0 < x.slots) → s.memOk →
      ∃ t q', exec (i qid) s = .next t ∧ t.queue? qid = some q' ∧ q'.state = .stopped ∧ q'.status = f.1.code ∧
        q'.pos = c.q.pos ∧ q'.sregs = c.q.sregs ∧
        ∀ a, (∀ x ∈ s.rings, x.id = c.q.cq ∨ x.id = c.q.eq → ¬ inRing x a) → t.byte a = s.byte a := by
  intro s qid c f h ho hf h1 h2 hb hp hs hm
  have hd : Confined (s.ringBytes [c.q.cq, c.q.eq]) s (s.deciding c) := confined_deciding s c
  have hp1 := hd.poisoned hp
  have hfin : Confined (s.ringBytes [c.q.cq, c.q.eq]) s ((s.deciding c).finish c.q (failDone c.q f.1 f.2)) := by
    refine hd.trans ((confined_finish hp1 (hd.rings ▸ hs)).mono ?_)
    rintro a ⟨x, hx, hid, ha⟩
    exact ⟨x, hd.rings ▸ hx, hid, ha⟩
  have hq := queue?_finish (d := failDone c.q f.1 f.2) (recordLine_of_poisoned_nil hp1 ..) (queue?_deciding h)
  rw [doneQueue_stopped h1 h2, inHand_id h] at hq
  refine ⟨_, _, (hexec qid s).trans (congrArg _ (runMacro_of_fails h ho hf hb)), hq, rfl, rfl, rfl, rfl,
    fun a ha => hfin.byte hm a ?_⟩
  rintro ⟨x, hx, hid, hin⟩
  exact ha x hx (by simpa using hid) hin

end Sys2Proof.Machine.State
end

section
open Sys2Proof.Machine Sys2Proof.Machine.State
namespace Sys2Proof.Proofs

/-- Settles O4: of the end of the command only the ring's update touches memory. -/
theorem completionRecordIsWritten : Obligations.CompletionRecordIsWritten := by
  intro s q d r hm hr hk hs hl hw he
  have hmem := State.mem_finish_of_record hr hl hw he
  obtain ⟨hb, hi⟩ := State.ringPut_reads hm r (rec := s.completionRecord q q.cur.toNat q.pos d.status d.countA d.countB)
  rw [State.completionRecord_length, hk, State.bytes, ← hmem] at hb
  rw [State.read64, State.read, ← hmem] at hi
  exact ⟨hb, hi⟩

/-- Settles O3: a failed decode goes straight to the end of the command; `worst` picks a failure of the lowest code. -/
theorem failedDecodeWritesNothing : Obligations.FailedDecodeWritesNothing := by
  refine ⟨?_, fun fs => ⟨worst_eq_none.symm, fun f => worst_lowest⟩⟩
  simp only [List.forall_mem_cons]
  exact ⟨exec_of_failed_decode fun _ _ => rfl, exec_of_failed_decode fun _ _ => rfl, exec_of_failed_decode fun _ _ => rfl,
    exec_of_failed_decode fun _ _ => rfl, exec_of_failed_decode fun _ _ => rfl, exec_of_failed_decode fun _ _ => rfl,
    exec_of_failed_decode fun _ _ => rfl, exec_of_failed_decode fun _ _ => rfl, exec_of_failed_decode fun _ _ => rfl,
    exec_of_failed_decode fun _ _ => rfl, List.forall_mem_nil _⟩

end Sys2Proof.Proofs
end

section
/-! A mailbox command that is accepted, and what its response leaves unchanged (R467, R470). -/

namespace Sys2Proof.Machine.State

/-- `t` differs from `s` in none of these fields: what leaves on ports and sessions touches none of them. -/
structure Sends (s t : State) : Prop where
  mem : t.mem = s.mem
  queues : t.queues = s.queues
  rings : t.rings = s.rings
  cores : t.cores = s.cores
  mailboxes : t.mailboxes = s.mailboxes

namespace Sends

variable {s0 s : State}

theorem refl : s.Sends s := ⟨rfl, rfl, rfl, rfl, rfl⟩

theorem foldl {α : Type} {f : State → α → State} {l : List α} (h : s0.Sends s) (hf : ∀ s x, s0.Sends s → s0.Sends (f s x)) :
    s0.Sends (l.foldl f s) :=
  List.foldlRecOn (motive := Sends s0) _ _ h fun t ht x _ => hf t x ht

/-! ### Packets of a port -/

theorem modPort (h : s0.Sends s) {p f} : s0.Sends (s.modPort p f) := ⟨h.mem, h.queues, h.rings, h.cores, h.mailboxes⟩

theorem sendFlit (h : s0.Sends s) {p f resent} : s0.Sends (s.sendFlit p f resent) :=
  ⟨h.mem, h.queues, h.rings, h.cores, h.mailboxes⟩

theorem sendData (h : s0.Sends s) {p pstart stream} : s0.Sends (s.sendData p pstart stream) :=
  ⟨h.mem, h.queues, h.rings, h.cores, h.mailboxes⟩

theorem sendStream (h : s0.Sends s) {p n pstart bs} : s0.Sends (State.sendStream p n pstart bs s) := by
  induction n generalizing pstart bs s with
  | zero => exact h
  | succ n ih => exact ih h.sendData

theorem out (h : s0.Sends s) {l} : s0.Sends { s with out := l } := ⟨h.mem, h.queues, h.rings, h.cores, h.mailboxes⟩

theorem startPacket (h : s0.Sends s) {p k} : s0.Sends (s.startPacket p k) := h.modPort.out.sendStream

theorem pump (h : s0.Sends s) {p n} : s0.Sends (State.pump p n s) := by
  induction n generalizing s with
  | zero =>
    rw [State.pump]
    exact h.modPort
  | succ n ih =>
    unfold State.pump
    split
    · exact ih h.modPort.startPacket
    · exact h.modPort

theorem send (h : s0.Sends s) {p k} : s0.Sends (s.send p k) := h.modPort.pump

/-! ### Packets of a session -/

theorem sendDatagram (h : s0.Sends s) {port dst x u relayed} : s0.Sends (s.sendDatagram port dst x u relayed) := by
  unfold State.sendDatagram
  split
  · exact foldl ⟨h.mem, h.queues, h.rings, h.cores, h.mailboxes⟩ fun _ _ h => h.send
  · exact ⟨h.mem, h.queues, h.rings, h.cores, h.mailboxes⟩

theorem modSession (h : s0.Sends s) {id f} : s0.Sends (s.modSession id f) := ⟨h.mem, h.queues, h.rings, h.cores, h.mailboxes⟩

theorem emit (h : s0.Sends s) {id type more payload} : s0.Sends (s.emit id type more payload) := by
  unfold State.emit
  split
  · exact h
  · exact h.sendDatagram.modSession

theorem sendOne (h : s0.Sends s) {id type more payload} : s0.Sends (s.sendOne id type more payload) := by
  unfold State.sendOne
  split
  · exact h
  · split
    · exact h.emit
    · exact h.modSession

theorem sendSuilo (h : s0.Sends s) {id type payload} : s0.Sends (s.sendSuilo id type payload) :=
  h.foldl fun _ _ h => h.sendOne

end Sends

/-! ### The response -/

/-- Returning a response clears done at most. -/
theorem sends_returnResponse (s : State) (m : Nat) (msg : List Byte) :
    s.Sends (s.returnResponse m msg) ∨ (s.modMbox m fun x => { x with done := false }).Sends (s.returnResponse m msg) := by
  unfold returnResponse
  split
  · extract_lets s1
    split
    · exact .inr (Sends.refl.sendSuilo)
    · exact .inr .refl
  · split
    · exact .inr Sends.refl.send
    · exact .inl .refl

/-- A mailbox with its response written: the state from which the response is returned. -/
def answering (s : State) (m : Nat) (st : Status) (msg : List Byte) : State :=
  (s.store (mboxArea m) msg).modMbox m fun x =>
    { x with busy := false, done := true, result := st.code, seq := s.reqSeq m }

/-- What the response of a command that succeeds leaves: the mailbox answered, the message area written, and queues, rings and
cores as they were (R467). -/
structure Answers (m : Nat) (result : List Byte) (s t : State) : Prop where
  busy : (t.mbox m).busy = false
  code : (t.mbox m).result = Status.ok.code
  queues : t.queues = s.queues
  rings : t.rings = s.rings
  cores : t.cores = s.cores
  byte : s.memOk → ∀ a, a < mboxArea m ∨ mboxArea m + 16 + result.length ≤ a → t.byte a = s.byte a

theorem mbox_congr {s t : State} (h : t.mailboxes = s.mailboxes) (m : Nat) : t.mbox m = s.mbox m := by rw [mbox, h, mbox]

theorem finishOk_eq (s : State) (m : Nat) (result : List Byte) :
    ∃ msg, msg.length = 16 + result.length ∧ s.finishOk m result = (s.answering m .ok msg).returnResponse m msg :=
  ⟨_, by simp only [List.length_append, toLe_length], rfl⟩

theorem answers_finishOk {s : State} {m : Nat} (hm : m < s.mailboxes.length) (result : List Byte) :
    Answers m result s (s.finishOk m result) := by
  obtain ⟨msg, hmsg, he⟩ := finishOk_eq s m result
  rw [he]
  have hbox : (s.answering m .ok msg).mbox m = _ := mbox_modMbox (s := s.store (mboxArea m) msg) _ hm
  have hlen : m < (s.answering m .ok msg).mailboxes.length := by
    rwa [show (s.answering m .ok msg).mailboxes = s.mailboxes.modify m _ from rfl, List.length_modify]
  have hbyte (hok : s.memOk) (a : Nat) (ha : a < mboxArea m ∨ mboxArea m + 16 + result.length ≤ a) :
      (s.answering m .ok msg).byte a = s.byte a := byte_store_out s hok _ _ (by omega)
  rcases sends_returnResponse (s.answering m .ok msg) m msg with h | h
  · have hb := (mbox_congr h.mailboxes m).trans hbox
    exact ⟨congrArg Mailbox.busy hb, congrArg Mailbox.result hb, h.queues, h.rings, h.cores,
      fun hok a ha => (congrArg (Memory.get · a) h.mem).trans (hbyte hok a ha)⟩
  · have hb := (mbox_congr h.mailboxes m).trans (mbox_modMbox _ hlen)
    exact ⟨(congrArg Mailbox.busy hb).trans (congrArg Mailbox.busy hbox),
      (congrArg Mailbox.result hb).trans (congrArg Mailbox.result hbox), h.queues, h.rings, h.cores,
      fun hok a ha => (congrArg (Memory.get · a) h.mem).trans (hbyte hok a ha)⟩

theorem Answers.answered {m : Fin 64} {result : List Byte} {s t : State} (h : Answers m.val result s t) : t.answered m .ok :=
  ⟨h.busy, h.code⟩

/-! ### An accepted request -/

/-- Only a mailbox that is there holds a request. -/
theorem lt_of_busy {s : State} {m : Nat} (h : (s.mbox m).busy = true) : m < s.mailboxes.length := by
  by_contra hlt
  rw [mbox, List.getD_eq_getElem?_getD, List.getElem?_eq_none (Nat.le_of_not_lt hlt)] at h
  cases h

theorem accepts_lt {s : State} {g : Gate} {m : Fin 64} {len : Nat} {fails : List Deny} (h : s.accepts g m len fails) :
    m.val < s.mailboxes.length := by
  obtain ⟨hbusy, -⟩ := h
  exact lt_of_busy hbusy

/-- A request that no check refuses runs its row's effect (R467, R470). -/
theorem command_of_accepts {s : State} {g : Gate} {m : Fin 64} {len : Nat} {fails : List Deny} (h : s.accepts g m len fails)
    (hc : commandCodes.contains g.code = true) (h1 : g.code ≠ 0x101) (h2 : g.code ≠ 0x102) (go : State) :
    s.command g m.val len fails go = go := by
  obtain ⟨hbusy, hstop, hcode, href⟩ := h
  have hopen : ¬ (g.code = 0x101 ∨ g.code = 0x102) := not_or.2 ⟨h1, h2⟩
  simp only [command, hbusy, hstop, hcode, href, hc, hopen, Bool.not_true, Bool.or_self, Bool.false_eq_true, if_false, ne_eq,
    not_true_eq_false]

theorem worstDeny_eq_none {ds : List Deny} : worstDeny ds = none ↔ ds = [] := by
  cases ds with
  | nil => simp [worstDeny]
  | cons d ds =>
    simp only [worstDeny, reduceCtorEq, iff_false]
    split
    · simp
    · split <;> simp

theorem deny_eq_nil {bad : Bool} {st : Status} {detail : Nat} : deny bad st detail = [] ↔ bad = false := by
  cases bad <;> simp [deny]

/-- None of the checks of an accepted request fails. -/
theorem fails_of_accepts {s : State} {g : Gate} {m : Fin 64} {len : Nat} {fails : List Deny} (h : s.accepts g m len fails) :
    fails = [] := by
  obtain ⟨-, -, -, href⟩ := h
  unfold refuses at href
  split at href
  · cases href
  · split at href
    · cases href
    · exact (List.append_eq_nil_iff.1 (worstDeny_eq_none.1 href)).2

end Sys2Proof.Machine.State
end

section
/-! The commands on command queues (R261, R475 to R478). -/

namespace Sys2Proof.Machine.State

variable {s : State} {m : Nat} {q : CmdQueue}

/-- A queue put into the list under an ID that none had is found there. -/
theorem find?_insertBy {x : CmdQueue} {l : List CmdQueue} (h : l.find? (fun c => c.id == x.id) = none) :
    (insertBy CmdQueue.id x l).find? (fun c => c.id == x.id) = some x := by
  induction l with
  | nil => simp [insertBy]
  | cons y ys ih =>
    rw [List.find?_cons] at h
    split at h
    · cases h
    next hy =>
      unfold insertBy
      split
      · simp
      · rw [List.find?_cons, hy]
        exact ih h

theorem queueBind_noShare (hq : s.queue? (s.arg m 0 2) = some q) (h0 : s.arg m 0x18 8 = 0) :
    let q1 := { q with
      team := BitVec.ofNat 128 (s.arg m 8 16), share := 0, hdr := s.arg m 0x20 8, shareOff := s.arg m 0x28 8 }
    s.queueBind m =
      (s.setQueue { q1 with state := if q.state = .unbound then readyState q1 else q.state }).finishOk m [] := by
  simp only [queueBind, argQueue, hq, h0, bne_self_eq_false, Bool.and_false, Bool.false_eq_true, if_false]

theorem queueResume_eq (hq : s.queue? (s.arg m 0 2) = some q) :
    s.queueResume m =
      let q1 := { q with status := 0 }
      let q2 :=
        if q.state = .stopped ∧ s.arg m 2 1 = 1 then
          { q1 with
            pos := q.pos + 1, next := q.pos + 1, count := q.count + 1
            lastOpcode := bitsAt q.cur.toNat 0 12, lastTag := bitsAt q.cur.toNat 16 16 }
        else { q1 with next := q.pos, resumedAt := if q.status = Status.break_.code then some q.pos else q.resumedAt }
      (s.setQueue { q2 with state := readyState q2 }).finishOk m [] := by
  simp only [queueResume, argQueue, hq]

/-- REFETCH, and a halted queue that no break stopped (R477). -/
theorem queueResume_refetch (hq : s.queue? (s.arg m 0 2) = some q) (h : (q.state = .stopped ∧ s.arg m 2 1 = 0) ∨ q.state = .halted)
    (hb : q.status ≠ Status.break_.code) :
    let q1 := { q with status := 0, next := q.pos }
    s.queueResume m = (s.setQueue { q1 with state := readyState q1 }).finishOk m [] := by
  have hskip : ¬ (q.state = .stopped ∧ s.arg m 2 1 = 1) := by
    rintro ⟨hs, h1⟩
    rcases h with ⟨-, h0⟩ | hh
    · omega
    · rw [hs] at hh
      cases hh
  simp only [queueResume_eq hq, if_neg hskip, if_neg hb]

/-- SKIP passes over the command (R477). -/
theorem queueResume_skip (hq : s.queue? (s.arg m 0 2) = some q) (hs : q.state = .stopped) (h1 : s.arg m 2 1 = 1) :
    let q1 := { q with
      status := 0, pos := q.pos + 1, next := q.pos + 1, count := q.count + 1
      lastOpcode := q.cur.toNat % 4096, lastTag := q.cur.toNat / 65536 }
    s.queueResume m = (s.setQueue { q1 with state := readyState q1 }).finishOk m [] := by
  have hop : bitsAt q.cur.toNat 0 12 = q.cur.toNat % 4096 := rfl
  have htag : bitsAt q.cur.toNat 16 16 = q.cur.toNat / 65536 := by
    have := q.cur.isLt
    simp only [bitsAt, Nat.shiftRight_eq_div_pow]
    omega
  simp only [queueResume_eq hq, if_pos (And.intro hs h1), hop, htag]

/-- A queue that a break halted goes on at its command, and no break fires there again (R262). -/
theorem queueResume_break (hq : s.queue? (s.arg m 0 2) = some q) (hs : q.state = .halted) (hb : q.status = Status.break_.code) :
    let q1 := { q with status := 0, next := q.pos, resumedAt := some q.pos }
    s.queueResume m = (s.setQueue { q1 with state := readyState q1 }).finishOk m [] := by
  have hskip : ¬ (q.state = .stopped ∧ s.arg m 2 1 = 1) := by simp [hs]
  simp only [queueResume_eq hq, if_neg hskip, if_pos hb]

/-- The scalar registers after a write of queue.sreg (R478). -/
def sregsWritten (s : State) (m : Nat) (q : CmdQueue) : List W64 :=
  q.sregs.zipIdx.map fun x =>
    if (List.range' (s.arg m 3 1) (s.arg m 4 1)).contains x.2 then BitVec.ofNat 64 (s.arg m (8 + 8 * (x.2 - s.arg m 3 1)) 8)
    else x.1

theorem queueSreg_write (hq : s.queue? (s.arg m 0 2) = some q) (h0 : s.arg m 2 1 = 0) :
    s.queueSreg m = (s.setQueue { q with sregs := s.sregsWritten m q }).finishOk m [] := by
  have h1 : ¬ s.arg m 2 1 = 1 := by omega
  simp only [queueSreg, argQueue, hq, if_neg h1]
  rfl

theorem getElem?_sregsWritten {i : Nat} (hi : i < q.sregs.length) :
    (s.sregsWritten m q)[i]? =
      if s.arg m 3 1 ≤ i ∧ i < s.arg m 3 1 + s.arg m 4 1 then
        some (BitVec.ofNat 64 (s.arg m (8 + 8 * (i - s.arg m 3 1)) 8))
      else q.sregs[i]? := by
  simp only [sregsWritten, List.getElem?_map, List.getElem?_zipIdx, List.getElem?_eq_getElem hi, Option.map_some,
    List.contains_iff_mem, List.mem_range'_1, Nat.zero_add]
  split <;> rfl

theorem queueSreg_read (hq : s.queue? (s.arg m 0 2) = some q) (h1 : s.arg m 2 1 = 1)
    (hlen : s.arg m 3 1 + s.arg m 4 1 ≤ 128) :
    s.queueSreg m = s.finishOk m (((q.sregs ++ List.replicate 128 0).drop (s.arg m 3 1) |>.take (s.arg m 4 1)).flatMap
      fun v : W64 => toLe 8 v.toNat) := by
  have hregs : (List.range' (s.arg m 3 1) (s.arg m 4 1)).map (fun r => q.sregs.getD r 0) =
      ((q.sregs ++ List.replicate 128 0).drop (s.arg m 3 1)).take (s.arg m 4 1) := by
    refine List.ext_getElem (by simp; omega) fun i h1 h2 => ?_
    have hi : i < s.arg m 4 1 := by simpa using h1
    simp only [List.getElem_map, List.getElem_range', List.getElem_take, List.getElem_drop, Nat.one_mul,
      List.getD_eq_getElem?_getD, List.getElem_append, List.getElem_replicate]
    split
    next hlt => rw [List.getElem?_eq_getElem hlt, Option.getD_some]
    next hge => rw [List.getElem?_eq_none (Nat.le_of_not_lt hge), Option.getD_none]
  simp only [queueSreg, argQueue, hq, if_pos h1, ← hregs, List.flatMap_map]

theorem debugBreak_eq (hq : s.queue? (s.arg m 0 2) = some q) (hk : s.arg m 3 1 ≤ 2) :
    let kind := s.arg m 3 1
    let b : BreakSlot :=
      if kind = 0 then { kind := .off, value := 0, mask := 0 }
      else
        { kind := if kind = 1 then .count else .tag, value := BitVec.ofNat 64 (s.arg m 8 8)
          mask := BitVec.ofNat 16 (s.arg m 4 2) }
    s.debugBreak m = (s.setQueue { q with breaks := q.breaks.set (s.arg m 2 1) b }).finishOk m [] := by
  simp only [debugBreak, argQueue, hq]
  generalize s.arg m 3 1 = k at hk
  interval_cases k <;> rfl

/-- What a queue.create that is accepted has checked: the job is there, and no queue has the ID (R475). -/
theorem queueCreate_checked (h : s.queueCreateFails m = []) :
    (∃ j, s.job? (s.arg m 2 2) = some j) ∧ s.queue? (s.arg m 0 2) = none := by
  unfold queueCreateFails at h
  obtain ⟨h, hid⟩ := List.append_eq_nil_iff.1 h
  obtain ⟨-, hjob⟩ := List.append_eq_nil_iff.1 h
  obtain ⟨hq, -⟩ := Bool.or_eq_false_iff.1 (deny_eq_nil.1 hid)
  exact ⟨Option.isSome_iff_exists.1 (by simpa using deny_eq_nil.1 hjob), by simpa using hq⟩

theorem queueCreate_command (h0 : s.arg m 4 1 = 0) :
    s.queueCreate m = State.finishOk { s with queues := insertBy CmdQueue.id (s.newQueue m) s.queues } m [] := by
  simp only [queueCreate, if_pos h0]

/-- A new queue stands where the record of a restored job says, else at position 0 (R186, R474). -/
theorem newQueue_committed {j : Job} (hj : s.job? (s.arg m 2 2) = some j) :
    (s.newQueue m).committed =
      ((j.restoreQueues.find? fun e => e.1 == (s.newQueue m).id).map Prod.snd).getD
        { position := 0, sregs := List.replicate 64 0, laps := [], generate := false, hurdles := [] } := by
  simp only [newQueue, hj, Option.bind_some]
  cases j.restoreQueues.find? fun e => e.1 == s.arg m 0 2 <;> rfl

theorem ring?_congr {s t : State} (h : t.rings = s.rings) (k : Nat) : t.ring? k = s.ring? k := by
  rw [ring?, h, ring?]

/-- What a queue.sreg that is accepted has checked: the registers named are there (R478). -/
theorem queueSreg_checked (h : s.queueSregFails m = []) : s.arg m 3 1 + s.arg m 4 1 ≤ 64 := by
  unfold queueSregFails at h
  obtain ⟨h, -⟩ := List.append_eq_nil_iff.1 h
  obtain ⟨h, -⟩ := List.append_eq_nil_iff.1 h
  obtain ⟨-, h⟩ := List.append_eq_nil_iff.1 h
  simpa using (Bool.or_eq_false_iff.1 (deny_eq_nil.1 h)).2

/-- What a debug.break that is accepted has checked: the kind is one of R261. -/
theorem debugBreak_checked (h : s.debugBreakFails m = []) : s.arg m 3 1 ≤ 2 := by
  unfold debugBreakFails at h
  obtain ⟨h, -⟩ := List.append_eq_nil_iff.1 h
  obtain ⟨-, h⟩ := List.append_eq_nil_iff.1 h
  simpa using deny_eq_nil.1 h

/-- A destroyed queue is gone; queues and rings of other IDs are found as before. -/
theorem find?_filter_ne {α : Type} (key : α → Nat) (l : List α) (id k : Nat) :
    (l.filter fun x => key x != id).find? (fun x => key x == k) = if k = id then none else l.find? fun x => key x == k := by
  rw [List.find?_filter]
  split
  next h =>
    subst h
    simp
  next h =>
    congr 1
    funext x
    by_cases hx : key x = k <;> simp [hx, h]

end Sys2Proof.Machine.State
end

section
open Sys2Proof.Machine Sys2Proof.Machine.State
namespace Sys2Proof.Proofs

/-- Settles O15: an accepted request runs its row's effect, which sets the queue and responds. -/
theorem queueCommands : Obligations.QueueCommands := by
  refine ⟨fun s m hok h h0 => ?_, fun s m q hq => ⟨fun h hs => ?_, fun h => ⟨fun hst hb => ?_, fun hst h1 => ?_,
    fun hst hb => ?_⟩, fun h h0 hlen => ?_, fun h h1 => ?_, fun h => ?_, fun h => ?_⟩⟩
  · obtain ⟨⟨j, hj⟩, hnew⟩ := queueCreate_checked (fails_of_accepts h)
    have hres := answers_finishOk (s := { s with queues := insertBy CmdQueue.id (s.newQueue m.val) s.queues })
      (accepts_lt h) []
    have hcom := newQueue_committed hj
    refine ⟨_, s.newQueue m.val, j,
      congrArg Host.Outcome.next ((command_of_accepts h rfl nofun nofun _).trans (queueCreate_command h0)), hres.answered,
      (queue?_congr hres.queues _).trans (find?_insertBy (x := s.newQueue m.val) hnew), hj, rfl, rfl, rfl, rfl, rfl, rfl, fun hn => ?_, fun e he => ?_,
      hres.rings, hres.cores, hres.byte hok⟩
    · rw [hn] at hcom
      exact ⟨congrArg Committed.position hcom, congrArg Committed.position hcom, congrArg Committed.sregs hcom,
        congrArg Committed.laps hcom, congrArg Committed.generate hcom⟩
    · rw [he] at hcom
      exact ⟨congrArg Committed.position hcom, congrArg Committed.sregs hcom, congrArg Committed.laps hcom,
        congrArg Committed.generate hcom⟩
  · exact congrArg Host.Outcome.next ((command_of_accepts h rfl nofun nofun _).trans (queueBind_noShare hq hs))
  · exact congrArg Host.Outcome.next ((command_of_accepts h rfl nofun nofun _).trans (queueResume_refetch hq hst hb))
  · exact congrArg Host.Outcome.next ((command_of_accepts h rfl nofun nofun _).trans (queueResume_skip hq hst h1))
  · exact congrArg Host.Outcome.next ((command_of_accepts h rfl nofun nofun _).trans (queueResume_break hq hst hb))
  · have hres := answers_finishOk (s := s.setQueue { q with sregs := s.sregsWritten m.val q }) (accepts_lt h) []
    have hid : s.queue? q.id = some q := by rwa [queue?_id hq]
    exact ⟨_, { q with sregs := s.sregsWritten m.val q },
      congrArg Host.Outcome.next ((command_of_accepts h rfl nofun nofun _).trans (queueSreg_write hq h0)), hres.answered,
      (queue?_congr hres.queues _).trans (queue?_setQueue s _ q hid), rfl,
      fun i hi => getElem?_sregsWritten (hlen.symm ▸ hi)⟩
  · have hn := queueSreg_checked (fails_of_accepts h)
    exact congrArg Host.Outcome.next ((command_of_accepts h rfl nofun nofun _).trans (queueSreg_read hq h1 (by omega)))
  · have hres := answers_finishOk (s := { s with
      queues := s.queues.filter fun x => x.id != s.arg m.val 0 2, rings := s.rings.filter fun x => x.id != s.arg m.val 0 2 })
      (accepts_lt h) []
    refine ⟨_, congrArg Host.Outcome.next (command_of_accepts h rfl nofun nofun _), hres.answered, ?_, fun k hk => ⟨?_, ?_⟩⟩
    · rw [queue?_id hq]
      exact (queue?_congr hres.queues _).trans ((find?_filter_ne CmdQueue.id ..).trans (if_pos rfl))
    · exact (queue?_congr hres.queues _).trans ((find?_filter_ne CmdQueue.id ..).trans (if_neg hk))
    · exact (ring?_congr hres.rings _).trans ((find?_filter_ne RingQ.id ..).trans (if_neg hk))
  · have hk := debugBreak_checked (fails_of_accepts h)
    exact congrArg Host.Outcome.next ((command_of_accepts h rfl nofun nofun _).trans (debugBreak_eq hq hk))

end Sys2Proof.Proofs
end

section
/-! The elements of a tensor and the bytes that they lie in (R208 to R210, R212). -/

namespace Sys2Proof.Machine

/-! ### Coordinates -/

theorem forall₂_unrank {es : List Nat} {k : Nat} (h : k < es.prod) : List.Forall₂ (· < ·) (unrank es k) es := by
  induction es generalizing k with
  | nil => exact .nil
  | cons e es ih =>
    rw [List.prod_cons] at h
    have he : 0 < e := Nat.pos_of_ne_zero fun h0 => by simp [h0] at h
    exact .cons (Nat.mod_lt _ he) (ih (Nat.div_lt_of_lt_mul h))

theorem exists_unrank {ix es : List Nat} (h : List.Forall₂ (· < ·) ix es) : ∃ k < es.prod, unrank es k = ix := by
  induction h with
  | nil => exact ⟨0, by simp, rfl⟩
  | @cons i e ix es hi _ ih =>
    obtain ⟨k, hk, rfl⟩ := ih
    refine ⟨i + e * k, ?_, ?_⟩
    · rw [List.prod_cons]
      calc i + e * k < e * (k + 1) := by rw [Nat.mul_add, Nat.mul_one]; omega
        _ ≤ e * es.prod := Nat.mul_le_mul_left _ hk
    · rw [unrank, Nat.add_mul_mod_self_left, Nat.mod_eq_of_lt hi, Nat.add_mul_div_left _ _ (by omega), Nat.div_eq_of_lt hi,
        Nat.zero_add]

/-- The coordinate tuples are those below the extents. -/
theorem mem_allIdx {es ix : List Nat} : ix ∈ allIdx es ↔ List.Forall₂ (· < ·) ix es := by
  rw [allIdx, ← List.prod_eq_foldl]
  constructor
  · intro h
    obtain ⟨k, hk, rfl⟩ := List.mem_map.1 h
    exact forall₂_unrank (List.mem_range.1 hk)
  · intro h
    obtain ⟨k, hk, rfl⟩ := exists_unrank h
    exact List.mem_map_of_mem (List.mem_range.2 hk)

/-- A coordinate is exchanged for another below its extent; what the tuple was held to there does not matter. -/
theorem set_mem_allIdx {es ix : List Nat} {i v n : Nat} (h : ix ∈ allIdx (es.set i n)) (hv : v < es.getD i 0) :
    ix.set i v ∈ allIdx es := by
  rw [mem_allIdx] at h ⊢
  induction es generalizing ix i with
  | nil => simpa using h
  | cons e es ih =>
    cases i with
    | zero =>
      rw [List.set_cons_zero] at h
      cases h with
      | cons _ ht => exact .cons hv ht
    | succ i =>
      rw [List.set_cons_succ] at h
      cases h with
      | cons hi ht => exact .cons hi (ih ht hv)

theorem lt_length_of_getD {l : List Nat} {i v : Nat} (h : v < l.getD i 0) : i < l.length := by
  by_contra hlt
  rw [List.getD_eq_getElem?_getD, List.getElem?_eq_none (Nat.le_of_not_lt hlt)] at h
  exact absurd h (Nat.not_lt_zero v)

theorem set_mem_allIdx_self {es ix : List Nat} {i v : Nat} (h : ix ∈ allIdx es) (hv : v < es.getD i 0) :
    ix.set i v ∈ allIdx es := by
  refine set_mem_allIdx (n := es.getD i 0) ?_ hv
  rwa [List.getD_eq_getElem?_getD, List.getElem?_eq_getElem (lt_length_of_getD hv), Option.getD_some, List.set_getElem_self]

theorem getD_lt_of_mem_allIdx {es ix : List Nat} (h : ix ∈ allIdx es) {i : Nat} (hi : i < es.length) :
    ix.getD i 0 < es.getD i 0 := by
  obtain ⟨hl, hlt⟩ := List.forall₂_iff_get.1 (mem_allIdx.1 h)
  have := hlt i (hl ▸ hi) hi
  simpa [List.getD_eq_getElem?_getD, hi, hl ▸ hi] using this

/-! ### Bits and bytes -/

/-- The bytes in which some spans have a bit. -/
def Touched (sps : List Span) (a : Nat) : Prop := ∃ sp ∈ sps, Span.meets a 1 sp = true

theorem meets_one_iff {a x n : Nat} : Span.meets a 1 (x, n) = true ↔ 0 < n ∧ x < 8 * (a + 1) ∧ 8 * a < x + n := by
  simp [Span.meets, and_assoc]

/-- The bytes that hold `n` bits from bit `x`. -/
theorem meets_of_bitRange {a x n : Nat} (hn : 0 < n) (h1 : x / 8 ≤ a) (h2 : a < x / 8 + ceilDiv (x % 8 + n) 8) :
    Span.meets a 1 (x, n) = true := by
  unfold ceilDiv at h2
  exact meets_one_iff.2 ⟨hn, by omega, by omega⟩

theorem meets_byteSpan {a b n : Nat} (h1 : b ≤ a) (h2 : a < b + n) : Span.meets a 1 (byteSpan b n) = true :=
  meets_one_iff.2 ⟨by omega, by omega, by omega⟩

theorem Fmt.bits_pos (f : Fmt) : 0 < f.bits := by cases f <;> decide

/-! ### Descriptors -/

namespace Desc

variable {d : Desc} {warm : Bool} {ix : List Nat}

theorem length_exts (d : Desc) : d.exts.length = 6 := by simp [exts]

theorem getD_exts {i : Nat} (hi : i < 6) : d.exts.getD i 0 = d.ext i := by
  simp [exts, List.getD_eq_getElem?_getD, hi]

theorem contig_lt_six (d : Desc) : d.contig < 6 := by
  unfold contig
  extract_lets
  split <;> split <;> decide

theorem bits_mem_allSpans (h : ix ∈ allIdx d.exts) : (d.bitAddr (d.fmtIn warm) ix, (d.fmtIn warm).bits) ∈ d.allSpans warm :=
  List.mem_flatMap.2 ⟨ix, h, List.mem_cons_self⟩

theorem header_mem_allSpans (hb : d.blockEn = true) (h : ix ∈ allIdx d.exts) : (8 * d.headerAddr ix, 16) ∈ d.allSpans warm :=
  List.mem_flatMap.2 ⟨ix, h, List.mem_cons_of_mem _ (by simp [hb])⟩

/-- A block-scaled tensor holds whole blocks along its contiguous dimension (R76). -/
def WholeBlocks (d : Desc) : Prop := d.blockEn = true → d.blockSize ∣ d.ext d.contig

/-- What a descriptor that passes the checks of R211 says of its rank, its format and its blocks. -/
theorem of_ok (h : d.ok = true) :
    ∃ f, Fmt.ofCode d.fmtCode = some f ∧ 1 ≤ d.rank ∧ d.rank ≤ 6 ∧ f ∈ kindFormats d.kind ∧
      blockOk d.kind f d.blockEn d.variant = true ∧ d.WholeBlocks := by
  unfold ok at h
  split at h
  · cases h
  next f hf =>
    simp only [Bool.and_eq_true, decide_eq_true_eq, List.contains_iff_mem] at h
    obtain ⟨⟨⟨⟨⟨⟨⟨⟨⟨h1, h6⟩, hkind⟩, hblock⟩, -⟩, hdiv⟩, -⟩, -⟩, -⟩, -⟩ := h
    refine ⟨f, hf, h1, h6, hkind, hblock, fun hb => Nat.dvd_of_mod_eq_zero ?_⟩
    rw [hb, Bool.not_true, Bool.false_or] at hdiv
    exact eq_of_beq hdiv

theorem wholeBlocks_of_ok (h : d.ok = true) : d.WholeBlocks := by
  obtain ⟨-, -, -, -, -, -, hw⟩ := of_ok h
  exact hw

/-- The elements of a block are elements of its tensor. -/
theorem blockIdx_mem (hw : d.WholeBlocks) (hb : d.blockEn = true) (h : ix ∈ allIdx d.exts) {jx : List Nat}
    (hj : jx ∈ d.blockIdx ix) : jx ∈ allIdx d.exts := by
  obtain ⟨k, hk, rfl⟩ := List.mem_map.1 hj
  have hk : k < d.blockSize := List.mem_range.1 hk
  have hc := d.contig_lt_six
  refine set_mem_allIdx_self h ?_
  have hlt : ix.getD d.contig 0 < d.ext d.contig := by
    rw [← getD_exts hc]
    exact getD_lt_of_mem_allIdx h (by rwa [length_exts])
  rw [getD_exts hc]
  obtain ⟨n, hn⟩ := hw hb
  rw [hn] at hlt ⊢
  have hq : ix.getD d.contig 0 / d.blockSize + 1 ≤ n := Nat.div_lt_of_lt_mul hlt
  calc _ < (ix.getD d.contig 0 / d.blockSize + 1) * d.blockSize := by rw [Nat.add_mul, Nat.one_mul]; omega
    _ ≤ n * d.blockSize := Nat.mul_le_mul_right _ hq
    _ = _ := Nat.mul_comm ..

end Desc

end Sys2Proof.Machine
end

section
/-! What the work of a tensor command writes. `s0.Within A t` says that memory changed at most in the bytes of `A` and queues did
not change; each step of the work has one lemma, named after it, that carries `s0.Within A w.s` over to the work that it leaves. -/

namespace Sys2Proof.Machine

namespace State

/-- Memory changed at most in the bytes of `A`, and the queues are as before. -/
structure Within (A : Nat → Prop) (s t : State) : Prop extends Confined A s t where
  queues : t.queues = s.queues

/-- Work that lists results: the state stays within `A`, and every result satisfies `P`. -/
structure Yields (A : Nat → Prop) (s0 : State) {β : Type} (P : β → Prop) (x : Work × List β) : Prop where
  within : s0.Within A x.1.s
  all : ∀ i ∈ x.2, P i

variable {A : Nat → Prop} {s0 s : State} {w : Work}

namespace Within

theorem refl : s.Within A s := ⟨.refl, rfl⟩

theorem trans {t u : State} (h : s.Within A t) (h1 : t.Within A u) : s.Within A u :=
  ⟨h.toConfined.trans h1.toConfined, h1.queues.trans h.queues⟩

theorem of_eq {t : State} (hm : t.mem = s.mem) (hp : t.poisoned = s.poisoned) (hr : t.rings = s.rings)
    (hq : t.queues = s.queues) : s.Within A t := ⟨.of_eq hm hp hr, hq⟩

/-! ### Through branches and folds -/

theorem foldlWork {α : Type} {f : Work → α → Work} {l : List α} (h : s0.Within A w.s)
    (hf : ∀ w, ∀ x ∈ l, s0.Within A w.s → s0.Within A (f w x).s) : s0.Within A (l.foldl f w).s :=
  List.foldlRecOn (motive := fun w : Work => s0.Within A w.s) _ _ h fun w hw x hx => hf w x hx hw

theorem foldlFst {α β : Type} {f : Work × β → α → Work × β} {l : List α} {x : Work × β} (h : s0.Within A x.1.s)
    (hf : ∀ x a, s0.Within A x.1.s → s0.Within A (f x a).1.s) : s0.Within A (l.foldl f x).1.s :=
  List.foldlRecOn (motive := fun x : Work × β => s0.Within A x.1.s) _ _ h fun x hx a _ => hf x a hx

theorem iteWork {c : Prop} [Decidable c] {w1 w2 : Work} (h1 : s0.Within A w1.s) (h2 : s0.Within A w2.s) :
    s0.Within A (if c then w1 else w2).s := by
  split
  · exact h1
  · exact h2

theorem iteFst {c : Prop} [Decidable c] {β : Type} {x y : Work × β} (h1 : s0.Within A x.1.s) (h2 : s0.Within A y.1.s) :
    s0.Within A (if c then x else y).1.s := by
  split
  · exact h1
  · exact h2

/-! ### Writes -/

theorem workPutSpan (h : s0.Within A w.s) {a bs x} (hA : ∀ b, a ≤ b → b < a + bs.length → A b) :
    s0.Within A (w.putSpan a bs x).s :=
  h.trans ⟨.store hA, rfl⟩

theorem workPut (h : s0.Within A w.s) {a bs} (hA : ∀ b, a ≤ b → b < a + bs.length → A b) : s0.Within A (w.put a bs).s :=
  h.workPutSpan hA

theorem workPutBits (h : s0.Within A w.s) {a n v} (hn : 0 < n) (hA : ∀ b, Span.meets b 1 (a, n) = true → A b) :
    s0.Within A (w.putBits a n v).s := by
  have hbytes (k : Nat) (b : Nat) (h1 : a / 8 ≤ b) (h2 : b < a / 8 + (toLe (ceilDiv (a % 8 + n) 8) k).length) : A b :=
    hA b (meets_of_bitRange hn h1 (by rwa [toLe_length] at h2))
  unfold Work.putBits
  split
  · exact h.workPutSpan (hbytes _)
  · exact h.workPutSpan (hbytes _)

theorem workCount (h : s0.Within A w.s) {src dst fs ft o e} : s0.Within A (w.count src dst fs ft o e).s := h

theorem workArith (h : s0.Within A w.s) {f n} : s0.Within A (w.arith f n).s := h

theorem workNoteRead (h : s0.Within A w.s) {xs} : s0.Within A (w.noteRead xs).s := h

theorem workPutElem (h : s0.Within A w.s) {env d rnd i}
    (hA : ∀ b, Span.meets b 1 (Desc.bitAddr d (d.fmtIn env.warm) i.idx, (d.fmtIn env.warm).bits) = true → A b) :
    s0.Within A (Work.putElem env d rnd w i).s :=
  (h.workPutBits (Fmt.bits_pos _) hA).workCount

variable {d : Desc} {warm : Bool}

/-- The bits of an element of a tensor lie in the tensor's bytes. -/
theorem elem_bytes (hA : ∀ b, Touched (d.allSpans warm) b → A b) {ix : List Nat} (hi : ix ∈ allIdx d.exts) (b : Nat)
    (hb : Span.meets b 1 (d.bitAddr (d.fmtIn warm) ix, (d.fmtIn warm).bits) = true) : A b :=
  hA b ⟨_, Desc.bits_mem_allSpans hi, hb⟩

/-- So does the header of its block. -/
theorem header_bytes (hA : ∀ b, Touched (d.allSpans warm) b → A b) (hb : d.blockEn = true) {ix : List Nat}
    (hi : ix ∈ allIdx d.exts) (b : Nat) (h1 : d.headerAddr ix ≤ b) (h2 : b < d.headerAddr ix + 2) : A b :=
  hA b ⟨_, Desc.header_mem_allSpans hb hi, meets_byteSpan h1 h2⟩

theorem workPutBlock (h : s0.Within A w.s) {env d rnd} {items : List Item} (hA : ∀ b, Touched (Desc.allSpans d env.warm) b → A b)
    (hw : d.WholeBlocks) (hb : d.blockEn = true) (hi : ∀ i ∈ items, i.idx ∈ allIdx d.exts) :
    s0.Within A (Work.putBlock env d rnd w items).s := by
  unfold Work.putBlock
  split
  · exact h
  next i0 rest =>
    extract_lets f all ins
    have h0 : i0.idx ∈ allIdx d.exts := hi i0 List.mem_cons_self
    have hall : ∀ i ∈ all, i.idx ∈ allIdx d.exts := by
      intro i hmem
      obtain ⟨ix, hix, rfl⟩ := List.mem_map.1 hmem
      have hix' := Desc.blockIdx_mem hw hb h0 hix
      split
      next j hj =>
        have hj1 : j.idx = ix := by simpa using List.find?_some hj
        exact hj1 ▸ hix'
      next => exact hix'
    refine foldlWork (h.workNoteRead.workPut fun b h1 h2 => ?_) fun w x hx h => ?_
    · rw [toLe_length] at h2
      exact header_bytes hA hb h0 b h1 h2
    · exact (h.workPutBits (Fmt.bits_pos _) (elem_bytes hA (hall _ (List.of_mem_zip hx).1))).workCount

/-- Writing items of a tensor stays within the tensor (R212). -/
theorem workPutItems (h : s0.Within A w.s) {env d rnd} {items : List Item} (hA : ∀ b, Touched (Desc.allSpans d env.warm) b → A b)
    (hw : d.WholeBlocks) (hi : ∀ i ∈ items, i.idx ∈ allIdx d.exts) : s0.Within A (Work.putItems env d rnd w items).s := by
  unfold Work.putItems
  split
  next hb =>
    exact h.foldlWork fun w k _ h => h.workPutBlock hA hw hb fun i hmem => hi i (List.mem_of_mem_filter hmem)
  next => exact h.foldlWork fun w i hmem h => h.workPutElem (elem_bytes hA (hi i hmem))

theorem workMoveElem (h : s0.Within A w.s) {env a b ia ib} (hA : ∀ x, Touched (Desc.allSpans b env.warm) x → A x)
    (hi : ib ∈ allIdx b.exts) : s0.Within A (Work.moveElem env a b w ia ib).s := by
  have h1 := h.workPutBits (v := w.s.rawAt a (b.fmtIn env.warm) ia) (Fmt.bits_pos _) (elem_bytes hA hi)
  unfold Work.moveElem
  split
  next hb => exact h1.workPut fun x h1 h2 => header_bytes hA hb.1 hi x h1 (by simpa [State.bytes] using h2)
  next => exact h1

/-! ### Loads and rounding -/

theorem workLoad (h : s0.Within A w.s) {env d unit field sat idx} : s0.Within A (Work.load env d unit field sat w idx).1.s :=
  h.workCount

theorem workLoadAs (h : s0.Within A w.s) {env d idx} : s0.Within A (Work.loadAs env d w idx).1.s := h.workCount

theorem workRound (h : s0.Within A w.s) {f mode sat x} : s0.Within A (w.round f mode sat x).1.s := iteWork h.workArith h

end Within

namespace Yields

variable {β : Type} {P : β → Prop} {x : Work × List β}

theorem foldl {α : Type} {f : Work × List β → α → Work × List β} {l : List α} (h : s0.Yields A P x)
    (hf : ∀ x, ∀ a ∈ l, s0.Yields A P x → s0.Yields A P (f x a)) : s0.Yields A P (l.foldl f x) :=
  List.foldlRecOn (motive := s0.Yields A P) _ _ h fun x hx a ha => hf x a ha hx

theorem nil (h : s0.Within A w.s) : s0.Yields A P (w, []) := ⟨h, nofun⟩

theorem append (h : s0.Yields A P x) {w1 : Work} (hw : s0.Within A w1.s) {l : List β} (hl : ∀ i ∈ l, P i) :
    s0.Yields A P (w1, x.2 ++ l) :=
  ⟨hw, fun i hi => (List.mem_append.1 hi).elim (h.all i) (hl i)⟩

theorem push (h : s0.Yields A P x) {w1 : Work} (hw : s0.Within A w1.s) {i : β} (hi : P i) : s0.Yields A P (w1, x.2 ++ [i]) :=
  h.append hw (by simpa using hi)

end Yields

end State

end Sys2Proof.Machine
end

section
/-! The steps of the tensor commands that form what a command writes: they write nothing themselves, and each result belongs to an
element of the destination. -/

namespace Sys2Proof.Machine.State

variable {A : Nat → Prop} {s0 s : State} {w : Work}

namespace Within

/-! ### Accumulators and the finish stage -/

theorem accPut (h : s0.Within A w.s) {k old x} : s0.Within A (Machine.accPut k w old x).1.s := by
  unfold Machine.accPut
  split
  · exact h.workRound
  · exact h
  · exact h

theorem accumulate (h : s0.Within A w.s) {k acc x} : s0.Within A (Machine.accumulate k w acc x).1.s := h.accPut

theorem element (h : s0.Within A w.s) {kind g K a b acc} : s0.Within A (Machine.element kind g K a b w acc).1.s :=
  h.foldlFst fun _ _ h => h.accumulate

theorem levelZero (h : s0.Within A w.s) {kind op acc t} : s0.Within A (Machine.levelZero kind op w acc t).1.s := by
  unfold Machine.levelZero
  split
  · exact h.accPut
  · exact h.accPut
  · exact h

theorem stageRound (h : s0.Within A w.s) {W last rnd r x} : s0.Within A (Machine.stageRound W last rnd r w x).1.s :=
  iteWork h.workArith h

/-- A stage of the finish that is on rounds, and one that is off leaves the work as it is. -/
theorem stageIf (h : s0.Within A w.s) {c : Prop} [Decidable c] {W last rnd r x y} :
    s0.Within A (if c then Machine.stageRound W last rnd r w x else (w, y)).1.s := h.stageRound.iteFst h

theorem finishRun (h : s0.Within A w.s) {f exact rnd r x s1 b} : s0.Within A (Finish.run f exact rnd r w x s1 b).1.s := by
  unfold Finish.run
  split
  · exact h
  · exact h.stageIf.stageIf.stageIf

/-! ### Operands -/

theorem countLoads (h : s0.Within A w.s) {env d} : s0.Within A (Gemm.countLoads env d w).s :=
  h.foldlWork fun _ _ _ h => h.workLoadAs

theorem deliver (h : s0.Within A w.s) {env d unit} : s0.Within A (Gemm.deliver env d unit w).s :=
  h.foldlWork fun _ _ _ h => h.workLoad

theorem deliverAll (h : s0.Within A w.s) {env} {unit : Desc → Fmt} {ds : List Desc} :
    s0.Within A (ds.foldl (fun w x => Gemm.deliver env x (unit x) w) w).s := h.foldlWork fun _ _ _ h => h.deliver

theorem outElem (h : s0.Within A w.s) {env c k p fin rnd exact s1 idx} :
    s0.Within A (Gemm.outElem env c k p fin rnd exact s1 w idx).1.s := h.element.levelZero.finishRun

theorem scatterOp (h : s0.Within A w.s) {op W acc x} : s0.Within A (Machine.scatterOp op W w acc x).1.s := by
  unfold Machine.scatterOp
  split
  · exact h
  · exact h.workRound
  · exact h
  · exact h

theorem scatterElem (h : s0.Within A w.s) {env op a b field sat srcs ia ib} :
    s0.Within A (Machine.scatterElem env op a b field sat srcs w ia ib).1.s :=
  h.workLoad.foldlFst fun _ _ h => h.workLoad.scatterOp

/-! ### Lines and rows -/

theorem reduceLoad (h : s0.Within A w.s) {env a idx} : s0.Within A (Machine.reduceLoad env a w idx).1.s := h.workLoad.iteFst h.workLoadAs

theorem loadLine (h : s0.Within A w.s) {env a cells} : s0.Within A (Machine.loadLine env a w cells).1.s :=
  h.foldlFst fun _ _ h => h.reduceLoad

theorem sumLine (h : s0.Within A w.s) {k xs} : s0.Within A (Machine.sumLine k w xs).1.s := h.foldlFst fun _ _ h => h.accumulate

theorem amaxInt (h : s0.Within A w.s) {v} : s0.Within A (Machine.amaxInt w v).1.s :=
  h.iteFst (h.trans (.of_eq rfl rfl rfl rfl))

theorem reduceLine (h : s0.Within A w.s) {k block op xs} : s0.Within A (Machine.reduceLine k block op w xs).1.s := by
  unfold Machine.reduceLine
  split
  · exact h.sumLine
  · exact h.sumLine
  · refine iteFst (amaxInt (iteFst (foldlFst h fun w x h => ?_) h)) (iteFst (foldlFst h fun w x h => ?_) h)
    · exact workRound h (f := .fp32) (mode := .rne) (sat := false) (x := x)
    · exact workRound h (f := .fp32) (mode := .rne) (sat := false) (x := x)

theorem r32 (h : s0.Within A w.s) {x} : s0.Within A (Rows.r32 w x).1.s := h.workRound

theorem loadRow (h : s0.Within A w.s) {env x row} : s0.Within A (Rows.loadRow env x w row).1.s :=
  h.foldlFst fun _ _ h => h.workLoad

theorem loadVec (h : s0.Within A w.s) {env v dflt len} : s0.Within A (Rows.loadVec env v dflt len w).1.s := by
  unfold Rows.loadVec
  split
  · exact h.foldlFst fun _ _ h => h.workLoad
  · exact h

theorem normStats (h : s0.Within A w.s) {rms eps xs} : s0.Within A (Rows.normStats rms eps w xs).1.s := by
  unfold Rows.normStats
  refine r32 (r32 (iteFst ?_ (r32 ?_)))
  · exact sumLine (h.iteFst h.sumLine)
  · exact sumLine (h.iteFst h.sumLine)

theorem roundedSum (h : s0.Within A w.s) {ts} : s0.Within A (Rows.roundedSum w ts).1.s := h.foldlFst fun _ _ h => h.r32

theorem roundAll (h : s0.Within A w.s) {ts} : s0.Within A (Rows.roundAll w ts).1.s := h.foldlFst fun _ _ h => h.r32

theorem smaxSum (h : s0.Within A w.s) {m zs} : s0.Within A (Rows.smaxSum w m zs).1.s := h.roundAll.roundedSum

/-! ### Lanes -/

theorem laneRound (h : s0.Within A w.s) {x mode sat v} : s0.Within A (Machine.laneRound x w mode sat v).1.s := h.workArith.iteWork h

theorem laneRnd (h : s0.Within A w.s) {x f mode sat r v} : s0.Within A (Machine.laneRnd x w f mode sat r v).1.s := by
  unfold Machine.laneRnd
  split
  · exact h
  · exact h.workArith.iteWork h

theorem laneValue (h : s0.Within A w.s) {x l i} : s0.Within A (Machine.laneValue x w l i).1.s := by
  unfold Machine.laneValue
  split
  case h_12 => split; exacts [h.laneRound, h]
  case h_13 => split; exacts [h.laneRnd, h]
  exacts [h.laneRound, h.laneRound, h.laneRound, h.laneRound, h.laneRound, h.laneRound, h.laneRound, h, h, h, h, h, h, h, h, h,
    h, h, h, h.laneRound, h, h, h, h]

theorem laneStep (h : s0.Within A w.s) {ld} (hld : ∀ w i, s0.Within A w.s → s0.Within A (ld w i).1.s) {x l i} :
    s0.Within A (Machine.laneStep ld x w l i).1.s := by
  refine iteFst h (iteFst ?_ (iteFst h (iteFst h (iteFst h ?_))))
  · exact hld w i h
  · exact h.laneValue

theorem runLane (h : s0.Within A w.s) {ld} (hld : ∀ w i, s0.Within A w.s → s0.Within A (ld w i).1.s) {x p} :
    s0.Within A (Machine.runLane ld x p w).1.s := h.foldlFst fun _ _ h => h.laneStep hld

/-- A load of a lane draws free values at most. -/
theorem laneLoad (h : s0.Within A w.s) {env unit modes ts s1 idx i} :
    s0.Within A (Machine.laneLoad env unit modes ts s1 idx w i).1.s := by
  unfold Machine.laneLoad
  split
  · exact h
  · split
    · exact h
    · exact h.trans (.of_eq rfl rfl rfl rfl)

end Within

end Sys2Proof.Machine.State
end

section
/-! How a tensor command ends. `s.Left A c keep t` says what the body of the command `c` leaves of the state: memory within `A`, the
other queues, and its own queue but for scalar registers, which stay too where `keep` holds. A body that `Completes` ends with OK in
such a state. -/

namespace Sys2Proof.Machine.State

/-- What the body of a command leaves. -/
structure Left (A : Nat → Prop) (c : Cmd) (keep : Bool) (s t : State) : Prop extends Confined A s t where
  others : ∀ k, k ≠ c.q.id → t.queue? k = s.queue? k
  own : ∀ q, s.queue? c.q.id = some q → ∃ v, t.queue? c.q.id = some { q with sregs := v } ∧ (keep = true → v = q.sregs)

variable {A : Nat → Prop} {c : Cmd} {keep : Bool} {s t u : State}

namespace Within

theorem workStart {ins : List Span} {j : Job} : s.Within A (Work.start (s.recallSpans ins) j).s := .of_eq rfl rfl rfl rfl

theorem workClose {s0 : State} {w : Work} (h : s0.Within A w.s) {job : Nat} : s0.Within A (w.close job) :=
  h.trans (.of_eq rfl rfl rfl rfl)

theorem unpoison {s0 : State} (h : s0.Within A s) {wrote : List Span} : s0.Within A (s.unpoison wrote) :=
  h.trans ⟨⟨id, fun _ _ _ => rfl, fun hp => by simp [State.unpoison, hp], rfl⟩, rfl⟩

end Within

theorem Within.left (h : s.Within A t) : s.Left A c keep t where
  toConfined := h.toConfined
  others k _ := queue?_congr h.queues k
  own q hq := ⟨q.sregs, (queue?_congr h.queues _).trans hq, fun _ => rfl⟩

namespace Left

theorem trans (h : s.Left A c keep t) (h1 : t.Left A c keep u) : s.Left A c keep u where
  toConfined := h.toConfined.trans h1.toConfined
  others k hk := (h1.others k hk).trans (h.others k hk)
  own q hq := by
    obtain ⟨v, hv, hkeep⟩ := h.own q hq
    obtain ⟨v1, hv1, hkeep1⟩ := h1.own _ hv
    exact ⟨v1, hv1, fun hk => (hkeep1 hk).trans (hkeep hk)⟩

end Left

/-- A write of a scalar register changes the registers of that queue and nothing else. -/
theorem queue?_setReg (s : State) (q i : Nat) (v : W64) (k : Nat) :
    (Reduce.setReg s q i v).queue? k = (s.queue? k).map fun x => if x.id == q then { x with sregs := x.sregs.set i v } else x := by
  rw [queue?, queue?, Reduce.setReg, List.find?_map]
  congr 2
  funext x
  simp only [Function.comp]
  split <;> rfl

theorem left_setReg {i : Nat} {v : W64} : s.Left A c false (Reduce.setReg s c.q.id i v) where
  toConfined := .of_eq rfl rfl rfl
  others k hk := by
    rw [queue?_setReg]
    cases h : s.queue? k with
    | none => rfl
    | some x =>
      have hx : x.id ≠ c.q.id := queue?_id h ▸ hk
      simp [hx]
  own q hq := ⟨q.sregs.set i v, by simp [queue?_setReg, hq, queue?_id hq], nofun⟩

/-! ### Bodies that complete -/

/-- A body ends with OK and leaves the state as `Left` says. -/
def Completes (A : Nat → Prop) (c : Cmd) (keep : Bool) (s : State) (r : Res) : Prop :=
  ∃ t a b, r = .ok t a b ∧ s.Left A c keep t

theorem completes_ok {a b : Nat} : Completes A c keep s (.ok s a b) := ⟨s, a, b, rfl, Within.refl.left⟩

/-- Where no line is poisoned, work ends with OK and leaves what its steps leave (R272). -/
theorem completes_work {units : Nat} {ins : List Span} {f : Work → Work × Nat} (hp : s.poisoned = [])
    (hf : ∀ w : Work, s.Within A w.s → s.Left A c keep (f w).1.s) : Completes A c keep s (c.work s units ins f) := by
  have h1 := hf (Work.start (s.recallSpans ins) c.job) .workStart
  have hmet : (f (Work.start (s.recallSpans ins) c.job)).1.s.poisoned = [] := h1.poisoned hp
  unfold Cmd.work
  generalize f (Work.start (s.recallSpans ins) c.job) = x at h1 hmet
  obtain ⟨w, n⟩ := x
  have hnone : s.poisonMet (ins ++ w.read) w.wrote = none := by rw [poisonMet, hp]; rfl
  simp only [hnone]
  have hend : w.s.Within A ((((w.close c.job.id).unpoison w.wrote).recallSpans w.read).ranUnits c units) :=
    (Within.workClose .refl).unpoison.trans (.of_eq rfl rfl rfl rfl)
  exact ⟨_, _, _, rfl, h1.trans hend.left⟩

/-- Work that keeps to `Within`. -/
theorem completes_within {units : Nat} {ins : List Span} {f : Work → Work × Nat} (hp : s.poisoned = [])
    (hf : ∀ w : Work, s.Within A w.s → s.Within A (f w).1.s) : Completes A c keep s (c.work s units ins f) :=
  completes_work hp fun w h => (hf w h).left

/-! ### The end of a row -/

theorem queue?_setQueue_of_id {q q0 : CmdQueue} {k : Nat} (hid : q0.id = k) (hq : s.queue? k = some q) :
    (s.setQueue q0).queue? k = some q0 := by
  subst hid
  exact queue?_setQueue s q0 q hq

/-- A command that completes has its queue stand past it, or hold the completion (R203, R205). -/
theorem completed_complete {q q0 : CmdQueue} {d : Done} {v : List W64} (hq0 : q0 = { c.q with sregs := v })
    (hst : d.status = .ok) (hnext : d.next = c.q.pos + 1) (hl : s.recordLine q0 .ok = none) (hq : s.queue? c.q.id = some q) :
    (s.complete q0 d).completed c ∧ (∀ k, k ≠ c.q.id → (s.complete q0 d).queue? k = s.queue? k) ∧
      ∀ q1, (s.complete q0 d).queue? c.q.id = some q1 → q1.sregs = v := by
  have hid : q0.id = c.q.id := by rw [hq0]
  have hpos : q0.pos = c.q.pos := by rw [hq0]
  have hv : q0.sregs = v := by rw [hq0]
  have hcount : q0.count = c.q.count := by rw [hq0]
  clear hq0
  unfold complete
  split
  · have hset := queue?_setQueue_of_id (q0 := { q0 with state := .waitCq, wait := .cq d, next := d.next }) hid hq
    refine ⟨⟨_, hset, .inr ⟨rfl, hpos, hnext, d, rfl, hst, hnext⟩⟩, fun k hk => queue?_setQueue_ne _ _ (by rwa [hid]),
      fun q1 h => ?_⟩
    cases hset.symm.trans h
    exact hv
  · have hfin := queue?_finish (d := d) (hst ▸ hl) (hid ▸ hq)
    rw [hid] at hfin
    refine ⟨⟨_, hfin, .inl ?_⟩, fun k hk => queue?_finish_ne (hst ▸ hl) (by rwa [hid]), fun q1 h => ?_⟩
    · unfold doneQueue
      rw [hst]
      exact ⟨hnext, hnext, congrArg (· + 1) hcount, rfl⟩
    · cases hfin.symm.trans h
      rw [doneQueue_sregs, hv]

theorem confined_complete {q : CmdQueue} {d : Done} (hp : s.poisoned = []) (hs : ∀ x ∈ s.rings, 0 < x.slots) :
    Confined (s.ringBytes [q.cq, q.eq]) s (s.complete q d) := by
  unfold complete
  split
  · exact .of_eq rfl rfl rfl
  · exact confined_finish hp hs

/-- The row of a command whose body completes once its checks pass: what holds of the state that it answers. -/
theorem exec_of_completes {i : Nat → Instr} {o : Op} {chk : Cmd → State → List Fail} {body : Cmd → State → Res}
    {dest : Cmd → State → List Span} {extra : Cmd → State → Prop} {keep : Bool}
    (hexec : ∀ q s, exec (i q) s = .next (s.runMacro (isOp o) chk body q))
    (hbody : ∀ c s, chk c s = [] → s.poisoned = [] → extra c s → Completes (Touched (dest c s)) c keep s (body c s)) :
    ∀ (s : State) (qid : Nat) (c : Cmd), s.inHand qid = some c → isOp o c.slot = true →
      let s1 := s.deciding c
      worst (chk c s1) = none → s.poisoned = [] → s.memOk → (∀ x ∈ s.rings, 0 < x.slots) → extra c s1 →
      ∃ t, exec (i qid) s = .next t ∧ t.completed c ∧ (∀ k, k ≠ qid → t.queue? k = s.queue? k) ∧
        (keep = true → ∀ q : CmdQueue, t.queue? qid = some q → q.sregs = c.q.sregs) ∧
        ∀ a, (∀ sp ∈ dest c s1, Span.meets a 1 sp = false) →
          (∀ x ∈ s.rings, x.id = c.q.cq ∨ x.id = c.q.eq → ¬ inRing x a) → t.byte a = s.byte a := by
  intro s qid c h ho s1 hw hp hm hs hx
  have hid := inHand_id h
  have hd : Confined (fun _ => False) s s1 := confined_deciding s c
  obtain ⟨t, a, b, hr, hl⟩ := hbody c s1 (worst_eq_none.1 hw) (hd.poisoned hp) hx
  obtain ⟨v, hv, hkeep⟩ := hl.own _ (queue?_deciding h)
  have hp1 : t.poisoned = [] := hl.poisoned (hd.poisoned hp)
  have hr1 : t.rings = s.rings := hl.rings.trans hd.rings
  obtain ⟨q1, hq1⟩ : ∃ q1 : CmdQueue, q1 = { c.q with sregs := v } := ⟨_, rfl⟩
  obtain ⟨d, hd1⟩ : ∃ d : Done, d = { status := .ok, next := c.q.pos + 1, countA := a, countB := b } := ⟨_, rfl⟩
  have hrun : s.runMacro (isOp o) chk body qid = t.complete q1 d := by
    rw [runMacro_inHand h ho, runCmd_of_passes hw, hr, settleRes, hv, hq1, hd1]
  obtain ⟨hdone, hothers, hregs⟩ := completed_complete (d := d) hq1 (by rw [hd1]) (by rw [hd1])
    (recordLine_of_poisoned_nil hp1 q1 .ok) hv
  refine ⟨_, (hexec qid s).trans (congrArg _ hrun), hdone, fun k hk => ?_, fun hk q hq => ?_, fun x hx1 hx2 => ?_⟩
  · have hk1 : k ≠ c.q.id := by rwa [hid]
    rw [hothers k hk1, hl.others k hk1, queue?_deciding_ne hk1]
  · rw [hregs q (hid ▸ hq), hkeep hk]
  · have hfin : Confined (t.ringBytes [q1.cq, q1.eq]) t (t.complete q1 d) := confined_complete hp1 (hr1 ▸ hs)
    rw [hfin.byte (hl.memOk (hd.memOk hm)) x ?_, hl.byte (hd.memOk hm) x ?_,
      hd.byte hm x id]
    · rintro ⟨sp, hsp, hmeet⟩
      exact absurd hmeet (by rw [hx1 sp hsp]; decide)
    · rintro ⟨r, hr, hid, hin⟩
      exact hx2 r (hr1 ▸ hr) (by simpa [hq1] using hid) hin

/-- A row whose command is in hand, passes its checks and ends with OK, where its completion queue has room. -/
theorem exec_of_ok {i : Nat → Instr} {o : Op} {chk : Cmd → State → List Fail} {body : Cmd → State → Res}
    (hexec : ∀ q s, exec (i q) s = .next (s.runMacro (isOp o) chk body q)) :
    ∀ (s : State) (qid : Nat) (c : Cmd), s.inHand qid = some c → isOp o c.slot = true → worst (chk c (s.deciding c)) = none →
      ∀ s1 a b, body c (s.deciding c) = .ok s1 a b → ∀ q1, s1.queue? qid = some q1 → s1.cqBlocked q1 .ok = false →
        exec (i qid) s = .next (s1.doneAt q1 (q1.pos + 1) a b) := by
  intro s qid c h ho hw s1 a b hr q1 hq hb
  rw [hexec, runMacro_inHand h ho, runCmd_of_passes hw, hr, settleRes, inHand_id h, hq]
  exact congrArg _ (complete_of_free hb)

end Sys2Proof.Machine.State
end

section
/-! The data commands complete: LOAD, STORE, COPY, CONVERT, FILL, GATHER, SCATTER and RNG (R215 to R219). First what decode checks
that pass say of the tensors of a command. -/

namespace Sys2Proof.Machine

theorem need_eq_nil {ok : Bool} {st : Status} {h : Option Nat} : need ok st h = [] ↔ ok = true := by cases ok <;> simp [need]

namespace Cmd

variable {c : Cmd} {s : State} {i k n : Nat} {d e : Desc}

/-- The bits of the tensors of some handle slots. -/
def slotSpans (c : Cmd) (s : State) (hs : List Nat) : List Span := c.spans (hs.filterMap (c.tensor? s))

theorem touched_slotSpans {hs : List Nat} (hi : i ∈ hs) (hd : c.tensor? s i = some d) (b : Nat)
    (hb : Touched (d.allSpans c.warm) b) : Touched (c.slotSpans s hs) b := by
  obtain ⟨sp, hsp, hm⟩ := hb
  exact ⟨sp, List.mem_flatMap.2 ⟨d, List.mem_filterMap.2 ⟨i, hi, hd⟩, hsp⟩, hm⟩

theorem ok_of_tensor? (h : c.tensor? s i = some d) : d.ok = true := by
  dsimp only [tensor?] at h
  split at h
  next hc =>
    cases h
    exact (Bool.and_eq_true_iff.1 hc).2
  next => cases h

theorem wholeBlocks_of_tensor? (h : c.tensor? s i = some d) : d.WholeBlocks := Desc.wholeBlocks_of_ok (ok_of_tensor? h)

/-- A slot whose checks pass and that names a handle has a tensor. -/
theorem exists_tensor? {o : Bool} (h : c.tensorFails s o i = []) (hn : c.slot.handle i ≠ noHandle) :
    ∃ d, c.tensor? s i = some d := by
  simp only [tensorFails, hn, if_false] at h
  by_cases h1 : State.handleOk c.job (c.slot.handle i) = true
  · by_cases h2 : (s.descAt c.job (c.slot.handle i)).ok = true
    · exact ⟨s.descAt c.job (c.slot.handle i), by simp only [tensor?, h1, h2, Bool.and_self, if_true]⟩
    · simp [h1, h2] at h
  · simp [h1] at h

/-- A slot that must name a tensor names one. -/
theorem exists_tensor?_of_needed (h : c.tensorFails s false i = []) : ∃ d, c.tensor? s i = some d := by
  refine exists_tensor? h fun hn => ?_
  rw [tensorFails, if_pos hn] at h
  exact absurd (need_eq_nil.1 h) (by decide)

theorem exists_tensor?_of_dest (h : c.destFails s false i = []) : ∃ d, c.tensor? s i = some d :=
  exists_tensor?_of_needed (List.append_eq_nil_iff.1 h).1

theorem of_when1 {f : Desc → Bool} (h : c.when1 s i f = []) (hd : c.tensor? s i = some d) : f d = true := by
  rw [when1, hd] at h
  exact need_eq_nil.1 h

theorem of_whenAt {f : Desc → Desc → Bool} (h : c.whenAt s n i k f = []) (hd : c.tensor? s i = some d)
    (he : c.tensor? s k = some e) : f d e = true := by
  rw [whenAt, hd, he] at h
  exact need_eq_nil.1 h

theorem of_when2 {f : Desc → Desc → Bool} (h : c.when2 s i k f = []) (hd : c.tensor? s i = some d)
    (he : c.tensor? s k = some e) : f d e = true := of_whenAt h hd he

end Cmd

/-! ### A tensor in a cluster store (R215) -/

namespace Desc

variable {d : Desc} {k : Nat}

/-- Only the base of the descriptor changes. -/
theorem inCluster_shift (hk : k < 800) {m : Nat} (hm : 52 ≤ m) : (d.inCluster k).w >>> m = d.w >>> m := by
  have hlow : clusterBase + k * 0x10_0000 + d.base % 0x10_0000 < 2 ^ 52 := by
    have := Nat.mod_lt d.base (show 0 < 0x10_0000 by decide)
    unfold clusterBase
    omega
  have hw : d.w - d.base = 2 ^ 52 * (d.w / 2 ^ 52) := by
    have := Nat.div_add_mod d.w (2 ^ 52)
    simp only [base, bitsAt, Nat.shiftRight_zero]
    omega
  obtain ⟨n, rfl⟩ := Nat.exists_eq_add_of_le hm
  simp only [inCluster, hw, Nat.shiftRight_add]
  congr 1
  rw [Nat.shiftRight_eq_div_pow, Nat.shiftRight_eq_div_pow, Nat.mul_add_div (by decide), Nat.div_eq_of_lt hlow, Nat.add_zero]

theorem bitsAt_inCluster (hk : k < 800) {m n : Nat} (hm : 52 ≤ m) : bitsAt (d.inCluster k).w m n = bitsAt d.w m n := by
  rw [bitsAt, inCluster_shift hk hm, bitsAt]

theorem bitAt_inCluster (hk : k < 800) {m : Nat} (hm : 52 ≤ m) : bitAt (d.inCluster k).w m = bitAt d.w m := by
  rw [bitAt, bitAt, ← Nat.add_zero m, ← Nat.testBit_shiftRight, inCluster_shift hk hm, Nat.testBit_shiftRight]

theorem wholeBlocks_inCluster (hk : k < 800) (h : d.WholeBlocks) : (d.inCluster k).WholeBlocks := by
  have hbits {m n : Nat} (hm : 52 ≤ m) := bitsAt_inCluster (d := d) (n := n) hk hm
  have hbit {m : Nat} (hm : 52 ≤ m) := bitAt_inCluster (d := d) hk hm
  have hrank : (d.inCluster k).rank = d.rank := hbits (by decide)
  have hfmt : (d.inCluster k).fmtCode = d.fmtCode := hbits (by decide)
  have hext (i : Nat) : (d.inCluster k).ext i = d.ext i := by
    rw [ext, ext, hrank, hbits (by omega), hbits (by omega)]
  have hstride (i : Nat) : (d.inCluster k).stride i = d.stride i := by rw [stride, stride, hrank, hbits (by omega)]
  have hcontig : (d.inCluster k).contig = d.contig := by
    rw [contig, contig, tiled, tiled, tmin, tmin, hbit (by decide), hbit (by decide), hfmt, hrank, hstride, hstride]
  have hsize : (d.inCluster k).blockSize = d.blockSize := by rw [blockSize, blockSize, hbit (by decide)]
  intro hb
  rw [hsize, hcontig, hext]
  exact h (by rwa [blockEn, hbit (by decide)] at hb)

end Desc

/-- The clusters of a placement that passes its checks exist. -/
theorem placeClusters_lt {w : Slot} {team : BitVec 128} (h : placeChecks w team = []) {k : Nat} (hk : k ∈ placeClusters w team) :
    k < 800 := by
  unfold placeChecks at h
  split at h
  case isFalse => cases h
  have hu := need_eq_nil.1 h
  have hcl {h' : Nat} (hh : teamHas team h' = true) : h' < 100 := of_decide_eq_true (Bool.and_eq_true_iff.1 hh).1
  unfold placeUnitsOk at hu
  unfold placeClusters at hk
  split at hk
  next hm =>
    rw [hm] at hu
    obtain ⟨i, hi, hk⟩ := List.mem_flatMap.1 hk
    obtain ⟨j, hj, rfl⟩ := List.mem_map.1 hk
    have := hcl (List.all_eq_true.1 hu i hi)
    have := List.mem_range.1 hj
    omega
  next hm =>
    rw [hm] at hu
    have := of_decide_eq_true (Bool.and_eq_true_iff.1 hu).1
    rwa [List.mem_singleton.1 hk]
  next =>
    obtain ⟨i, hi, hk⟩ := List.mem_flatMap.1 hk
    obtain ⟨j, hj, rfl⟩ := List.mem_map.1 hk
    have := hcl (List.mem_filter.1 hi).2
    have := List.mem_range.1 hj
    omega

namespace State

variable {A : Nat → Prop} {s0 s : State} {w : Work} {c : Cmd}

/-- Listed items of a tensor are written within it. -/
theorem Yields.putItems {x : Work × List Item} {env : Env} {d : Desc} {rnd : Rounding}
    (hx : s0.Yields A (fun i => i.idx ∈ allIdx d.exts) x) (hA : ∀ b, Touched (d.allSpans env.warm) b → A b) (hw : d.WholeBlocks) :
    s0.Within A (x.1.putItems env d rnd x.2).s := hx.within.workPutItems hA hw hx.all

/-! ### LOAD, STORE, COPY and CONVERT (R215, R216) -/

namespace Within

theorem moveAll (h : s0.Within A w.s) {env a b} (hA : ∀ x, Touched (Desc.allSpans b env.warm) x → A x) :
    s0.Within A (Work.moveAll env a b w).s := h.foldlWork fun _ _ hi h => h.workMoveElem hA hi

theorem convertAll (h : s0.Within A w.s) {env a b field sat} (hA : ∀ x, Touched (Desc.allSpans b env.warm) x → A x)
    (hw : b.WholeBlocks) : s0.Within A (Work.convertAll env a b field sat w).s := by
  refine h.workPutItems hA hw fun i hi => ?_
  obtain ⟨ix, hix, rfl⟩ := List.mem_map.1 hi
  exact hix

end Within

theorem completes_copyBody {asMove : Bool} (hc : copyChecks asMove c s = []) (hp : s.poisoned = []) :
    Completes (Touched (c.slotSpans s [1])) c true s (copyBody asMove [] c s) := by
  simp only [copyChecks, List.append_eq_nil_iff] at hc
  obtain ⟨⟨⟨⟨⟨-, h0⟩, h1⟩, -⟩, -⟩, -⟩ := hc
  obtain ⟨a, ha⟩ := Cmd.exists_tensor?_of_needed h0
  obtain ⟨b, hb⟩ := Cmd.exists_tensor?_of_dest h1
  have hA := Cmd.touched_slotSpans (hs := [1]) (List.mem_singleton_self 1) hb
  rw [copyBody, ha, hb]
  exact completes_within hp fun w h => Within.iteWork (h.moveAll hA) (h.convertAll hA (Cmd.wholeBlocks_of_tensor? hb))

theorem completes_moveBody {asMove : Bool} (hc : moveChecks asMove c s = []) (hp : s.poisoned = []) :
    Completes (Touched (c.slotSpans s [1])) c true s (copyBody asMove [] c s) :=
  completes_copyBody (List.append_eq_nil_iff.1 hc).2 hp

theorem completes_storeBody (hc : storeChecks c s = []) (hp : s.poisoned = []) :
    Completes (Touched (c.slotSpans s [1])) c true s (copyBody true [] c s) :=
  completes_moveBody (List.append_eq_nil_iff.1 hc).1 hp

/-- The bits of all destinations of a LOAD. -/
def loadDestSpans (c : Cmd) (s : State) : List Span :=
  (c.tensor? s 1).toList.flatMap fun b => (loadDests c b).flatMap (Desc.allSpans · c.warm)

theorem wholeBlocks_of_loadDests {b d : Desc} (hplace : placeChecks c.slot c.q.team = []) (hw : b.WholeBlocks)
    (hd : d ∈ loadDests c b) : d.WholeBlocks := by
  unfold loadDests at hd
  split at hd
  · obtain ⟨k, hk, rfl⟩ := List.mem_map.1 hd
    exact Desc.wholeBlocks_inCluster (placeClusters_lt hplace hk) hw
  · exact List.mem_singleton.1 hd ▸ hw

theorem completes_loadBody (hc : loadChecks c s = []) (hp : s.poisoned = []) :
    Completes (Touched (loadDestSpans c s)) c true s (loadBody c s) := by
  simp only [loadChecks, copyChecks, List.append_eq_nil_iff] at hc
  obtain ⟨⟨⟨⟨-, ⟨⟨⟨⟨⟨hplace, h0⟩, h1⟩, -⟩, -⟩, -⟩⟩, -⟩, -⟩, -⟩ := hc
  obtain ⟨a, ha⟩ := Cmd.exists_tensor?_of_needed h0
  obtain ⟨b, hb⟩ := Cmd.exists_tensor?_of_dest h1
  have hA : ∀ d ∈ loadDests c b, ∀ x, Touched (d.allSpans c.warm) x → Touched (loadDestSpans c s) x := by
    rintro d hd x ⟨sp, hsp, hm⟩
    rw [loadDestSpans, hb]
    exact ⟨sp, by simpa using ⟨d, hd, hsp⟩, hm⟩
  have hw : ∀ d ∈ loadDests c b, d.WholeBlocks := fun d hd =>
    wholeBlocks_of_loadDests hplace (Cmd.wholeBlocks_of_tensor? hb) hd
  simp only [loadBody, ha, hb]
  generalize loadDests c b = ds at hA hw
  cases ds with
  | nil => exact completes_ok
  | cons d ds =>
    have hA0 := hA d List.mem_cons_self
    refine completes_within hp fun w h => Within.foldlWork ?_ fun w x hx h => h.moveAll (hA x (List.mem_cons_of_mem _ hx))
    exact Within.iteWork (h.moveAll hA0) (h.convertAll hA0 (hw d List.mem_cons_self))

/-! ### FILL and RNG (R217, R219) -/

theorem completes_fillBody (hc : fillChecks c s = []) (hp : s.poisoned = []) :
    Completes (Touched (c.slotSpans s [0])) c true s (fillBody c s) := by
  simp only [fillChecks, List.append_eq_nil_iff] at hc
  obtain ⟨⟨-, h0⟩, -⟩ := hc
  obtain ⟨d, hd⟩ := Cmd.exists_tensor?_of_dest h0
  have hA := Cmd.touched_slotSpans (hs := [0]) (List.mem_singleton_self 0) hd
  rw [fillBody, hd]
  refine completes_within hp fun w h => Within.iteWork ?_ ?_
  · exact h.foldlWork fun w ix hix h => h.workPutBits (Fmt.bits_pos _) (Within.elem_bytes hA hix)
  · refine h.workPutItems hA (Cmd.wholeBlocks_of_tensor? hd) fun i hi => ?_
    obtain ⟨ix, hix, rfl⟩ := List.mem_map.1 hi
    exact hix

theorem Within.rngElem (h : s0.Within A w.s) {env dist pa pb d rnd ix} (hA : ∀ x, Touched (Desc.allSpans d env.warm) x → A x)
    (hix : ix ∈ allIdx d.exts) : s0.Within A (Machine.rngElem env dist pa pb d rnd w ix).s := by
  have hput (v : Nat) := h.workPutBits (v := v) (Fmt.bits_pos _) (Within.elem_bytes hA hix)
  exact iteWork (hput _) (hput _)

theorem completes_rngBody (hc : rngChecks c s = []) (hp : s.poisoned = []) :
    Completes (Touched (c.slotSpans s [0])) c true s (rngBody c s) := by
  simp only [rngChecks, List.append_eq_nil_iff] at hc
  obtain ⟨⟨⟨⟨-, h0⟩, -⟩, -⟩, -⟩ := hc
  obtain ⟨d, hd⟩ := Cmd.exists_tensor?_of_dest h0
  have hA := Cmd.touched_slotSpans (hs := [0]) (List.mem_singleton_self 0) hd
  rw [rngBody, hd]
  exact completes_within hp fun w h => h.foldlWork fun w ix hix h => h.rngElem hA hix

/-! ### GATHER and SCATTER (R178, R179, R218) -/

/-- Element `ix` of row `r`, for a coordinate of a row. -/
theorem inRow_mem {b : Desc} (hok : b.ok = true) {ix : List Nat} (hix : ix ∈ allIdx b.rowShape) {r : Nat} (hr : r < b.rows) :
    b.inRow ix r ∈ allIdx b.exts := by
  obtain ⟨f, -, h1, h6, -⟩ := Desc.of_ok hok
  have hshape : b.rowShape = b.exts.set (b.rank - 1) 1 := by
    refine List.ext_getElem (by simp [Desc.rowShape, Desc.exts]) fun i hi _ => ?_
    have hi6 : i < 6 := by simpa [Desc.rowShape] using hi
    simp only [Desc.rowShape, Desc.exts, List.getElem_map, List.getElem_range, List.getElem_set]
    by_cases hlt : i < b.rank - 1
    · rw [if_pos hlt, if_neg (by omega)]
    · rw [if_neg hlt]
      split
      · rfl
      · rw [Desc.ext, if_pos (by omega)]
  rw [hshape] at hix
  exact set_mem_allIdx hix (by rwa [Desc.getD_exts (by omega)])

theorem rowChecks_tensors (hc : rowChecks c s = []) :
    ∃ a x b, c.tensor? s 0 = some a ∧ c.tensor? s 1 = some x ∧ c.tensor? s 2 = some b := by
  simp only [rowChecks, List.append_eq_nil_iff, List.flatMap_eq_nil_iff] at hc
  obtain ⟨⟨⟨⟨⟨⟨⟨⟨-, h01⟩, h2⟩, -⟩, -⟩, -⟩, -⟩, -⟩, -⟩ := hc
  obtain ⟨a, ha⟩ := Cmd.exists_tensor?_of_needed (h01 0 (by decide))
  obtain ⟨x, hx⟩ := Cmd.exists_tensor?_of_needed (h01 1 (by decide))
  obtain ⟨b, hb⟩ := Cmd.exists_tensor?_of_dest h2
  exact ⟨a, x, b, ha, hx, hb⟩

theorem Within.gatherRow (h : s0.Within A w.s) {env a b rnd r i} (hA : ∀ x, Touched (Desc.allSpans b env.warm) x → A x)
    (hok : b.ok = true) (hi : i < b.rows) : s0.Within A (Machine.gatherRow env a b rnd w i r).s := by
  have hidx : ∀ x ∈ (allIdx b.rowShape).map fun ix => (a.inRow ix r.toNat, b.inRow ix i), x.2 ∈ allIdx b.exts := by
    intro x hx
    obtain ⟨ix, hix, rfl⟩ := List.mem_map.1 hx
    exact inRow_mem hok hix hi
  unfold Machine.gatherRow
  extract_lets f cells
  refine iteWork (h.workPutItems hA (Desc.wholeBlocks_of_ok hok) fun i hi => ?_) (iteWork ?_
    (h.workPutItems hA (Desc.wholeBlocks_of_ok hok) fun i hi => ?_))
  · obtain ⟨x, hx, rfl⟩ := List.mem_map.1 hi
    exact hidx x hx
  · exact h.foldlWork fun w x hx h => h.workMoveElem hA (hidx x hx)
  · obtain ⟨x, hx, rfl⟩ := List.mem_map.1 hi
    exact hidx x hx

theorem completes_gatherBody (hc : gatherChecks c s = []) (hp : s.poisoned = []) :
    Completes (Touched (c.slotSpans s [2])) c true s (gatherBody c s) := by
  simp only [gatherChecks, List.append_eq_nil_iff] at hc
  obtain ⟨⟨⟨-, hrow⟩, hlen⟩, -⟩ := hc
  obtain ⟨a, x, b, ha, hx, hb⟩ := rowChecks_tensors hrow
  have hrows : x.ext 0 ≤ b.rows := of_decide_eq_true (Cmd.of_when2 hlen hx hb)
  have hA := Cmd.touched_slotSpans (hs := [2]) (List.mem_singleton_self 2) hb
  simp only [gatherBody, ha, hx, hb]
  refine completes_within hp fun w h => h.foldlWork fun w p hmem h => h.gatherRow hA (Cmd.ok_of_tensor? hb) ?_
  have hlt := (List.mem_zipIdx' hmem).1
  rw [List.length_map, List.length_range] at hlt
  omega

theorem Within.scatterRow (h : s0.Within A w.s) {env op a b field sat idx r}
    (hA : ∀ x, Touched (Desc.allSpans b env.warm) x → A x) (hok : b.ok = true) (hr : r < b.rows) :
    s0.Within A (Machine.scatterRow env op a b field sat idx w r).s := by
  have hidx : ∀ x ∈ (allIdx b.rowShape).map fun ix => (ix, b.inRow ix r), x.2 ∈ allIdx b.exts := by
    intro x hx
    obtain ⟨ix, hix, rfl⟩ := List.mem_map.1 hx
    exact inRow_mem hok hix hr
  exact Yields.putItems (.foldl (.nil h) fun y x hx hy => hy.push hy.within.scatterElem (hidx x hx)) hA
    (Desc.wholeBlocks_of_ok hok)

theorem completes_scatterBody (hc : scatterChecks c s = []) (hp : s.poisoned = []) :
    Completes (Touched (c.slotSpans s [2])) c true s (scatterBody c s) := by
  simp only [scatterChecks, List.append_eq_nil_iff] at hc
  obtain ⟨⟨⟨⟨⟨-, hrow⟩, -⟩, -⟩, -⟩, -⟩ := hc
  obtain ⟨a, x, b, ha, hx, hb⟩ := rowChecks_tensors hrow
  have hA := Cmd.touched_slotSpans (hs := [2]) (List.mem_singleton_self 2) hb
  simp only [scatterBody, ha, hx, hb]
  refine completes_within hp fun w h => h.foldlWork fun w r hmem h => h.scatterRow hA (Cmd.ok_of_tensor? hb) ?_
  exact List.mem_range.1 (List.mem_filter.1 hmem).1

end State

end Sys2Proof.Machine
end

section
/-! The matrix commands complete: GEMM, BGEMM and BWD2 (R220 to R222). -/

namespace Sys2Proof.Machine.State

variable {A : Nat → Prop} {s0 s : State} {w : Work} {c : Cmd}

/-! ### GEMM and BGEMM -/

/-- The start check of a GEMM: where CLAMP is the activation, its low bound is not above the high one (R122). -/
def gemmBounds (c : Cmd) (s : State) : Prop :=
  ∀ a b k, c.tensor? s 0 = some a → c.tensor? s 1 = some b → Gemm.cls c.warm a b = some k →
    let W := (Gemm.accOf c.slot k).working
    Gemm.boundsOk c.slot (Gemm.scalar W (c.reg c.slot.sC)) (Gemm.scalar W (c.reg c.slot.sD)) = true

/-- The results of a GEMM are those of the elements of its destination. -/
theorem yields_outAll (h : s0.Within A w.s) {env k p fin rnd s1} {d : Desc} (hd : p.d = d) :
    s0.Yields A (fun i => i.idx ∈ allIdx d.exts) (Gemm.outAll env c k p fin rnd s1 w) := by
  subst hd
  refine .foldl (.nil h) fun y ix hix hy => ?_
  have hidx : (Gemm.outElem env c k p fin rnd (finishExact fin.acc.working (p.d.fmtIn env.warm) p.d.blockEn) s1 y.1 ix).2.idx =
      ix := rfl
  exact hy.push hy.within.outElem (hidx ▸ hix)

theorem completes_gemmBody {rankOk : Nat → Bool} (hc : Gemm.checks rankOk c s = []) (hp : s.poisoned = [])
    (hb : gemmBounds c s) : Completes (Touched (c.slotSpans s [2])) c true s (Gemm.body c s) := by
  simp only [Gemm.checks, Gemm.shapeChecks, List.append_eq_nil_iff] at hc
  obtain ⟨⟨⟨⟨⟨⟨⟨⟨⟨⟨⟨⟨-, h0⟩, h1⟩, h2⟩, -⟩, -⟩, -⟩, -⟩, -⟩, -⟩, ⟨⟨-, hcls⟩, -⟩, -⟩, -⟩, -⟩ := hc
  obtain ⟨a, ha⟩ := Cmd.exists_tensor?_of_needed h0
  obtain ⟨b, hb1⟩ := Cmd.exists_tensor?_of_needed h1
  obtain ⟨d, hd⟩ := Cmd.exists_tensor?_of_dest h2
  obtain ⟨k, hk⟩ := Option.isSome_iff_exists.1 (Cmd.of_when2 hcls ha hb1)
  have hbound := hb a b k ha hb1 hk
  have hA := Cmd.touched_slotSpans (hs := [2]) (List.mem_singleton_self 2) hd
  dsimp only at hbound
  unfold Gemm.body
  extract_lets sl
  generalize (if Gemm.usesH3 sl then c.tensor? s 3 else none) = h3
  generalize (if Gemm.isVec (Gemm.scaleSrc sl) then c.tensor? s 4 else none) = sv
  generalize (if Gemm.isVec (Gemm.biasSrc sl) then c.tensor? s 5 else none) = bv
  simp only [ha, hb1, hd, hk, hbound, sl, Bool.not_true, Bool.false_eq_true, if_false]
  refine completes_within hp fun w h => Within.iteFst h ?_
  refine Yields.putItems (yields_outAll ?_ (by rfl)) hA (Cmd.wholeBlocks_of_tensor? hd)
  exact h.countLoads.countLoads.deliverAll.deliverAll.deliverAll

/-! ### BWD2 -/

theorem yields_dxItems (h : s0.Within A w.s) {env y wt uy uw h5 d rnd s1} :
    s0.Yields A (fun i => i.idx ∈ allIdx d.exts) (Bwd.dxItems env c y wt uy uw h5 d rnd s1 w) := by
  refine .foldl (.nil h) fun z ix hix hz => ?_
  obtain ⟨w, items⟩ := z
  dsimp only
  exact hz.push hz.within.element.levelZero.finishRun hix

/-- Of the elements of dW those that are trained have a result (R140). -/
theorem yields_dwItems (h : s0.Within A w.s) {env y x uy ux m d rnd s1} :
    s0.Yields A (fun i => i.idx ∈ allIdx d.exts) (Bwd.dwItems env c y x uy ux m d rnd s1 w) := by
  refine .foldl (.nil h) fun z ix hix hz => ?_
  obtain ⟨w, items⟩ := z
  dsimp only
  split
  · exact hz.push (Within.iteWork hz.within.element.finishRun.workNoteRead hz.within.element.finishRun) hix
  · exact ⟨hz.within.element.finishRun, hz.all⟩

theorem Within.give (h : s0.Within A w.s) {b : Bool} {env d u} : s0.Within A (if b then Gemm.deliver env d u w else w).s :=
  iteWork h.deliver h

theorem Within.putDx (h : s0.Within A w.s) {env y wt uy uw h5 d rnd s1} (hA : ∀ b, Touched (Desc.allSpans d env.warm) b → A b)
    (hw : d.WholeBlocks) :
    s0.Within A (let (w1, items) := Bwd.dxItems env c y wt uy uw h5 d rnd s1 w; w1.putItems env d rnd items).s :=
  (yields_dxItems h).putItems hA hw

theorem Within.putDw (h : s0.Within A w.s) {env y x uy ux m d rnd s1} (hA : ∀ b, Touched (Desc.allSpans d env.warm) b → A b)
    (hw : d.WholeBlocks) :
    s0.Within A (let (w1, items) := Bwd.dwItems env c y x uy ux m d rnd s1 w; w1.putItems env d rnd items).s :=
  (yields_dwItems h).putItems hA hw

theorem tensor_of_ite {b : Bool} {i : Nat} {d : Desc} (h : (if b then c.tensor? s i else none) = some d) :
    c.tensor? s i = some d := by
  cases b with
  | true => exact h
  | false => cases h

theorem completes_bwdBody (hc : Bwd.checks c s = []) (hp : s.poisoned = []) :
    Completes (Touched (c.slotSpans s [3, 4])) c true s (Bwd.body c s) := by
  unfold Bwd.checks at hc
  extract_lets sl rank2 at hc
  simp only [List.append_eq_nil_iff] at hc
  obtain ⟨⟨⟨⟨⟨⟨⟨⟨⟨⟨⟨⟨⟨⟨⟨⟨⟨-, h012⟩, -⟩, -⟩, -⟩, -⟩, -⟩, -⟩, -⟩, hy⟩, hw⟩, hx⟩, -⟩, -⟩, -⟩, -⟩, -⟩, -⟩ := hc
  obtain ⟨y, hy0⟩ := Cmd.exists_tensor?_of_needed (List.flatMap_eq_nil_iff.1 h012 0 (by decide))
  obtain ⟨wt, hw1⟩ := Cmd.exists_tensor?_of_needed (List.flatMap_eq_nil_iff.1 h012 1 (by decide))
  obtain ⟨x, hx2⟩ := Cmd.exists_tensor?_of_needed (List.flatMap_eq_nil_iff.1 h012 2 (by decide))
  obtain ⟨uy, huy⟩ := Option.isSome_iff_exists.1 (Cmd.of_when1 hy hy0)
  obtain ⟨uw, huw⟩ := Option.isSome_iff_exists.1 (Cmd.of_when1 hw hw1)
  obtain ⟨ux, hux⟩ := Option.isSome_iff_exists.1 (Cmd.of_when1 hx hx2)
  unfold Bwd.body
  extract_lets env dxD dwD h5 m
  have hdx : (if Bwd.dx sl then c.tensor? s 3 else none) = dxD := rfl
  have hdw : (if Bwd.dw sl then c.tensor? s 4 else none) = dwD := rfl
  clear_value dxD dwD h5 m
  simp only [hy0, hw1, hx2, huy, huw, hux]
  have hdx1 {d : Desc} (hd : dxD = some d) := tensor_of_ite (hdx.trans hd)
  have hdw1 {d : Desc} (hd : dwD = some d) := tensor_of_ite (hdw.trans hd)
  refine completes_within hp fun w h => ?_
  cases dxD with
  | none =>
    cases dwD with
    | none => exact h.give
    | some d => exact h.give.give.putDw (Cmd.touched_slotSpans (by decide) (hdw1 rfl)) (Cmd.wholeBlocks_of_tensor? (hdw1 rfl))
  | some d =>
    have hput {y wt uy uw h5 rnd} {w : Work} (h : s.Within (Touched (c.slotSpans s [3, 4])) w.s) :=
      h.putDx (c := c) (env := env) (y := y) (wt := wt) (uy := uy) (uw := uw) (h5 := h5) (rnd := rnd) (s1 := s)
        (Cmd.touched_slotSpans (by decide) (hdx1 rfl)) (Cmd.wholeBlocks_of_tensor? (hdx1 rfl))
    cases dwD with
    | none => exact hput h.give.give.deliverAll
    | some d =>
      exact (hput h.give.give.deliverAll).give.putDw (Cmd.touched_slotSpans (by decide) (hdw1 rfl))
        (Cmd.wholeBlocks_of_tensor? (hdw1 rfl))

end Sys2Proof.Machine.State
end

section
/-! The lane commands complete: EWISE and STENCIL (R174 to R177, R223). A lane stores to the written streams of its program only, and
each written stream has the extents of the first one. -/

namespace Sys2Proof.Machine

/-! ### What a lane stores -/

/-- A store of a lane names the stream of an ST of the program. -/
theorem mem_out_laneStep {ld : Work → Nat → Work × Nat} {x : LaneCtx} {w : Work} {l : Lane} {i : Nat}
    {o : Nat × Nat × RMode × Bool} (h : o ∈ (laneStep ld x w l i).2.out) : o ∈ l.out ∨ (LaneI.op i = 0x21 ∧ o.1 = LaneI.s i) := by
  dsimp only [laneStep] at h
  split at h
  · exact .inl h
  split at h
  · exact .inl h
  split at h
  next hop =>
    split at h
    · rcases List.mem_append.1 h with h | h
      · exact .inl h
      · exact .inr ⟨hop, congrArg Prod.fst (List.mem_singleton.1 h)⟩
    · exact .inl h
  split at h
  · exact .inl h
  split at h
  · exact .inl h
  · exact .inl h

theorem mem_out_runLane {ld : Work → Nat → Work × Nat} {x : LaneCtx} {p : Prog} {w : Work} :
    ∀ o ∈ (runLane ld x p w).2.out, ∃ i ∈ p.instrs, LaneI.op i = 0x21 ∧ o.1 = LaneI.s i := by
  refine List.foldlRecOn (motive := fun y : Work × Lane => ∀ o ∈ y.2.out, ∃ i ∈ p.instrs, LaneI.op i = 0x21 ∧ o.1 = LaneI.s i)
    _ _ nofun fun y hy i hi o ho => ?_
  rcases mem_out_laneStep ho with ho | ho
  · exact hy o ho
  · exact ⟨i, hi, ho⟩

/-- A program that passes its checks stores to its written streams only (R164). -/
theorem writes_of_store {p : Prog} {has : Nat → Bool} (h : p.ok false has = true) {i : Nat} (hi : i ∈ p.instrs)
    (hop : LaneI.op i = 0x21) : p.writes (LaneI.s i) = true := by
  simp only [Prog.ok, Bool.and_eq_true, List.all_eq_true] at h
  obtain ⟨⟨⟨⟨⟨-, hall⟩, -⟩, -⟩, -⟩, -⟩ := h
  have hok := hall i hi
  simp only [LaneI.ok, hop, Nat.reduceEqDiff, if_false, if_true, Bool.and_eq_true] at hok
  obtain ⟨⟨-, hw⟩, -⟩ := hok
  exact hw

namespace State

variable {A : Nat → Prop} {s0 s : State} {w : Work} {c : Cmd}

/-- What a pass stored, before it is written: each store is at an element of a lane and names a written stream. -/
abbrev Stored (p : Prog) (places : List Place) (o : List Nat × Nat × Nat × RMode × Bool) : Prop :=
  (∃ x ∈ places, x.1 = o.1) ∧ p.writes o.2.1 = true

theorem Within.runProgram (h : s0.Within A w.s) {env p ts params modes} {places : List Place}
    (hst : ∀ i ∈ p.instrs, LaneI.op i = 0x21 → p.writes (LaneI.s i) = true)
    (hts : ∀ k d, ts.getD k none = some d → p.writes k = true →
      (∀ b, Touched (Desc.allSpans d env.warm) b → A b) ∧ d.WholeBlocks ∧ ∀ x ∈ places, x.1 ∈ allIdx d.exts) :
    s0.Within A (Machine.runProgram env p ts params modes places w).s := by
  dsimp only [Machine.runProgram]
  generalize hx : List.foldl _ (w, ([] : List (List Nat × Nat × Nat × RMode × Bool))) places = x
  have hy : s0.Yields A (Stored p places) x := by
    rw [← hx]
    refine .foldl (.nil h) fun y pl hpl hy => hy.append (hy.within.runLane fun w i h => h.laneLoad) fun o ho => ?_
    obtain ⟨o1, ho1, rfl⟩ := List.mem_map.1 ho
    obtain ⟨i, hi, hop, hs⟩ := mem_out_runLane o1 ho1
    exact ⟨⟨pl, hpl, rfl⟩, hs ▸ hst i hi hop⟩
  refine hy.within.foldlWork fun w k _ h => ?_
  split
  · exact h
  next d hd =>
    split
    · exact h
    next o rest hmine =>
      have hmem : ∀ o1 ∈ x.2.filter fun o => o.2.1 == k, Stored p places o1 ∧ o1.2.1 = k := by
        intro o1 ho1
        obtain ⟨ho1, hk⟩ := List.mem_filter.1 ho1
        exact ⟨hy.all o1 ho1, eq_of_beq hk⟩
      have hw : p.writes k = true := by
        obtain ⟨⟨-, hwr⟩, hk⟩ := hmem _ (hmine ▸ List.mem_cons_self)
        exact hk ▸ hwr
      obtain ⟨hA, hwhole, hidx⟩ := hts k d hd hw
      refine h.workPutItems hA hwhole fun i hi => ?_
      obtain ⟨o1, ho1, rfl⟩ := List.mem_map.1 hi
      obtain ⟨⟨⟨pl, hpl, heq⟩, -⟩, -⟩ := hmem o1 ho1
      have hi1 : (storeItem env p.fmt d o1.1 o1.2.2.1).idx = o1.1 := by unfold storeItem; split <;> rfl
      rw [hi1, ← heq]
      exact hidx pl hpl

/-- The bits of the written streams of a command's program. -/
def laneSpans (c : Cmd) (s : State) : List Span :=
  match Ew.find c s with
  | .prog p => c.slotSpans s ((List.range 6).filter p.writes)
  | .bad _ => []

theorem getD_streams (c : Cmd) (s : State) (k : Nat) {d : Desc} (h : (Ew.streams c s).getD k none = some d) :
    k < 6 ∧ c.tensor? s k = some d := by
  rw [Ew.streams, List.getD_eq_getElem?_getD, List.getElem?_map] at h
  by_cases hk : k < 6
  · rw [List.getElem?_range hk] at h
    exact ⟨hk, h⟩
  · rw [List.getElem?_eq_none (by rw [List.length_range]; omega)] at h
    cases h

/-- Written streams have the extents of the first one (R174). -/
theorem exts_of_streamChecks {stencil : Bool} {p : Prog} (hc : Ew.streamChecks stencil c s p = []) {k i : Nat} {d e : Desc}
    (hfirst : Ew.firstWritten p = some k) (hd : c.tensor? s k = some d) (hi : i < 6) (hw : p.writes i = true)
    (he : c.tensor? s i = some e) : d.exts = e.exts := by
  unfold Ew.streamChecks at hc
  extract_lets all gh at hc
  simp only [List.append_eq_nil_iff, hfirst] at hc
  obtain ⟨⟨⟨⟨⟨-, hexts⟩, -⟩, -⟩, -⟩, -⟩ := hc
  have hi1 := (List.append_eq_nil_iff.1 (List.flatMap_eq_nil_iff.1 hexts i (List.mem_range.2 hi))).1
  rw [if_pos hw] at hi1
  exact eq_of_beq (Cmd.of_whenAt hi1 hd he)

theorem ok_of_streamChecks {stencil : Bool} {p : Prog} (hc : Ew.streamChecks stencil c s p = []) :
    p.ok false (fun i => c.slot.handle i != noHandle) = true := by
  have hlast := need_eq_nil.1 (List.append_eq_nil_iff.1 hc).2
  simp only [Bool.and_eq_true] at hlast
  obtain ⟨⟨hok, -⟩, -⟩ := hlast
  exact hok

theorem completes_ewBody {stencil : Bool} (hc : Ew.checks stencil c s = []) (hp : s.poisoned = []) :
    Completes (Touched (laneSpans c s)) c true s (Ew.body c s) := by
  obtain ⟨-, hc⟩ := List.append_eq_nil_iff.1 hc
  unfold Ew.body laneSpans
  generalize Ew.find c s = found at hc
  cases found with
  | bad st => cases hc
  | prog p =>
    dsimp only at hc ⊢
    rw [hp]
    split
    next hsome => cases hsome
    split
    · exact completes_ok
    next d hd =>
      obtain ⟨k, hk, hd⟩ := Option.bind_eq_some_iff.1 hd
      obtain ⟨-, hd⟩ := getD_streams c s k hd
      refine completes_within hp fun w h => h.runProgram (fun i hi hop => writes_of_store (ok_of_streamChecks hc) hi hop) ?_
      intro i e he hw
      obtain ⟨hi, he⟩ := getD_streams c s i he
      refine ⟨Cmd.touched_slotSpans (List.mem_filter.2 ⟨List.mem_range.2 hi, hw⟩) he, Cmd.wholeBlocks_of_tensor? he,
        fun x hx => ?_⟩
      obtain ⟨ix, hix, rfl⟩ := List.mem_map.1 hx
      exact exts_of_streamChecks hc hk hd hi hw he ▸ hix

end State

end Sys2Proof.Machine
end

section
/-! The reductions complete: REDUCE and ARGRED (R124 to R126, R224, R225, R234). A result belongs to a line of the input, and so to an
element of an output; a scalar result goes to a register of the command's own queue. -/

namespace Sys2Proof.Machine.State

variable {A : Nat → Prop} {s0 s : State} {w : Work} {c : Cmd}

/-- Writing items of an output whose extents are those of the lines. -/
theorem Within.putLines {β : Type} {es : List Nat} {x : Work × List (List Nat × β)}
    (hx : s0.Yields A (fun r => r.1 ∈ allIdx es) x) {env : Env} {o : Desc} {rnd : Rounding} {item : List Nat × β → Item}
    (hitem : ∀ r, (item r).idx = r.1) (hA : ∀ b, Touched (o.allSpans env.warm) b → A b) (hw : o.WholeBlocks) (hes : o.exts = es) :
    s0.Within A (x.1.putItems env o rnd (x.2.map item)).s := by
  refine hx.within.workPutItems hA hw fun i hi => ?_
  obtain ⟨r, hr, rfl⟩ := List.mem_map.1 hi
  rw [hitem, hes]
  exact hx.all r hr

theorem yields_reduceResults (h : s0.Within A w.s) {env k opc d a} :
    s0.Yields A (fun r => r.1 ∈ allIdx (a.exts.set d 1)) (Reduce.results env k opc d a w) :=
  .foldl (.nil h) fun _ _ hix hy => hy.push hy.within.loadLine.reduceLine hix

theorem yields_argredResults (h : s0.Within A w.s) {env min d a} :
    s0.Yields A (fun r => r.1 ∈ allIdx (a.exts.set d 1)) (Argred.results env min d a w) :=
  .foldl (.nil h) fun _ _ hix hy => hy.push hy.within.loadLine hix

/-- Of a kind 10 tensor the format in use is INT32 (R77). -/
theorem fmtIn_of_indices {d : Desc} (hok : d.ok = true) (hk : d.kind = 10) (warm : Bool) : d.fmtIn warm = .int32 := by
  obtain ⟨f, hf, -, -, hmem, -⟩ := Desc.of_ok hok
  rw [hk] at hmem
  rw [Desc.fmtIn, hk, if_neg (by simp), hf, List.mem_singleton.1 hmem]
  rfl

/-- Writing the indices of an ARGRED. -/
theorem Within.putIndices {x : Work × List (List Nat × Num × Nat)} (h : s0.Within A w.s) {es : List Nat}
    (hx : s0.Yields A (fun r => r.1 ∈ allIdx es) x) {o : Desc} {warm : Bool} (hA : ∀ b, Touched (o.allSpans warm) b → A b)
    (hes : o.exts = es) (hfmt : o.fmtIn warm = .int32) :
    s0.Within A (x.2.foldl (fun w r => w.putBits (o.bitAddr .int32 r.1) 32 (r.2.2 % 2 ^ 32)) w).s := by
  refine h.foldlWork fun w r hr h => ?_
  have hbytes := Within.elem_bytes hA (hes.symm ▸ hx.all r hr)
  rw [hfmt] at hbytes
  exact h.workPutBits (by decide) hbytes

theorem completes_reduceBody (hc : Reduce.checks c s = []) (hp : s.poisoned = []) :
    Completes (Touched (c.slotSpans s [1])) c false s (Reduce.body c s) := by
  unfold Reduce.checks at hc
  extract_lets sl at hc
  simp only [List.append_eq_nil_iff] at hc
  obtain ⟨⟨⟨⟨⟨⟨⟨⟨⟨-, -⟩, h0⟩, -⟩, -⟩, -⟩, -⟩, -⟩, hshape⟩, -⟩ := hc
  obtain ⟨a, ha⟩ := Cmd.exists_tensor?_of_needed h0
  unfold Reduce.body
  extract_lets env out
  have hout {o : Desc} (ho : out = some o) : c.tensor? s 1 = some o := tensor_of_ite ho
  clear_value out
  simp only [ha]
  refine completes_work hp fun w h => ?_
  have hy := yields_reduceResults h (env := env) (k := reduceAcc c.warm a (Reduce.exact sl)) (opc := Reduce.op sl)
    (d := Reduce.dim sl) (a := a)
  generalize Reduce.results env _ _ _ a w = x at hy
  dsimp only
  have hput {o : Desc} {rnd : Rounding} {item : List Nat × Acc → Item} (hitem : ∀ r, (item r).idx = r.1) (ho : out = some o) :=
    Within.putLines hy (env := env) (rnd := rnd) hitem (Cmd.touched_slotSpans (hs := [1]) (by decide) (hout ho)) (Cmd.wholeBlocks_of_tensor? (hout ho))
    (eq_of_beq (Cmd.of_when2 hshape ha (hout ho)))
  split
  on_goal 1 => split
  on_goal 1 => refine (Within.left ?_).trans left_setReg
  on_goal 2 => refine Within.left ?_
  on_goal 3 => refine Within.left ?_
  all_goals
    cases out with
    | none => exact hy.within
    | some o => exact hput (fun _ => rfl) rfl

theorem completes_argredBody (hc : Argred.checks c s = []) (hp : s.poisoned = []) :
    Completes (Touched (c.slotSpans s [1, 2])) c false s (Argred.body c s) := by
  unfold Argred.checks at hc
  extract_lets sl ts at hc
  simp only [List.append_eq_nil_iff] at hc
  obtain ⟨⟨⟨⟨⟨⟨⟨⟨⟨⟨-, -⟩, h0⟩, -⟩, -⟩, -⟩, -⟩, hv⟩, hi⟩, -⟩, hkind⟩ := hc
  obtain ⟨a, ha⟩ := Cmd.exists_tensor?_of_needed h0
  unfold Argred.body
  extract_lets env vo io
  have hvo {o : Desc} (ho : vo = some o) : c.tensor? s 1 = some o := tensor_of_ite ho
  have hio {o : Desc} (ho : io = some o) : c.tensor? s 2 = some o := tensor_of_ite ho
  clear_value vo io
  simp only [ha]
  refine completes_work hp fun w h => ?_
  have hy := yields_argredResults h (env := env) (min := Argred.minOp sl) (d := Argred.dim sl) (a := a)
  generalize Argred.results env _ _ a w = x at hy
  dsimp only
  have hput {o : Desc} {rnd : Rounding} {item : List Nat × Num × Nat → Item} (hitem : ∀ r, (item r).idx = r.1) (ho : vo = some o) :=
    Within.putLines hy (env := env) (rnd := rnd) hitem (Cmd.touched_slotSpans (hs := [1, 2]) (by decide) (hvo ho)) (Cmd.wholeBlocks_of_tensor? (hvo ho))
    (eq_of_beq (Cmd.of_when2 hv ha (hvo ho)))
  have hidx {o : Desc} (ho : io = some o) {w : Work} (h : s.Within _ w.s) := h.putIndices hy
    (Cmd.touched_slotSpans (hs := [1, 2]) (by decide) (hio ho)) (eq_of_beq (Cmd.of_when2 hi ha (hio ho)))
    (fmtIn_of_indices (Cmd.ok_of_tensor? (hio ho)) (eq_of_beq (Cmd.of_when1 hkind (hio ho))) c.warm)
  split
  on_goal 1 => split
  on_goal 1 => refine (Left.trans (Within.left ?_) left_setReg).trans left_setReg
  on_goal 2 => refine Within.left ?_
  on_goal 3 => refine Within.left ?_
  all_goals
    cases vo with
    | none =>
      cases io with
      | none => exact hy.within
      | some i => exact hidx rfl hy.within
    | some o =>
      cases io with
      | none => exact hput (fun _ => rfl) rfl
      | some i => exact hidx rfl (hput (fun _ => rfl) rfl)

end Sys2Proof.Machine.State
end

section
/-! The row commands complete: NORM, NORMB, SMAX and SMAXB (R146 to R151, R226). A row's results are as many as its elements at most,
so each belongs to an element of the output. -/

namespace Sys2Proof.Machine

/-! ### Lengths -/

theorem length_foldl_push {α β : Type} {f : Work × List β → α → Work × List β} (hf : ∀ y a, (f y a).2.length = y.2.length + 1)
    (l : List α) (y : Work × List β) : (l.foldl f y).2.length = y.2.length + l.length := by
  induction l generalizing y with
  | nil => rfl
  | cons a l ih =>
    rw [List.foldl_cons, ih, hf, List.length_cons]
    omega

namespace Rows

theorem length_loadRow {env : Env} {x : Desc} {w : Work} {row : List Nat} : (loadRow env x w row).2.length = x.ext 0 := by
  rw [loadRow, length_foldl_push fun y a => by simp, lineIdx]
  simp

theorem length_roundAll {w : Work} {ts : List Num} : (roundAll w ts).2.length = ts.length := by
  rw [roundAll, length_foldl_push fun y a => by simp]
  simp

theorem length_zip3_le {f : Num → Num → Num → Num} {a b c : List Num} : (zip3 f a b c).length ≤ a.length := by
  simp [zip3]

/-- The items of a row belong to elements of the tensor. -/
theorem rowItems_mem {x : Desc} {row : List Nat} (hrow : row ∈ rowsOf x) {ok : Bool} {vs : List Num} (hl : vs.length ≤ x.ext 0) :
    ∀ i ∈ rowItems row ok vs, i.idx ∈ allIdx x.exts := by
  intro i hi
  obtain ⟨k, hk, rfl⟩ := List.mem_mapIdx.1 hi
  exact set_mem_allIdx hrow (by rw [Desc.getD_exts (by decide)]; omega)

end Rows

namespace State

variable {A : Nat → Prop} {s0 s : State} {w : Work} {c : Cmd}

/-- Row tensors of a command have the extents of its first tensor (R146). -/
theorem exts_of_rowChecks {ins vecs outs : List Nat} (h : Rows.rowChecks c s ins vecs outs = []) {i : Nat} (hi : i ∈ outs)
    {x d : Desc} (hx : c.tensor? s 0 = some x) (hd : c.tensor? s i = some d) : d.exts = x.exts := by
  simp only [Rows.rowChecks, List.append_eq_nil_iff] at h
  obtain ⟨⟨⟨-, hexts⟩, -⟩, -⟩ := h
  have hi1 := List.flatMap_eq_nil_iff.1 hexts i (List.mem_append_right _ hi)
  have heq : (x.exts == d.exts) = true := Cmd.of_when2 hi1 hx hd
  exact (eq_of_beq heq).symm

/-- The items of all rows are written once, at the end (R569). -/
theorem Yields.putPass {x d : Desc} {p : Rows.Pass} (hp : s0.Yields A (fun i => i.idx ∈ allIdx x.exts) p) {env : Env}
    {rnd : Rounding} (hA : ∀ b, Touched (d.allSpans env.warm) b → A b) (hw : d.WholeBlocks) (he : d.exts = x.exts) :
    s0.Within A (p.put env d rnd).s :=
  Yields.putItems (d := d) (he ▸ hp) hA hw

/-! ### NORM -/

theorem yields_normRow {x : Desc} {p : Rows.Pass} (hp : s0.Yields A (fun i => i.idx ∈ allIdx x.exts) p) {env rms eps g b row}
    (hrow : row ∈ Rows.rowsOf x) : s0.Yields A (fun i => i.idx ∈ allIdx x.exts) (Rows.normRow env rms eps x g b p row) :=
  hp.append hp.within.loadRow.normStats (Rows.rowItems_mem hrow (Rows.length_zip3_le.trans Rows.length_loadRow.le))

theorem completes_normBody (hc : Rows.normChecks c s = []) (hp : s.poisoned = []) (heps : Rows.epsOk (Rows.epsOf c) = true) :
    Completes (Touched (c.slotSpans s [1])) c true s (Rows.normBody c s) := by
  unfold Rows.normChecks at hc
  extract_lets sl at hc
  simp only [List.append_eq_nil_iff] at hc
  obtain ⟨⟨⟨⟨⟨-, h0⟩, h1⟩, -⟩, -⟩, hrows⟩ := hc
  obtain ⟨x, hx⟩ := Cmd.exists_tensor?_of_needed h0
  obtain ⟨y, hy⟩ := Cmd.exists_tensor?_of_dest h1
  unfold Rows.normBody
  extract_lets eps env gd bd
  clear_value gd bd
  simp only [hx, hy, eps, heps, Bool.not_true, Bool.false_eq_true, if_false]
  refine completes_within hp fun w h => Within.iteFst h ?_
  refine Yields.putPass (.foldl (.nil h.loadVec.loadVec) fun p row hrow hp => yields_normRow hp hrow)
    (Cmd.touched_slotSpans (List.mem_singleton_self 1) hy) (Cmd.wholeBlocks_of_tensor? hy) ?_
  exact exts_of_rowChecks hrows (List.mem_singleton_self 1) hx hy

/-! ### SMAX and SMAXB -/

theorem yields_smaxRow {x : Desc} {p : Rows.Pass} (hp : s0.Yields A (fun i => i.idx ∈ allIdx x.exts) p) {env row}
    (hrow : row ∈ Rows.rowsOf x) : s0.Yields A (fun i => i.idx ∈ allIdx x.exts) (Rows.smaxRow env x p row) := by
  have hl : (Rows.loadRow env x p.1 row).2.length ≤ x.ext 0 := Rows.length_loadRow.le
  have h := hp.within.loadRow (env := env) (x := x) (row := row)
  dsimp only [Rows.smaxRow]
  split
  · exact hp.append h (Rows.rowItems_mem hrow hl)
  · exact hp.append h (Rows.rowItems_mem hrow (by rwa [List.length_map]))
  · exact hp.append h.smaxSum (Rows.rowItems_mem hrow (by rwa [List.length_map]))

theorem completes_smaxBody (hc : Rows.smaxChecks c s = []) (hp : s.poisoned = []) :
    Completes (Touched (c.slotSpans s [1])) c true s (Rows.smaxBody c s) := by
  unfold Rows.smaxChecks at hc
  extract_lets sl at hc
  simp only [List.append_eq_nil_iff] at hc
  obtain ⟨⟨⟨-, h0⟩, h1⟩, hrows⟩ := hc
  obtain ⟨z, hz⟩ := Cmd.exists_tensor?_of_needed h0
  obtain ⟨p, hp1⟩ := Cmd.exists_tensor?_of_dest h1
  simp only [Rows.smaxBody, hz, hp1]
  refine completes_within hp fun w h => Within.iteFst h ?_
  refine Yields.putPass (.foldl (.nil h) fun p row hrow hp => yields_smaxRow hp hrow)
    (Cmd.touched_slotSpans (List.mem_singleton_self 1) hp1) (Cmd.wholeBlocks_of_tensor? hp1) ?_
  exact exts_of_rowChecks hrows (List.mem_singleton_self 1) hz hp1

theorem yields_smaxbRow {x dp : Desc} {p : Rows.Pass} (hp : s0.Yields A (fun i => i.idx ∈ allIdx x.exts) p) {env row}
    (hrow : row ∈ Rows.rowsOf x) : s0.Yields A (fun i => i.idx ∈ allIdx x.exts) (Rows.smaxbRow env x dp p row) := by
  have hl : (Rows.loadRow env x p.1 row).2.length ≤ x.ext 0 := Rows.length_loadRow.le
  have h := (hp.within.loadRow (env := env) (x := x) (row := row)).loadRow (env := env) (x := dp) (row := row)
  dsimp only [Rows.smaxbRow]
  split
  · exact hp.append h (Rows.rowItems_mem hrow hl)
  · exact hp.append h (Rows.rowItems_mem hrow (by rwa [List.length_map]))
  · refine hp.append h.smaxSum.roundAll.roundedSum (Rows.rowItems_mem hrow ?_)
    rw [List.length_map, List.length_zip, Rows.length_roundAll, List.length_map]
    omega

theorem completes_smaxbBody (hc : Rows.smaxbChecks c s = []) (hp : s.poisoned = []) :
    Completes (Touched (c.slotSpans s [2])) c true s (Rows.smaxbBody c s) := by
  unfold Rows.smaxbChecks at hc
  extract_lets sl at hc
  simp only [List.append_eq_nil_iff] at hc
  obtain ⟨⟨⟨⟨⟨-, h0⟩, h1⟩, h2⟩, hrows⟩, -⟩ := hc
  obtain ⟨z, hz⟩ := Cmd.exists_tensor?_of_needed h0
  obtain ⟨dp, hdp⟩ := Cmd.exists_tensor?_of_needed h1
  obtain ⟨dz, hdz⟩ := Cmd.exists_tensor?_of_dest h2
  simp only [Rows.smaxbBody, hz, hdp, hdz]
  refine completes_within hp fun w h => Within.iteFst h ?_
  refine Yields.putPass (.foldl (.nil h) fun p row hrow hp => yields_smaxbRow hp hrow)
    (Cmd.touched_slotSpans (List.mem_singleton_self 2) hdz) (Cmd.wholeBlocks_of_tensor? hdz) ?_
  exact exts_of_rowChecks hrows (List.mem_singleton_self 2) hz hdz

/-! ### NORMB -/

/-- The items of NORMB's rows so far, and sums no longer than a row. -/
structure Sums (A : Nat → Prop) (s0 : State) (x : Desc) (p : Rows.Pass × List Num × List Num) : Prop where
  pass : s0.Yields A (fun i => i.idx ∈ allIdx x.exts) p.1
  gamma : p.2.1.length ≤ x.ext 0
  beta : p.2.2.length ≤ x.ext 0

/-- Rounded terms, one for each pair of a list with another, where they are wanted. -/
theorem length_roundTerms {b : Bool} {α : Type} {ts : List Num} {us : List α} {f : Num × α → Num} {n : Nat} (hl : ts.length ≤ n) :
    (if b then Rows.roundAll w ((ts.zip us).map f) else (w, ts)).2.length ≤ n := by
  split
  · rw [Rows.length_roundAll, List.length_map, List.length_zip]
    omega
  · exact hl

theorem Within.r32If (h : s0.Within A w.s) {b : Bool} {y x : Num} : s0.Within A (if b then (w, y) else Rows.r32 w x).1.s := h.iteFst h.r32

theorem Within.roundIf (h : s0.Within A w.s) {b : Bool} {ts us} : s0.Within A (if b then Rows.roundAll w ts else (w, us)).1.s :=
  h.roundAll.iteFst h

theorem sums_normbRow {x dy : Desc} {p : Rows.Pass × List Num × List Num} (hp : Sums A s0 x p)
    {env rms eps g wantG wantB row} (hrow : row ∈ Rows.rowsOf x) :
    Sums A s0 x (Rows.normbRow env rms eps x dy g wantG wantB p row) := by
  have hxs : (Rows.loadRow env x p.1.1 row).2.length = x.ext 0 := Rows.length_loadRow
  have hrows := hp.pass.within.loadRow (env := env) (x := x) (row := row) |>.loadRow (env := env) (x := dy) (row := row)
  obtain ⟨⟨w, items⟩, dg, db⟩ := p
  dsimp only [Rows.normbRow] at hxs hrows ⊢
  refine ⟨?_, length_roundTerms hp.gamma, length_roundTerms hp.beta⟩
  refine hp.pass.append ?_ (Rows.rowItems_mem hrow ?_)
  · exact hrows.normStats.roundAll.roundAll.roundedSum.roundedSum.r32If.r32.roundIf.roundIf
  · rw [List.length_map, List.length_zip, Rows.length_roundAll, Rows.length_roundAll, List.length_map, List.length_map]
    omega

/-- A vector holds no blocks where it is of kind 7 (R77). -/
theorem blockEn_of_kind {d : Desc} (hok : d.ok = true) (hk : d.kind = 7) : d.blockEn = false := by
  obtain ⟨f, -, -, -, -, hb, -⟩ := Desc.of_ok hok
  rw [hk] at hb
  by_contra hen
  rw [Bool.not_eq_false] at hen
  simp [blockOk, hen] at hb

/-- Element `k` of a tensor of rank 1, by its full coordinates. -/
theorem vec_mem {d : Desc} (hr : d.rank = 1) {k : Nat} (hk : k < d.ext 0) : [k, 0, 0, 0, 0, 0] ∈ allIdx d.exts := by
  have hone (i : Nat) (hi : 1 ≤ i) : d.ext i = 1 := by rw [Desc.ext, if_pos (hr ▸ hi)]
  have hexts : d.exts = [d.ext 0, 1, 1, 1, 1, 1] := by
    simp [Desc.exts, List.range_succ, hone]
  rw [mem_allIdx, hexts]
  simpa using hk

theorem bitAddr_vec {d : Desc} {f : Fmt} {k : Nat} : d.bitAddr f [k] = d.bitAddr f [k, 0, 0, 0, 0, 0] := by
  have h (i : Nat) : ([k].map fun n : Nat => (n : Int)).getD i 0 = ([k, 0, 0, 0, 0, 0].map fun n : Nat => (n : Int)).getD i 0 := by
    rcases i with _ | _ | _ | _ | _ | _ | i <;> rfl
  simp only [Desc.bitAddr, Desc.bitAddrZ, h]

/-- Sums are added into elements of a vector. -/
theorem Within.addInto (h : s0.Within A w.s) {env : Env} {d : Desc} (hA : ∀ b, Touched (d.allSpans env.warm) b → A b)
    (hb : d.blockEn = false) (hr : d.rank = 1) {sums : List Num} (hl : sums.length ≤ d.ext 0) :
    s0.Within A (Rows.addInto env d w sums).s := by
  unfold Rows.addInto Work.putItems
  rw [hb]
  refine h.foldlWork fun w i hi h => h.workPutElem fun b hb => ?_
  obtain ⟨k, hk, rfl⟩ := List.mem_mapIdx.1 hi
  rw [bitAddr_vec] at hb
  exact Within.elem_bytes hA (vec_mem hr (by omega)) b hb

/-- What the checks say of dγ and dβ. -/
theorem normbVector {i : Nat} {x d : Desc}
    (h : c.when1 s i (fun d => d.kind == 7) ++ c.when2 s 0 i (fun x d => d.rank == 1 && d.ext 0 == x.ext 0) ++
      [0, 1, 2].flatMap (fun k => c.apart s k i) = []) (hx : c.tensor? s 0 = some x) (hd : c.tensor? s i = some d) :
    d.blockEn = false ∧ d.rank = 1 ∧ d.ext 0 = x.ext 0 := by
  simp only [List.append_eq_nil_iff] at h
  obtain ⟨⟨hk, hs⟩, -⟩ := h
  have hkind : (d.kind == 7) = true := Cmd.of_when1 hk hd
  have hshape : (d.rank == 1 && d.ext 0 == x.ext 0) = true := Cmd.of_when2 hs hx hd
  obtain ⟨hr, he⟩ := Bool.and_eq_true_iff.1 hshape
  exact ⟨blockEn_of_kind (Cmd.ok_of_tensor? hd) (eq_of_beq hkind), eq_of_beq hr, eq_of_beq he⟩

theorem completes_normbBody (hc : Rows.normbChecks c s = []) (hp : s.poisoned = []) (heps : Rows.epsOk (Rows.epsOf c) = true) :
    Completes (Touched (c.slotSpans s [3, 4, 5])) c true s (Rows.normbBody c s) := by
  unfold Rows.normbChecks at hc
  extract_lets sl at hc
  simp only [List.append_eq_nil_iff] at hc
  obtain ⟨⟨⟨⟨⟨⟨⟨⟨⟨-, h0⟩, h1⟩, -⟩, h3⟩, -⟩, -⟩, hrows⟩, -⟩, hvecs⟩ := hc
  obtain ⟨x, hx⟩ := Cmd.exists_tensor?_of_needed h0
  obtain ⟨dy, hdy⟩ := Cmd.exists_tensor?_of_needed h1
  obtain ⟨dx, hdx⟩ := Cmd.exists_tensor?_of_dest h3
  unfold Rows.normbBody
  extract_lets eps env gd og ob
  have hog {d : Desc} (hd : d ∈ og.toList) : c.tensor? s 4 = some d := Option.mem_toList.1 hd
  have hob {d : Desc} (hd : d ∈ ob.toList) : c.tensor? s 5 = some d := Option.mem_toList.1 hd
  clear_value gd og ob
  simp only [hx, hdy, hdx, eps, heps, Bool.not_true, Bool.false_eq_true, if_false]
  refine completes_within hp fun w h => Within.iteFst h ?_
  dsimp only
  have hadd {i : Nat} (hi : i ∈ [4, 5]) {d : Desc} (hd : c.tensor? s i = some d) {w : Work} {sums : List Num}
      (h : s.Within (Touched (c.slotSpans s [3, 4, 5])) w.s) (hl : sums.length ≤ x.ext 0) :
      s.Within (Touched (c.slotSpans s [3, 4, 5])) (Rows.addInto env d w sums).s := by
    obtain ⟨hb, hr, he⟩ := normbVector (List.flatMap_eq_nil_iff.1 hvecs i hi) hx hd
    have hA := Cmd.touched_slotSpans (hs := [3, 4, 5]) (List.mem_cons_of_mem _ hi) hd
    exact h.addInto (env := env) hA hb hr (hl.trans he.ge)
  generalize hy : List.foldl _ (_, _) (Rows.rowsOf x) = y
  have hsums : Sums (Touched (c.slotSpans s [3, 4, 5])) s x y := by
    rw [← hy]
    refine List.foldlRecOn (motive := Sums _ s x) _ _ ⟨.nil h.loadVec, ?_, ?_⟩ fun p hp row hrow => sums_normbRow hp hrow
    · exact List.length_replicate.le
    · exact List.length_replicate.le
  refine Within.foldlWork (Within.foldlWork ?_ fun w d hd h => hadd (by decide) (hog hd) h hsums.gamma)
    fun w d hd h => hadd (by decide) (hob hd) h hsums.beta
  exact hsums.pass.putPass (Cmd.touched_slotSpans (by decide) hdx) (Cmd.wholeBlocks_of_tensor? hdx)
    (exts_of_rowChecks hrows (List.mem_singleton_self 3) hx hdx)

end State

end Sys2Proof.Machine
end

section
/-! STASH and UNSTASH complete (R152 to R158): what they write of memory lies in the share and in the header table of the queue, or is
a byte of the tensor restored. -/

namespace Sys2Proof.Machine.State

variable {A : Nat → Prop} {s0 s : State} {w : Work} {c : Cmd}

theorem poisonMet_of_poisoned_nil (hp : s.poisoned = []) (read wrote : List Span) : s.poisonMet read wrote = none := by
  rw [poisonMet, hp]
  rfl

theorem poisonIn_of_poisoned_nil (hp : s.poisoned = []) (a n : Nat) : s.poisonIn a n = false := by
  rw [poisonIn, hp]
  rfl

namespace Within

theorem store (h : s0.Within A s) {a : Nat} {bs : List Byte} (hA : ∀ b, a ≤ b → b < a + bs.length → A b) :
    s0.Within A (s.store a bs) := h.trans ⟨.store hA, rfl⟩

theorem storeNat (h : s0.Within A s) {a n v : Nat} (hA : ∀ b, a ≤ b → b < a + n → A b) : s0.Within A (s.storeNat a n v) :=
  h.trans ⟨.storeNat hA, rfl⟩

end Within

/-- The header table of a queue's share: its header and 1,023 entries (R153). -/
def tableSpan (c : Cmd) : Span := byteSpan c.q.hdr (0x40 + 0x40 * 1023)

theorem touched_byteSpan {sps : List Span} {a n : Nat} (h : byteSpan a n ∈ sps) {b : Nat} (h1 : a ≤ b) (h2 : b < a + n) :
    Touched sps b := ⟨_, h, meets_byteSpan h1 h2⟩

theorem touched_table {sps : List Span} (h : tableSpan c ∈ sps) {b : Nat} (h1 : c.q.hdr ≤ b) (h2 : b < c.q.hdr + 0x10000) :
    Touched sps b := touched_byteSpan h h1 h2

theorem length_entryBytes {st h step off len : Nat} : (Stash.entryBytes st h step off len).length = 64 := by
  simp [Stash.entryBytes, toLe_length]

theorem le_up (b : Nat) : b ≤ Stash.up b := by
  unfold Stash.up ceilDiv
  omega

/-- A new entry, and the counts of the header. -/
theorem Within.pushEntry (h : s0.Within A s) (hA : ∀ b, c.q.hdr ≤ b → b < c.q.hdr + 0x10000 → A b) {count : Nat} (hc : count < 1023)
    {st hd step off len v1 v2 : Nat} :
    s0.Within A (((s.store (Stash.entryAddr c.q.hdr count) (Stash.entryBytes st hd step off len)).storeNat (c.q.hdr + 8) 4
      v1).storeNat (c.q.hdr + 0xC) 4 v2) := by
  refine ((h.store fun b h1 h2 => ?_).storeNat fun b h1 h2 => hA b (by omega) (by omega)).storeNat fun b h1 h2 =>
    hA b (by omega) (by omega)
  rw [length_entryBytes] at h2
  unfold Stash.entryAddr at h1 h2
  exact hA b (by omega) (by omega)

/-- The bits that a STASH may write. -/
def stashSpans (c : Cmd) : List Span := [byteSpan (c.job.stashBase + c.q.shareOff) c.q.share, tableSpan c]

/-- A STASH has a free entry, and room in the share or a tensor that it may drop (R157). -/
def stashRoom (c : Cmd) (s : State) : Prop :=
  c.q.generate = true ∨ (c.q.share ≠ 0 ∧ s.read (c.q.hdr + 0xC) 4 < 1023 ∧
    ∀ d, c.tensor? s 0 = some d →
      s.read c.q.hdr 8 + Stash.up (Stash.addrs d c.warm).length ≤ c.q.share ∨ d.recomputable = true)

/-- The work that copies the bytes of a tensor to the top of the share. -/
def stashed (c : Cmd) (s : State) (as_ : List Nat) : Work :=
  let w := Work.start (s.recallSpans (as_.map (byteSpan · 1))) c.job
  if as_.length = 0 then w else w.put (c.job.stashBase + c.q.shareOff + s.read c.q.hdr 8) (as_.map s.byte)

theorem completes_stashBody (hc : Stash.checks c s = []) (hp : s.poisoned = []) (hr : stashRoom c s) :
    Completes (Touched (stashSpans c)) c true s (Stash.body c s) := by
  obtain ⟨d, hd⟩ := Cmd.exists_tensor?_of_needed (List.append_eq_nil_iff.1 hc).2
  have hA (b : Nat) (h1 : c.q.hdr ≤ b) (h2 : b < c.q.hdr + 0x10000) : Touched (stashSpans c) b :=
    touched_table (List.mem_cons_of_mem _ List.mem_cons_self) h1 h2
  unfold Stash.body
  by_cases hg : c.q.generate = true
  · rw [if_pos hg]
    exact completes_ok
  obtain hg1 | ⟨hshare, hcount, hroom⟩ := hr
  · exact absurd hg1 hg
  rw [if_neg hg, if_neg hshare, hd]
  dsimp only
  rw [poisonIn_of_poisoned_nil hp, if_neg (by decide), if_neg (Nat.not_le.2 hcount)]
  split
  next htop =>
    rw [poisonMet_of_poisoned_nil hp]
    have hdata : s.Within (Touched (stashSpans c)) (stashed c s (Stash.addrs d c.warm)).s := by
      refine Within.iteWork .workStart (Within.workPut .workStart fun b h1 h2 => ?_)
      have := le_up (Stash.addrs d c.warm).length
      rw [List.length_map] at h2
      exact touched_byteSpan List.mem_cons_self (by omega) (by omega)
    refine ⟨_, _, _, rfl, Within.left ?_⟩
    exact ((hdata.workClose.unpoison.pushEntry hA hcount).storeNat fun b h1 h2 => hA b h1 (by omega)).storeNat fun b h1 h2 =>
      hA b (by omega) (by omega)
  next htop =>
    rw [if_pos ((hroom d hd).resolve_left htop), poisonIn_of_poisoned_nil hp, if_neg (by decide)]
    exact ⟨_, _, _, rfl, (Within.pushEntry .refl hA hcount).storeNat (fun b h1 h2 => hA b (by omega) (by omega)) |>.left⟩

/-! ### UNSTASH -/

/-- The entry that UNSTASH selects is one of those counted. -/
theorem find_lt {hdr count handle i : Nat} (h : Stash.find s hdr count handle = some i) : i < count :=
  List.mem_range.1 (List.mem_reverse.1 (List.mem_of_find?_eq_some h))

theorem Within.release (h : s0.Within A s) (hA : ∀ b, c.q.hdr ≤ b → b < c.q.hdr + 0x10000 → A b) {count i : Nat} (hi : i < 1023) :
    s0.Within A (Stash.release s c.q.hdr count i) := by
  refine ((h.storeNat fun b h1 h2 => ?_).storeNat fun b h1 h2 => hA b (by omega) (by omega)).storeNat fun b h1 h2 =>
    hA b h1 (by omega)
  unfold Stash.entryAddr at h1 h2
  exact hA b (by omega) (by omega)

/-- The bits that an UNSTASH may write. -/
def unstashSpans (c : Cmd) (s : State) : List Span :=
  tableSpan c :: (c.tensor? s 0).toList.flatMap fun d => (Stash.addrs d c.warm).map (byteSpan · 1)

/-- An UNSTASH finds an entry of its tensor, marked for recomputation or of the tensor's length (R158). -/
def stashEntry (c : Cmd) (s : State) : Prop :=
  c.q.generate = true ∨ (c.q.share ≠ 0 ∧
    ∀ d, c.tensor? s 0 = some d → ∃ i, Stash.find s c.q.hdr (min (s.read (c.q.hdr + 0xC) 4) 1023) d.handle = some i ∧
      (Stash.entryState s c.q.hdr i = 2 ∨ (Stash.addrs d c.warm).length = s.read (Stash.entryAddr c.q.hdr i + 16) 8))

/-- Bytes go back to their places in the tensor. -/
theorem Within.restored (h : s0.Within A w.s) {as_ : List Nat} {bs : List Byte} (hA : ∀ b ∈ as_, A b) :
    s0.Within A ((as_.zip bs).foldl (fun w p => w.put p.1 [p.2]) w).s := by
  refine h.foldlWork fun w p hp h => h.workPut fun b h1 h2 => ?_
  have hb : b = p.1 := by simp only [List.length_singleton] at h2; omega
  exact hb ▸ hA p.1 (List.of_mem_zip hp).1

theorem completes_unstashBody (hc : Stash.unChecks c s = []) (hp : s.poisoned = []) (he : stashEntry c s) :
    Completes (Touched (unstashSpans c s)) c false s (Stash.unBody c s) := by
  obtain ⟨d, hd⟩ := Cmd.exists_tensor?_of_needed (List.append_eq_nil_iff.1 hc).2
  have hA (b : Nat) (h1 : c.q.hdr ≤ b) (h2 : b < c.q.hdr + 0x10000) : Touched (unstashSpans c s) b :=
    touched_table List.mem_cons_self h1 h2
  have hresult {t : State} {v : W64} (h : s.Within (Touched (unstashSpans c s)) t) :
      Completes (Touched (unstashSpans c s)) c false s (.ok (Reduce.setReg t c.q.id c.slot.sA v) 0 0) :=
    ⟨_, _, _, rfl, h.left.trans left_setReg⟩
  unfold Stash.unBody
  by_cases hg : c.q.generate = true
  · rw [if_pos hg]
    exact hresult .refl
  obtain hg1 | ⟨hshare, hentry⟩ := he
  · exact absurd hg1 hg
  obtain ⟨i, hi, hstate⟩ := hentry d hd
  have hlt : i < 1023 := (find_lt hi).trans_le (Nat.min_le_right _ _)
  rw [if_neg hg, if_neg hshare, hd]
  dsimp only
  rw [poisonMet_of_poisoned_nil hp, hi]
  dsimp only
  split
  next => exact hresult (Within.refl.release hA hlt)
  next hst =>
    rw [if_neg (not_not_intro (hstate.resolve_left hst)), poisonMet_of_poisoned_nil hp]
    refine hresult (Within.release (Within.unpoison (Within.workClose (Within.restored .workStart fun b hb => ?_))) hA hlt)
    refine touched_byteSpan (n := 1) (List.mem_cons_of_mem _ ?_) (Nat.le_refl b) (Nat.lt_succ_self b)
    rw [hd]
    exact List.mem_flatMap.2 ⟨d, List.mem_singleton_self d, List.mem_map_of_mem hb⟩

end Sys2Proof.Machine.State
end

section
open Sys2Proof.Machine Sys2Proof.Machine.State
namespace Sys2Proof.Proofs

/-- Settles O2: the body of each row completes, and the end of a command writes into the rings of its queue alone. -/
theorem tensorMacroOps : Obligations.TensorMacroOps := by
  constructor
  · simp only [List.forall_mem_cons]
    exact ⟨exec_of_ok fun _ _ => rfl, exec_of_ok fun _ _ => rfl, exec_of_ok fun _ _ => rfl, exec_of_ok fun _ _ => rfl,
      exec_of_ok fun _ _ => rfl, exec_of_ok fun _ _ => rfl, exec_of_ok fun _ _ => rfl, exec_of_ok fun _ _ => rfl,
      exec_of_ok fun _ _ => rfl, exec_of_ok fun _ _ => rfl, exec_of_ok fun _ _ => rfl, exec_of_ok fun _ _ => rfl,
      exec_of_ok fun _ _ => rfl, exec_of_ok fun _ _ => rfl, exec_of_ok fun _ _ => rfl, exec_of_ok fun _ _ => rfl,
      exec_of_ok fun _ _ => rfl, exec_of_ok fun _ _ => rfl, exec_of_ok fun _ _ => rfl, exec_of_ok fun _ _ => rfl,
      exec_of_ok fun _ _ => rfl, List.forall_mem_nil _⟩
  · intro at_ any table bounds eps room entry
    refine List.forall_mem_cons.2 ⟨exec_of_completes (fun _ _ => rfl) fun c s hc hp _ => completes_loadBody hc hp, ?_⟩
    refine List.forall_mem_cons.2 ⟨exec_of_completes (fun _ _ => rfl) fun c s hc hp _ => completes_storeBody hc hp, ?_⟩
    refine List.forall_mem_cons.2 ⟨exec_of_completes (fun _ _ => rfl) fun c s hc hp _ => completes_moveBody hc hp, ?_⟩
    refine List.forall_mem_cons.2 ⟨exec_of_completes (fun _ _ => rfl) fun c s hc hp _ => completes_moveBody hc hp, ?_⟩
    refine List.forall_mem_cons.2 ⟨exec_of_completes (fun _ _ => rfl) fun c s hc hp _ => completes_fillBody hc hp, ?_⟩
    refine List.forall_mem_cons.2 ⟨exec_of_completes (fun _ _ => rfl) fun c s hc hp _ => completes_gatherBody hc hp, ?_⟩
    refine List.forall_mem_cons.2 ⟨exec_of_completes (fun _ _ => rfl) fun c s hc hp _ => completes_scatterBody hc hp, ?_⟩
    refine List.forall_mem_cons.2 ⟨exec_of_completes (fun _ _ => rfl) fun c s hc hp _ => completes_rngBody hc hp, ?_⟩
    refine List.forall_mem_cons.2 ⟨exec_of_completes (fun _ _ => rfl) fun c s hc hp hb => completes_gemmBody hc hp hb, ?_⟩
    refine List.forall_mem_cons.2 ⟨exec_of_completes (fun _ _ => rfl) fun c s hc hp hb => completes_gemmBody hc hp hb, ?_⟩
    refine List.forall_mem_cons.2 ⟨exec_of_completes (fun _ _ => rfl) fun c s hc hp _ => completes_bwdBody hc hp, ?_⟩
    refine List.forall_mem_cons.2 ⟨exec_of_completes (fun _ _ => rfl) fun c s hc hp _ => completes_ewBody hc hp, ?_⟩
    refine List.forall_mem_cons.2 ⟨exec_of_completes (fun _ _ => rfl) fun c s hc hp _ => completes_ewBody hc hp, ?_⟩
    refine List.forall_mem_cons.2 ⟨exec_of_completes (fun _ _ => rfl) fun c s hc hp _ => completes_reduceBody hc hp, ?_⟩
    refine List.forall_mem_cons.2 ⟨exec_of_completes (fun _ _ => rfl) fun c s hc hp _ => completes_argredBody hc hp, ?_⟩
    refine List.forall_mem_cons.2 ⟨exec_of_completes (fun _ _ => rfl) fun c s hc hp he => completes_normBody hc hp he, ?_⟩
    refine List.forall_mem_cons.2 ⟨exec_of_completes (fun _ _ => rfl) fun c s hc hp he => completes_normbBody hc hp he, ?_⟩
    refine List.forall_mem_cons.2 ⟨exec_of_completes (fun _ _ => rfl) fun c s hc hp _ => completes_smaxBody hc hp, ?_⟩
    refine List.forall_mem_cons.2 ⟨exec_of_completes (fun _ _ => rfl) fun c s hc hp _ => completes_smaxbBody hc hp, ?_⟩
    refine List.forall_mem_cons.2 ⟨exec_of_completes (fun _ _ => rfl) fun c s hc hp hr => completes_stashBody hc hp hr, ?_⟩
    refine List.forall_mem_cons.2 ⟨exec_of_completes (fun _ _ => rfl) fun c s hc hp he => completes_unstashBody hc hp he, ?_⟩
    exact List.forall_mem_nil _

end Sys2Proof.Proofs
end

section
/-! How the row of a control macro-op ends: its command is in hand and passes its checks, and the end of its body settles its queue
(R201 to R203, R230 to R260). -/

namespace Sys2Proof.Machine.State

variable {s : State} {qid : Nat} {c : Cmd}

/-! ### The state in which a command is decided -/

/-- Deciding a command makes cached blocks clean and puts its first word into its queue; nothing else changes. -/
theorem deciding_eq (s : State) (c : Cmd) : ∃ cs, s.deciding c = ({ s with caches := cs } : State).setQueue c.q := by
  obtain ⟨cs, h⟩ := s.fetched_eq c.q c.job c.slot
  exact ⟨cs, congrArg (setQueue · c.q) h⟩

@[simp] theorem deciding_rings (s : State) (c : Cmd) : (s.deciding c).rings = s.rings := by
  obtain ⟨cs, h⟩ := s.deciding_eq c
  rw [h]
  rfl

@[simp] theorem deciding_read64 (s : State) (c : Cmd) (a : Nat) : (s.deciding c).read64 a = s.read64 a := by
  obtain ⟨cs, h⟩ := s.deciding_eq c
  rw [h]
  rfl

@[simp] theorem deciding_poisonIn (s : State) (c : Cmd) (a n : Nat) : (s.deciding c).poisonIn a n = s.poisonIn a n := by
  obtain ⟨cs, h⟩ := s.deciding_eq c
  rw [h]
  rfl

@[simp] theorem deciding_ring? (s : State) (c : Cmd) (k : Nat) : (s.deciding c).ring? k = s.ring? k := by
  obtain ⟨cs, h⟩ := s.deciding_eq c
  rw [h]
  rfl

@[simp] theorem deciding_ringFull (s : State) (c : Cmd) (r : RingQ) : (s.deciding c).ringFull r = s.ringFull r := by
  obtain ⟨cs, h⟩ := s.deciding_eq c
  rw [h]
  rfl

@[simp] theorem deciding_ringLine (s : State) (c : Cmd) (r : RingQ) : (s.deciding c).ringLine r = s.ringLine r := by
  obtain ⟨cs, h⟩ := s.deciding_eq c
  rw [h]
  rfl

@[simp] theorem deciding_group? (s : State) (c : Cmd) (k : Nat) : (s.deciding c).group? k = s.group? k := by
  obtain ⟨cs, h⟩ := s.deciding_eq c
  rw [h]
  rfl

/-- The queue of a command in hand holds the first word of its slot. -/
theorem inHand_cur (h : s.inHand qid = some c) : BitVec.ofNat 32 c.slot = c.q.cur := by
  obtain ⟨q, -, -, -, -, -, -, hcq, -⟩ := inHand_eq_some h
  rw [hcq]

/-- The queue of a command in hand is found as the command's body sets it. -/
theorem queue?_deciding_setQueue (h : s.inHand qid = some c) {q : CmdQueue} (hid : q.id = c.q.id) :
    ((s.deciding c).setQueue q).queue? c.q.id = some q :=
  queue?_setQueue_of_id hid (queue?_deciding h)

/-- A write of a scalar register of the command's queue sets that queue. -/
theorem setReg_deciding (s : State) (c : Cmd) (i : Nat) (v : W64) :
    Reduce.setReg (s.deciding c) c.q.id i v = (s.deciding c).setQueue { c.q with sregs := c.q.sregs.set i v } := by
  obtain ⟨cs, h⟩ := s.deciding_eq c
  rw [h]
  simp only [Reduce.setReg, setQueue, List.map_map]
  congr 2
  funext x
  by_cases hx : x.id = c.q.id <;> simp [hx]

/-! ### Whether a completion waits (R205) -/

/-- Whether a completion waits depends on memory, on the rings and on what its queue says of its command. -/
theorem cqBlocked_congr {t u : State} {q q1 : CmdQueue} (hm : u.mem = t.mem) (hr : u.rings = t.rings) (hcur : q1.cur = q.cur)
    (hcq : q1.cq = q.cq) (st : Status) : u.cqBlocked q1 st = t.cqBlocked q st := by
  unfold cqBlocked ring? ringFull read64 read
  rw [hm, hr, hcur, hcq]

/-! ### The row -/

variable {o : Op} {mine : Slot → Bool} {chk : Cmd → State → List Fail} {body : Cmd → State → Res}

/-- A row that takes some of the slots of an opcode runs the command in hand where the slot is one of them. -/
theorem runMacro_of_mine (h : s.inHand qid = some c) (ho : isOp o c.slot = true) (hm : mine c.slot = true) :
    s.runMacro mine chk body qid = (s.deciding c).runCmd c c.q chk body := by
  obtain ⟨q, hq, hj, hw, -⟩ := inHand_eq_some h
  rw [← runMacro_inHand h ho]
  simp only [runMacro, hq, hj, ← hw, ho, hm]

/-- The command of a row is in hand and passes its checks. -/
structure Runs (o : Op) (mine : Slot → Bool) (chk : Cmd → State → List Fail) (s : State) (qid : Nat) (c : Cmd) : Prop where
  hand : s.inHand qid = some c
  op : isOp o c.slot = true
  mine : mine c.slot = true
  passes : worst (chk c (s.deciding c)) = none

namespace Runs

variable {s1 : State} {q1 : CmdQueue} {a b : Nat} {next : W64} {w : Wait} {st : Status} {hs : Option Nat}

theorem settles (h : Runs o mine chk s qid c) :
    s.runMacro mine chk body qid = settleRes c c.q (body c (s.deciding c)) (s.deciding c) := by
  rw [runMacro_of_mine h.hand h.op h.mine, runCmd_of_passes h.passes]

/-- The body ends with OK: the queue goes on at the next position. -/
theorem ok (h : Runs o mine chk s qid c) (hr : body c (s.deciding c) = .ok s1 a b) (hq : s1.queue? c.q.id = some q1)
    (hb : s1.cqBlocked q1 .ok = false) : s.runMacro mine chk body qid = s1.doneAt q1 (q1.pos + 1) a b := by
  rw [h.settles, hr, settleRes, hq]
  exact complete_of_free hb

/-- The body goes on at another position. -/
theorem jump (h : Runs o mine chk s qid c) (hr : body c (s.deciding c) = .jump s1 next) (hq : s1.queue? c.q.id = some q1)
    (hb : s1.cqBlocked q1 .ok = false) : s.runMacro mine chk body qid = s1.doneAt q1 next 0 0 := by
  rw [h.settles, hr, settleRes, hq]
  exact complete_of_free hb

/-- The body waits. -/
theorem wait (h : Runs o mine chk s qid c) (hr : body c (s.deciding c) = .wait s1 w) (hq : s1.queue? c.q.id = some q1) :
    s.runMacro mine chk body qid = s1.setQueue { q1 with state := .waiting, wait := w, next := q1.pos + 1 } := by
  rw [h.settles, hr, settleRes, hq]

/-- The body halts its queue. -/
theorem halt (h : Runs o mine chk s qid c) (hr : body c (s.deciding c) = .halt s1) (hq : s1.queue? c.q.id = some q1)
    (hb : s1.cqBlocked q1 .halted = false) :
    s.runMacro mine chk body qid = s1.finish q1 { status := .halted, next := q1.pos + 1, countA := 0, countB := 0 } := by
  rw [h.settles, hr, settleRes, hq]
  exact complete_of_free hb

/-- The body fails a check of its own. -/
theorem fail (h : Runs o mine chk s qid c) (hr : body c (s.deciding c) = .fail st hs) :
    s.runMacro mine chk body qid = (s.deciding c).complete c.q (failDone c.q st hs) := by
  rw [h.settles, hr, settleRes]

/-! ### Bodies that change at most their own queue -/

theorem queue?_own (h : Runs o mine chk s qid c) : (s.deciding c).queue? c.q.id = some c.q := queue?_deciding h.hand

/-- The body sets its queue and ends with OK. -/
theorem okSet (h : Runs o mine chk s qid c) (hr : body c (s.deciding c) = .ok ((s.deciding c).setQueue q1) 0 0)
    (hid : q1.id = c.q.id) (hcur : q1.cur = c.q.cur) (hcq : q1.cq = c.q.cq) (hb : s.cqBlocked c.q .ok = false) :
    s.runMacro mine chk body qid = ((s.deciding c).setQueue q1).doneAt q1 (q1.pos + 1) 0 0 :=
  h.ok hr (queue?_deciding_setQueue h.hand hid)
    ((cqBlocked_congr rfl rfl hcur hcq _).trans ((cqBlocked_deciding ..).trans hb))

/-- The body sets its queue and goes on elsewhere. -/
theorem jumpSet (h : Runs o mine chk s qid c) (hr : body c (s.deciding c) = .jump ((s.deciding c).setQueue q1) next)
    (hid : q1.id = c.q.id) (hcur : q1.cur = c.q.cur) (hcq : q1.cq = c.q.cq) (hb : s.cqBlocked c.q .ok = false) :
    s.runMacro mine chk body qid = ((s.deciding c).setQueue q1).doneAt q1 next 0 0 :=
  h.jump hr (queue?_deciding_setQueue h.hand hid)
    ((cqBlocked_congr rfl rfl hcur hcq _).trans ((cqBlocked_deciding ..).trans hb))

/-- The body changes nothing and ends with OK. -/
theorem okSame (h : Runs o mine chk s qid c) (hr : body c (s.deciding c) = .ok (s.deciding c) 0 0)
    (hb : s.cqBlocked c.q .ok = false) : s.runMacro mine chk body qid = (s.deciding c).doneAt c.q (c.q.pos + 1) 0 0 :=
  h.ok hr h.queue?_own ((cqBlocked_deciding ..).trans hb)

end Runs

end Sys2Proof.Machine.State
end

section
/-! The integer operations of SCAL (R230). -/

namespace Sys2Proof.Machine

open State

variable {s : State} {qid : Nat} {c : Cmd}

/-- A flag of operand byte 0x1E is a bit of the slot. -/
theorem flag_eq_testBit (w : Slot) : flag w 0x1E 0 = w.testBit 240 := by
  simp [flag, bitAt, Slot.operand, bitsAt]

/-! ### SCAL -/

namespace Scal

/-- An integer operation writes its result to sA (R230). -/
theorem body_of_integer {o : Nat} (ho : Scal.op c.slot = o) (hle : o ≤ 0xD) (s : State) :
    body c s = .ok (Reduce.setReg s c.q.id c.slot.sA
      (compute o (c.reg c.slot.sB) (regOrImm c (bimm c.slot) c.slot.sC 0x20) (c.reg c.slot.sD))) 0 0 := by
  have hmem : isMem o = false := by simp only [isMem, Bool.or_eq_false_iff, beq_eq_false_iff_ne]; omega
  have hget : ¬ o = 0x20 := by omega
  simp only [body, ho, hmem, hget, Bool.false_eq_true, if_false]

/-- The code of an operation and a function of B and C: the operation is one on integers, and the function is what it computes. -/
def Integer (o : Nat × (W64 → W64 → W64)) : Prop := o.1 ≤ 0xD ∧ ∀ b c d, compute o.1 b c d = o.2 b c

/-- The row of an integer operation sets sA of its own queue. -/
theorem Integer.exec_scal {o : Nat × (W64 → W64 → W64)} (ho : Integer o) {s : State} {qid : Nat} {c : Cmd}
    (h : Runs .scal (isOp .scal) checks s qid c) (hop : op c.slot = o.1) (hb : s.cqBlocked c.q .ok = false) :
    let x := regOrImm c (bimm c.slot) c.slot.sC 0x20
    let q1 := { c.q with sregs := c.q.sregs.set c.slot.sA (o.2 (c.reg c.slot.sB) x) }
    exec (.scal qid) s = .next (((s.deciding c).setQueue q1).doneAt q1 (q1.pos + 1) 0 0) := by
  intro x q1
  obtain ⟨hle, hf⟩ := ho
  have hbody : body c (s.deciding c) = .ok ((s.deciding c).setQueue q1) 0 0 := by
    rw [body_of_integer hop hle, setReg_deciding, hf]
  exact congrArg Host.Outcome.next (h.okSet hbody rfl rfl rfl hb)

theorem idiv_eq (b c : W64) : idiv b c = if c = 0 then -1 else BitVec.ofInt 64 (Int.tdiv b.toInt c.toInt) := rfl

theorem irem_eq (b c : W64) : irem b c = if c = 0 then b else BitVec.ofInt 64 (Int.tmod b.toInt c.toInt) := by
  rw [irem, Int.tmod_def]

/-- Of two equal numbers either is the smaller. -/
theorem compute_min (b c d : W64) : compute 0x0C b c d = if b.toInt ≤ c.toInt then b else c := by
  have hmin : compute 0x0C b c d = if c.toInt < b.toInt then c else b := rfl
  simp only [hmin, ← not_le, ite_not]

theorem compute_max (b c d : W64) : compute 0x0D b c d = if b.toInt ≤ c.toInt then c else b := by
  have hmax : compute 0x0D b c d = if b.toInt < c.toInt then c else b := rfl
  rw [hmax]
  rcases lt_trichotomy b.toInt c.toInt with h | h | h
  · rw [if_pos h, if_pos h.le]
  · rw [if_neg h.not_lt, if_pos h.le, BitVec.eq_of_toInt_eq h]
  · rw [if_neg h.not_gt, if_neg h.not_ge]

end Scal

end Sys2Proof.Machine
end

section
open Sys2Proof.Machine Sys2Proof.Machine.State
namespace Sys2Proof.Proofs

/-- Settles O5: an integer SCAL sets the register of its own queue; the other rows change at most their queue or their job's
request, and complete. -/
theorem scalarAndControlOps : Obligations.ScalarAndControlOps := by
  constructor
  · intro o ho s qid c h hop hcode hw hb
    refine Scal.Integer.exec_scal ?_ (.mk h hop hop hw) hcode hb
    clear hcode
    revert o
    simp only [List.forall_mem_cons]
    exact ⟨⟨by decide, fun _ _ _ => rfl⟩, ⟨by decide, fun _ _ _ => rfl⟩, ⟨by decide, fun _ _ _ => rfl⟩,
      ⟨by decide, fun _ _ _ => rfl⟩, ⟨by decide, fun b c _ => Scal.idiv_eq b c⟩, ⟨by decide, fun b c _ => Scal.irem_eq b c⟩,
      ⟨by decide, fun _ _ _ => rfl⟩, ⟨by decide, fun _ _ _ => rfl⟩, ⟨by decide, fun _ _ _ => rfl⟩,
      ⟨by decide, fun _ _ _ => rfl⟩, ⟨by decide, fun _ _ _ => rfl⟩, ⟨by decide, fun _ _ _ => rfl⟩,
      ⟨by decide, Scal.compute_min⟩, ⟨by decide, Scal.compute_max⟩, List.forall_mem_nil _⟩
  · intro s qid c h hb hbh
    refine ⟨fun ho => ?_, fun ho hw => ?_, fun ho hw => ?_, fun ho hw => ?_, fun ho hw ha => ?_, fun ho hw => ?_⟩
    · exact congrArg Host.Outcome.next ((Runs.mk (chk := nopChecks) h ho ho rfl).okSame rfl hb)
    · exact congrArg Host.Outcome.next ((Runs.mk h ho ho hw).okSame rfl hb)
    · refine congrArg Host.Outcome.next ((Runs.mk h ho ho hw).okSet ?_ rfl rfl rfl hb)
      rw [phaseBody, inHand_cur h, flag_eq_testBit]
    · refine congrArg Host.Outcome.next ((Runs.mk h ho ho hw).ok rfl (queue?_deciding h) ?_)
      exact (cqBlocked_congr rfl rfl rfl rfl _).trans ((cqBlocked_deciding ..).trans hb)
    · refine congrArg Host.Outcome.next ((Runs.mk h ho ho hw).okSame ?_ hb)
      rw [fenceBody, ha]
      rfl
    · exact congrArg Host.Outcome.next ((Runs.mk h ho ho hw).halt rfl (queue?_deciding h) ((cqBlocked_deciding ..).trans hbh))

end Sys2Proof.Proofs
end

section
/-! The bodies of BR, LAP and ENDLAP (R235 to R241). -/

namespace Sys2Proof.Machine

variable {c : Cmd}

namespace Branch

/-- What the comparison of a branch says. -/
def decided (c : Cmd) : Bool :=
  taken (cond c.slot) (compare (type c.slot) (c.reg c.slot.sA) (regOrImm c (bimm c.slot) c.slot.sB 0x20))

theorem body_of_not_taken (h : decided c = false) (s : State) : body c s = .ok s 0 0 :=
  if_neg (Bool.not_eq_true _ ▸ h)

theorem body_of_taken (h : decided c = true) {s : State} (ht : (c.pos + offset c.slot - s.qwFree c.q).toNat < c.q.slots) :
    body c s = .jump (s.setQueue { c.q with laps := closeLaps (c.pos + offset c.slot) c.q.laps, cur := BitVec.ofNat 32 c.slot })
      (c.pos + offset c.slot) :=
  (if_pos h).trans (if_neg (Nat.not_le.2 ht))

theorem body_of_badTarget (h : decided c = true) {s : State} (ht : ¬ (c.pos + offset c.slot - s.qwFree c.q).toNat < c.q.slots) :
    body c s = .fail .badTarget none :=
  (if_pos h).trans (if_pos (Nat.le_of_not_lt ht))

end Branch

namespace LapOp

/-- The count of a LAP. -/
def count (c : Cmd) : W64 := regOrImm c (cimm c.slot) c.slot.sA 0x20

theorem body_of_zero (h : count c = 0) (s : State) : body c s = .jump s (c.pos + BitVec.ofNat 64 (d c.slot) + 1) := if_pos h

theorem body_of_open (h : count c ≠ 0) (hl : c.q.laps.length < 8) (s : State) :
    body c s = .ok (s.setQueue { c.q with
      laps := { pos := c.pos, d := d c.slot, count := count c, iter := 0 } :: c.q.laps, cur := BitVec.ofNat 32 c.slot }) 0 0 :=
  (if_neg h).trans (if_neg (Nat.not_le.2 hl))

variable {l : Lap} {ls : List Lap}

/-- An ENDLAP of the innermost Lap repeats the body, or closes the Lap (R239). -/
theorem endBody_eq (hl : c.q.laps = l :: ls) (hp : c.pos = l.pos + BitVec.ofNat 64 l.d) (hd : d c.slot = l.d) (s : State) :
    endBody c s =
      if (l.iter + 1).toNat < l.count.toNat then
        .jump (s.setQueue { c.q with laps := { l with iter := l.iter + 1 } :: ls, cur := BitVec.ofNat 32 c.slot }) (l.pos + 1)
      else .ok (s.setQueue { c.q with laps := ls, cur := BitVec.ofNat 32 c.slot }) 0 0 := by
  have hin : ¬ (c.pos ≠ l.pos + BitVec.ofNat 64 l.d ∨ d c.slot ≠ l.d) := not_or.2 ⟨not_not_intro hp, not_not_intro hd⟩
  unfold endBody
  rw [hl]
  exact if_neg hin

end LapOp

end Sys2Proof.Machine
end

section
open Sys2Proof.Machine Sys2Proof.Machine.State
namespace Sys2Proof.Proofs

/-- Settles O6: a taken branch jumps from its queue without the Laps that it leaves, or has no target; LAP and ENDLAP jump, or go
on, with the Lap opened, counted or closed. -/
theorem branchesAndLaps : Obligations.BranchesAndLaps := by
  constructor
  · intro s qid c h ho hw b taken target held q1 hb
    have hrun : Runs .br (isOp .br) Branch.checks s qid c := ⟨h, ho, ho, hw⟩
    have hcur := inHand_cur h
    refine ⟨fun ht => ?_, fun ht hin => ?_, fun ht hout => ?_⟩
    · exact congrArg Host.Outcome.next (hrun.okSame (Branch.body_of_not_taken ht _) hb)
    · exact congrArg Host.Outcome.next
        (hrun.jumpSet (q1 := q1) ((Branch.body_of_taken ht hin).trans (by rw [hcur]; rfl)) rfl rfl rfl hb)
    · exact congrArg Host.Outcome.next (hrun.fail (Branch.body_of_badTarget ht hout))
  · intro s qid c h hb
    have hcur := inHand_cur h
    constructor
    · intro ho hw n d q1
      have hrun : Runs .lap (isOp .lap) LapOp.checks s qid c := ⟨h, ho, ho, hw⟩
      refine ⟨fun hn => ?_, fun hn hl => ?_⟩
      · exact congrArg Host.Outcome.next
          (hrun.jump (LapOp.body_of_zero hn _) hrun.queue?_own ((cqBlocked_deciding ..).trans hb))
      · exact congrArg Host.Outcome.next
          (hrun.okSet (q1 := q1) ((LapOp.body_of_open hn hl _).trans (by rw [hcur]; rfl)) rfl rfl rfl hb)
    · intro ho hw l ls hl hp hd again closed
      have hrun : Runs .endlap (isOp .endlap) LapOp.endChecks s qid c := ⟨h, ho, ho, hw⟩
      have hbody := LapOp.endBody_eq hl hp hd (s.deciding c)
      rw [hcur] at hbody
      refine ⟨fun hlt => ?_, fun hge => ?_⟩
      · exact congrArg Host.Outcome.next (hrun.jumpSet (q1 := again) (hbody.trans (if_pos hlt)) rfl rfl rfl hb)
      · exact congrArg Host.Outcome.next (hrun.okSet (q1 := closed) (hbody.trans (if_neg hge)) rfl rfl rfl hb)

end Sys2Proof.Proofs
end

section
/-! Signal words and message queues (R242 to R247), and what lets a waiting queue go on (R205, R244, R246, R259, R262). -/

namespace Sys2Proof.Machine

open State

variable {s s1 : State} {qid : Nat} {c : Cmd}

/-! ### The bodies of WAIT, SIGNAL and a local HURDLE -/

theorem State.queue?_store64 (s : State) (a : Nat) (v : W64) (k : Nat) : (s.store64 a v).queue? k = s.queue? k :=
  queue?_congr (store_queues ..) k

theorem State.queue?_ringPut (s : State) (r : RingQ) (rec : List Byte) (k : Nat) : (s.ringPut r rec).queue? k = s.queue? k :=
  queue?_congr (ringPut_queues ..) k

namespace Sync

/-- The immediate of a WAIT or SIGNAL, or its register. -/
def value (c : Cmd) : W64 := regOrImm c (imm c.slot) c.slot.sB 0x28

theorem onWord_of_clean {a : Nat} (h : s.poisonIn a 8 = false) (r : Res) : onWord s a r = r := by rw [onWord, h]; rfl

theorem satisfied_iff {w h : W64} : satisfied w h = true ↔ (w - h).toNat < 2 ^ 63 := decide_eq_true_iff

theorem waitBody_eq (h : s.poisonIn (addrField c.slot) 8 = false) :
    waitBody c s =
      if (s.read64 (addrField c.slot) - value c).toNat < 2 ^ 63 then .ok (s.recallBlocks (addrField c.slot) 8) 0 0
      else .wait (s.recallBlocks (addrField c.slot) 8) (.word (addrField c.slot) (value c)) := by
  refine (onWord_of_clean h _).trans ?_
  simp only [satisfied_iff]
  rfl

theorem addBody_eq (h : s.poisonIn (addrField c.slot) 8 = false) :
    addBody c s = .ok (s.store64 (addrField c.slot) (s.read64 (addrField c.slot) + value c)) 0 0 := onWord_of_clean h _

theorem localBody_eq (h : s.poisonIn (addrField c.slot) 8 = false) :
    let v := s.read64 (addrField c.slot) + 1
    let s1 := s.store64 (addrField c.slot) v
    localBody c s =
      if (v - roundEnd (members c.slot) v).toNat < 2 ^ 63 then .ok s1 0 0
      else .wait s1 (.word (addrField c.slot) (roundEnd (members c.slot) v)) := by
  intro v s1
  refine (onWord_of_clean h _).trans ?_
  simp only [satisfied_iff]
  rfl

/-- The checks of a POST leave its message queue. -/
theorem postRing_of_checks (h : worst (postChecks c s) = none) {r : RingQ} (hr : s.ring? (addrField c.slot) = some r) :
    postRing c s = some r := by
  obtain ⟨-, hpost⟩ := List.append_eq_nil_iff.1 (worst_eq_none.1 h)
  have hsome := need_eq_nil.1 hpost
  simp only [postRing, hr] at hsome ⊢
  split at hsome
  next hc => rw [if_pos hc]
  next => cases hsome

theorem postBody_of_free {r : RingQ} (hr : postRing c s = some r) (hf : s.ringFull r = false) (hl : s.ringLine r = none) :
    postBody c s = .ok (s.ringPut r (message s c.q c.slot c.pos (value c))) 0 0 := by
  simp only [postBody, hr, hf, hl, Bool.false_eq_true, if_false]
  rfl

end Sync

theorem isOp_of_isSignal {post : Bool} {w : Slot} (h : isSignal post w = true) : isOp .signal w = true :=
  (Bool.and_eq_true_iff.1 h).1

theorem isOp_of_isHurdle {group : Bool} {w : Slot} (h : isHurdle group w = true) : isOp .hurdle w = true :=
  (Bool.and_eq_true_iff.1 h).1

/-! ### Waiting queues -/

variable {q q1 : CmdQueue}

/-- A waiting queue whose condition holds goes on past its command. -/
theorem State.release_of_some {rel : CmdQueue → State → Option State} (hq : s.queue? qid = some q) (hw : q.state = .waiting)
    (hu : s.unfit = false) (hrel : rel q s = some s1) (hq1 : s1.queue? qid = some q1) (hb : s1.cqBlocked q1 .ok = false) :
    s.release rel qid = s1.doneAt q1 (q1.pos + 1) 0 0 := by
  have hgo : (q.state != .waiting || s.unfit) = false := by rw [hw, hu]; rfl
  simp only [release, hq, hgo, hrel, hq1, Bool.false_eq_true, if_false]
  exact complete_of_free hb

theorem wordReached_of_satisfied {a : Nat} {h : W64} (hw : q.wait = .word a h) (hs : (s.stackWord a - h).toNat < 2 ^ 63) :
    wordReached q s = some s := by
  rw [wordReached, hw]
  exact if_pos (Sync.satisfied_iff.2 hs)

theorem chainsDone_of_nil (hw : q.wait = .fence) (ha : q.armed = []) : chainsDone q s = some s :=
  if_pos ⟨hw, by rw [ha]; rfl⟩

variable {mq : Nat} {v : W64} {r : RingQ}

theorem slotFree_of_free (hw : q.wait = .post mq v) (hr : s.ring? mq = some r) (hf : s.ringFull r = false) :
    slotFree q s = some (s.ringPut r (Sync.message s q q.cur.toNat q.pos v)) := by
  simp only [slotFree, hw, hr, hf, Bool.false_eq_true, if_false]

theorem postLine_of_clean (hq : s.queue? qid = some q) (hst : q.state = .waiting) (hw : q.wait = .post mq v)
    (hr : s.ring? mq = some r) (hf : s.ringFull r = false) (hl : s.ringLine r = none) : postLine qid s = none := by
  simp only [postLine, hq, hst, hw, hr, hf, hl, Bool.false_eq_true, if_false, Option.map_none]

theorem cqRelease_of_free {d : Done} (hq : s.queue? qid = some q) (hst : q.state = .waitCq) (hw : q.wait = .cq d)
    (hb : s.cqBlocked q d.status = false) : cqRelease qid s = s.finish q d := by
  simp only [cqRelease, hq, hw, hst, hb, Bool.not_false, and_self, if_true]

/-! ### Debug breaks -/

theorem breakNow_of_hit {j : Job} {i : Nat} (hq : s.queue? qid = some q) (hj : s.job? q.job = some j) (hr : queueReady q = true)
    (hrun : s.runsJob j = true) (hi : breakHit q (s.slotAt q q.next).tag = some i) :
    breakNow qid s = s.fireBreak q i (s.slotAt q q.next).tag := by
  simp only [breakNow, hq, hj, hr, hrun, hi, Bool.and_self, if_true]

/-- The queue that a break has halted (R262). -/
theorem queue?_fireBreak (hq : s.queue? qid = some q) (i tag : Nat) :
    ∃ bs, (s.fireBreak q i tag).queue? qid =
      some { q with state := .halted, status := Status.break_.code, breaks := bs } :=
  ⟨_, (queue?_congr (posts_postRecord ..).queues _).trans
    (queue?_setQueue_of_id (k := qid) (show q.id = qid from queue?_id hq) hq)⟩

end Sys2Proof.Machine
end

section
open Sys2Proof.Machine Sys2Proof.Machine.State
namespace Sys2Proof.Proofs

/-- Settles O7: each body answers by its word or ring, and each release finds its condition in the state. -/
theorem queuesSignalAndWait : Obligations.QueuesSignalAndWait := by
  constructor
  · intro s qid c h hb a v waits
    have hv : v = Sync.value c := by
      simp only [v, ← flag_eq_testBit]
      rfl
    have hown := queue?_deciding h
    have hbusy := (cqBlocked_deciding s c c.q .ok).trans hb
    refine ⟨?_, ?_, ?_, ?_⟩
    · intro ho hw hp s1
      have hrun : Runs .wait (isOp .wait) Sync.waitChecks s qid c := ⟨h, ho, ho, hw⟩
      have hbody := Sync.waitBody_eq ((deciding_poisonIn s c a 8).trans hp)
      rw [deciding_read64, ← hv] at hbody
      refine ⟨fun hlt => ?_, fun hge => ?_⟩
      · exact congrArg Host.Outcome.next (hrun.ok (hbody.trans (if_pos hlt)) hown hbusy)
      · exact congrArg Host.Outcome.next (hrun.wait (hbody.trans (if_neg hge)) hown)
    · intro ho hw hp s1 hb1
      have hrun : Runs .signal (isSignal false) Sync.addChecks s qid c := ⟨h, isOp_of_isSignal ho, ho, hw⟩
      have hbody := Sync.addBody_eq ((deciding_poisonIn s c a 8).trans hp)
      rw [deciding_read64, ← hv] at hbody
      exact congrArg Host.Outcome.next (hrun.ok hbody ((queue?_store64 ..).trans hown) hb1)
    · intro ho hw r hr hf hl s1 hb1
      have hrun : Runs .signal (isSignal true) Sync.postChecks s qid c := ⟨h, isOp_of_isSignal ho, ho, hw⟩
      have hring := Sync.postRing_of_checks hw ((deciding_ring? s c a).trans hr)
      have hbody := Sync.postBody_of_free hring ((deciding_ringFull s c r).trans hf) ((deciding_ringLine s c r).trans hl)
      rw [← hv] at hbody
      exact congrArg Host.Outcome.next (hrun.ok hbody ((queue?_ringPut ..).trans hown) hb1)
    · intro ho hw hp n w e s1 hb1
      have hrun : Runs .hurdle (isHurdle false) Sync.localChecks s qid c := ⟨h, isOp_of_isHurdle ho, ho, hw⟩
      have hbody := Sync.localBody_eq ((deciding_poisonIn s c a 8).trans hp)
      rw [deciding_read64] at hbody
      have hown1 : s1.queue? c.q.id = some c.q := (queue?_store64 ..).trans hown
      refine ⟨fun hlt => ?_, fun hge => ?_⟩
      · exact congrArg Host.Outcome.next (hrun.ok (hbody.trans (if_pos hlt)) hown1 hb1)
      · exact congrArg Host.Outcome.next (hrun.wait (hbody.trans (if_neg hge)) hown1)
  · intro s qid q hq
    refine ⟨fun hst hu hb => ⟨fun a e hw hs => ?_, fun hw ha => ?_, ?_⟩, fun d hst hw hb => ?_, fun j i hj hr hrun hi => ?_⟩
    · exact congrArg Host.Outcome.next (release_of_some hq hst hu (wordReached_of_satisfied hw hs) hq hb)
    · exact congrArg Host.Outcome.next (release_of_some hq hst hu (chainsDone_of_nil hw ha) hq hb)
    · intro mq v r hw hr hf hl s1 hb1
      have hline := postLine_of_clean hq hst hw hr hf hl
      have hgo := release_of_some hq hst hu (slotFree_of_free hw hr hf) ((queue?_ringPut ..).trans hq) hb1
      refine congrArg Host.Outcome.next ?_
      rw [hline]
      exact hgo
    · exact congrArg Host.Outcome.next (cqRelease_of_free hq hst hw hb)
    · obtain ⟨bs, hbs⟩ := queue?_fireBreak hq i (s.slotAt q q.next).tag
      exact ⟨_, _, congrArg Host.Outcome.next (breakNow_of_hit hq hj hr hrun hi), hbs, rfl, rfl, rfl, rfl⟩

end Sys2Proof.Proofs
end

section
/-! The group barrier (R248, R330, R380): a local arrival, and an ARRIVE packet that passes check 1. -/

namespace Sys2Proof.Machine

open State

variable {s : State} {c : Cmd} {g g3 : Group}

/-! ### What arrivals that are sent leave unchanged -/

namespace State

theorem Sends.setGroup {s0 s : State} (h : s0.Sends s) {g : Group} : s0.Sends (s.setGroup g) :=
  ⟨h.mem, h.queues, h.rings, h.cores, h.mailboxes⟩

theorem Sends.sendArrive {s0 s : State} (h : s0.Sends s) {g : Group} {msgs : List (Nat × Nat × Option Int)} :
    s0.Sends (s.sendArrive g msgs) := by
  refine h.foldl fun s m h => ?_
  split
  · exact h.send
  · exact h

theorem Sends.arriveOwn {s0 s : State} (h : s0.Sends s) {g : Group} : s0.Sends (s.arriveOwn g) := by
  unfold State.arriveOwn
  split
  · exact Sends.foldl h.setGroup fun _ _ h => h.send
  · exact h.setGroup.sendArrive

end State

/-! ### HURDLE with group scope -/

namespace Sync

theorem joined_of_group? {id : Nat} (hg : s.group? id = some g) (hj : g.job = c.job.id) : joined c s id = some g := by
  rw [joined, hg]
  exact if_pos hj

/-- A local arrival that is not the last, or that comes after the device's own. -/
theorem groupBody_of_early (hg : joined c s (addrField c.slot) = some g)
    (h : g.arrivals + 1 < members c.slot ∨ g.sentAt.isSome = true) :
    groupBody c s = .wait (s.setGroup { g with arrivals := g.arrivals + 1 }) (.group g.id g.round) := by
  have hnot : ¬ (members c.slot ≤ g.arrivals + 1 ∧ g.sentAt.isNone = true) := by
    rintro ⟨hle, hnone⟩
    rcases h with hlt | hsome
    · omega
    · rw [Option.isNone_iff_eq_none.1 hnone] at hsome
      cases hsome
  simp only [groupBody, hg]
  exact if_neg hnot

/-- The last local arrival sends the device's own. -/
theorem groupBody_of_last (hg : joined c s (addrField c.slot) = some g) (hle : members c.slot ≤ g.arrivals + 1)
    (hsent : g.sentAt = none) :
    let g2 := { g with arrivals := 0 }
    let s1 := (s.setGroup g2).arriveOwn g2
    s1.group? g.id = some g3 →
    groupBody c s = if roundDone g3 then .ok (s1.closeRound g.id) 0 0 else .wait s1 (.group g.id g.round) := by
  intro g2 s1 hg3
  have hlast : members c.slot ≤ g.arrivals + 1 ∧ g.sentAt.isNone = true := ⟨hle, by rw [hsent]; rfl⟩
  simp only [groupBody, hg]
  refine (if_pos hlast).trans ?_
  rw [hg3]

end Sync

/-! ### ARRIVE -/

namespace State

variable {p : Nat} {k : Packet} {t : PType} {go : State → State}

/-- What passes check 1 has a type that its port allows (R326, R330). -/
theorem allowedType_of_hopOne (hk : k.ptype ≠ 0) (h : s.hopOne p k = none) : allowedType p k = true := by
  unfold hopOne at h
  rw [if_neg hk] at h
  extract_lets x vc own at h
  have hvc : vc = some k.vc.toNat := by
    by_contra hne
    rw [if_pos hne] at h
    split at h <;> cases h
  rw [allowedType, Bool.and_eq_true_iff]
  exact ⟨bne_iff_ne.2 hk, Option.isSome_iff_exists.2 ⟨_, hvc⟩⟩

/-- A packet of the row's own type that passes check 1 on a port that is UP is the row's to handle. -/
theorem onPacket_of_passes (hwf : k.wf = true) (hup : (s.port p).state = .up) (ht : k.ptype.toNat = t.code)
    (hhop : s.hopOne p k = none) : onPacket [t] p k go s = .next (go s) := by
  have hk : k.ptype ≠ 0 := by
    intro h0
    rw [h0] at ht
    cases t <;> cases ht
  have hall := allowedType_of_hopOne hk hhop
  have hmine : ([t].any fun x => x.code == k.ptype.toNat) = true := by simp [ht]
  simp only [onPacket, hwf, hup, hall, hmine, Bool.not_true, Bool.false_eq_true, ne_eq, not_true_eq_false, if_false, if_true]

/-- An ARRIVE belongs to the round of its group. -/
def ofRound (g : Group) (k : Packet) : Prop := k.bucket.toNat = g.round % 2 ^ 32 ∧ k.len = 0 ∧ k.stage = 0xD

/-- An ARRIVE of a group of its running job that has passed check 1. -/
structure Joins (s : State) (p : Nat) (k : Packet) (g : Group) : Prop where
  hop : s.hopOne p k = none
  group : s.group? k.group.toNat = some g
  job : g.job = k.job.toNat
  runs : s.jobRuns g.job = true

variable (h : s.Joins p k g)

include h

theorem Joins.arrived_of_otherRound (hr : ¬ ofRound g k) : s.arrived p k = (s.freeCredits p k).hopFail p k .hopCheck := by
  obtain ⟨hhop, hg, hj, hrun⟩ := h
  have hbad : k.bucket.toNat ≠ g.round % 2 ^ 32 ∨ k.len ≠ 0 ∨ k.stage ≠ 0xD := by
    unfold ofRound at hr
    tauto
  simp only [arrived, hhop, hg, if_neg (not_not_intro hj), hrun, if_pos hbad, Bool.not_true, Bool.false_eq_true, if_false]

/-- The first arrival of a partner in the round is heard. -/
theorem Joins.arrived_of_first (hr : ofRound g k) (hgeo : g.geometry = .neighbours) (hp : p ∈ g.ports)
    (hn : (p, g.round) ∉ g.heard) :
    s.arrived p k =
      ((s.freeCredits p k).setGroup { g with heard := g.heard ++ [(p, g.round)] }).closeRound g.id := by
  obtain ⟨hhop, hg, hj, hrun⟩ := h
  obtain ⟨hb, hl, hst⟩ := hr
  have hnew : (g.ports.contains p && !g.heard.contains (p, g.round)) = true := by simp [hp, hn]
  simp only [arrived, hhop, hg, if_neg (not_not_intro hj), hrun, hb, hl, hst, hgeo, hnew, ne_eq, not_true_eq_false, or_self,
    Bool.not_true, Bool.false_eq_true, if_false, if_true]

/-- A further arrival of a partner in the round fails the hop check. -/
theorem Joins.arrived_of_heard (hr : ofRound g k) (hgeo : g.geometry = .neighbours) (hin : (p, g.round) ∈ g.heard) :
    s.arrived p k = (s.freeCredits p k).hopFail p k .hopCheck := by
  obtain ⟨hhop, hg, hj, hrun⟩ := h
  obtain ⟨hb, hl, hst⟩ := hr
  have hold : (g.ports.contains p && !g.heard.contains (p, g.round)) = false := by simp [hin]
  simp only [arrived, hhop, hg, if_neg (not_not_intro hj), hrun, hb, hl, hst, hgeo, hold, ne_eq, not_true_eq_false, or_self,
    Bool.not_true, Bool.false_eq_true, if_false]

/-- In a ring or torus a new value of the barrier's pass is taken, and what is due is sent on (R380). -/
theorem Joins.arrived_of_pass (hr : ofRound g k) (hgeo : g.geometry ≠ .neighbours) {l n : Nat}
    (hpass : passHop? g p k = some (l, n)) (hnew : g.barrier.has l n = none) :
    let d := Dissem.receive g.extOf Dissem.combMax g.barrier l n (some 1)
    let g1 := { g with barrier := d.1 }
    s.arrived p k = (((s.freeCredits p k).setGroup g1).sendArrive g1 d.2).closeRound g.id := by
  obtain ⟨hhop, hg, hj, hrun⟩ := h
  obtain ⟨hb, hl, hst⟩ := hr
  cases hg1 : g.geometry with
  | neighbours => exact absurd hg1 hgeo
  | ring | torus =>
    simp only [arrived, hhop, hg, if_neg (not_not_intro hj), hrun, hb, hl, hst, hg1, hpass, hnew, Option.isSome_none, ne_eq,
      not_true_eq_false, or_self, Bool.not_true, Bool.false_eq_true, if_false]

end State

end Sys2Proof.Machine
end

section
open Sys2Proof.Machine Sys2Proof.Machine.State
namespace Sys2Proof.Proofs

/-- Settles O37: the body of a HURDLE waits or goes on by the round of its group, and an ARRIVE that passes check 1 is handled as
`arrived` says. -/
theorem groupBarriers : Obligations.GroupBarriers := by
  constructor
  · intro s qid c g h ho hw hg hj n g1 g2 s1 waits
    have hrun : Runs .hurdle (isHurdle true) Sync.groupChecks s qid c := ⟨h, isOp_of_isHurdle ho, ho, hw⟩
    have hown := queue?_deciding h
    have hjoined : Sync.joined c (s.deciding c) (addrField c.slot) = some g :=
      Sync.joined_of_group? ((deciding_group? s c _).trans hg) hj
    refine ⟨fun hearly => ?_, fun hle hsent g3 hg3 => ?_⟩
    · exact congrArg Host.Outcome.next (hrun.wait (Sync.groupBody_of_early hjoined hearly) hown)
    · have hbody := Sync.groupBody_of_last hjoined hle hsent hg3
      have hown1 : s1.queue? c.q.id = some c.q :=
        (queue?_congr (Sends.refl.setGroup.arriveOwn).queues _).trans hown
      refine ⟨fun hdone => ?_, fun hdone q1 hq1 hb => ?_⟩
      · rw [hdone] at hbody
        exact congrArg Host.Outcome.next (hrun.wait hbody hown1)
      · rw [hdone] at hbody
        rw [← inHand_id h] at hq1
        exact congrArg Host.Outcome.next (hrun.ok hbody hq1 hb)
  · intro s p k g hwf hup ht hhop hg hj hruns s0 good
    have hjoins : s.Joins p.val k g := ⟨hhop, hg, hj, hruns⟩
    have hexec : exec (.arrivePacket p k) s = .next (s.arrived p.val k) :=
      onPacket_of_passes (go := fun s => s.arrived p.val k) hwf hup ht hhop
    refine ⟨fun hr => ?_, fun hr hgeo hp hn => ?_, fun hr hgeo hin => ?_, fun hr hgeo l n hpass hnew => ?_⟩
    · exact hexec.trans (congrArg _ (hjoins.arrived_of_otherRound hr))
    · exact hexec.trans (congrArg _ (hjoins.arrived_of_first hr hgeo hp hn))
    · exact hexec.trans (congrArg _ (hjoins.arrived_of_heard hr hgeo hin))
    · exact hexec.trans (congrArg _ (hjoins.arrived_of_pass hr hgeo hpass hnew))

end Sys2Proof.Proofs
end

section
/-! What the actions of a COMMIT leave of jobs and queues where no line is poisoned (R253, R254): each of them posts, stores or
sends, or changes what jobs and queues hold besides their progress. -/

namespace Sys2Proof.Machine

open State

/-- What the close of a step sets of a job, with the job's number. -/
def Job.progress (j : Job) : Nat × Nat × Nat × Bool := (j.id, j.step, j.lap, j.ckptRequested)

/-- What the close of a step records of a queue, and the registers. -/
def CmdQueue.recorded (q : CmdQueue) : Committed × List W64 := (q.committed, q.sregs)

/-! ### What goes out on ports -/

/-- `t` differs from `s` in its ports and in what left the device alone. -/
def State.Links (s t : State) : Prop := t = { s with ports := t.ports, out := t.out }

namespace State.Links

variable {s t u : State}

theorem refl : s.Links s := rfl

theorem trans (h : s.Links t) (h1 : t.Links u) : s.Links u := by
  unfold Links at *
  rw [h1, h]

theorem foldl {α : Type} {f : State → α → State} (hf : ∀ s x, State.Links s (f s x)) (l : List α) (s : State) :
    s.Links (l.foldl f s) :=
  List.foldlRecOn (motive := s.Links) _ _ refl fun t ht x _ => ht.trans (hf t x)

theorem sendStream (p n pstart : Nat) (bs : List Byte) (s : State) : s.Links (State.sendStream p n pstart bs s) := by
  induction n generalizing pstart bs s with
  | zero => exact refl
  | succ n ih => exact trans (t := s.sendData p pstart _) rfl (ih ..)

theorem modPort (s : State) (p : Nat) (f : Port → Port) : s.Links (s.modPort p f) := rfl

theorem startPacket (s : State) (p : Nat) (k : Packet) : s.Links (s.startPacket p k) := by
  refine trans ?_ (sendStream ..)
  rfl

theorem pump (p n : Nat) (s : State) : s.Links (State.pump p n s) := by
  induction n generalizing s with
  | zero => exact (modPort .. : s.Links (s.markStarved p))
  | succ n ih =>
    unfold State.pump
    split
    · exact ((modPort ..).trans (startPacket ..)).trans (ih _)
    · exact modPort ..

theorem send (s : State) (p : Nat) (k : Packet) : s.Links (s.send p k) := (modPort ..).trans (pump ..)

theorem notify (s : State) (ps : List Nat) (job : Nat) (n : Notice) (origin : W64) (number value : Nat) (more : List Byte) :
    s.Links (s.notify ps job n origin number value more) := foldl (fun _ _ => send ..) _ _

end State.Links

/-! ### Jobs and queues that are found -/

namespace State

variable {s : State}

/-- Jobs that are changed but keep their numbers are found where they were. -/
theorem find?_map_job {f : Job → Job} (hf : ∀ j, (f j).id = j.id) (l : List Job) (id : Nat) :
    (l.map f).find? (fun x => x.id == id) = (l.find? fun x => x.id == id).map f := by
  rw [List.find?_map]
  simp only [Function.comp_def, hf]

theorem job?_id {id : Nat} {j : Job} (h : s.job? id = some j) : j.id = id := by
  simpa using List.find?_some h

/-- A job that is there is found as it was changed. -/
theorem job?_modJob {id : Nat} {f : Job → Job} {j : Job} (hf : ∀ j, (f j).id = j.id) (hj : s.job? id = some j) :
    (s.modJob id f).job? id = some (f j) := by
  have hmod : (s.modJob id f).job? id = (s.job? id).map fun x => if x.id == id then f x else x :=
    find?_map_job (fun x => by split <;> simp [hf]) ..
  rw [hmod, hj, Option.map_some, if_pos (by simp [job?_id hj])]

/-- A job that is there is found as it was set. -/
theorem job?_setJob {j j0 : Job} (h : s.job? j.id = some j0) : (s.setJob j).job? j.id = some j := by
  have hset : (s.setJob j).job? j.id = (s.job? j.id).map fun x => if x.id == j.id then j else x :=
    find?_map_job (fun x => by split <;> simp_all) ..
  rw [hset, h, Option.map_some, if_pos (by simp [job?_id h])]

theorem touchGranule_eq (j : Job) (g : Nat) : ∃ m, touchGranule j g = { j with map := m } := by
  unfold touchGranule
  extract_lets p
  split
  · split
    · exact ⟨_, rfl⟩
    · exact ⟨j.map, rfl⟩
  · exact ⟨j.map, rfl⟩

/-- Copying granules changes the mapping of a job and nothing else (R296). -/
theorem progress_touchGranules (gs : List Nat) (j : Job) : (gs.foldl touchGranule j).progress = j.progress := by
  induction gs generalizing j with
  | nil => rfl
  | cons g gs ih =>
    obtain ⟨m, hm⟩ := touchGranule_eq j g
    rw [List.foldl_cons, ih, hm]
    rfl

theorem doneQueue_recorded (q : CmdQueue) (d : Done) : (doneQueue q d).recorded = q.recorded := by
  unfold doneQueue
  split <;> rfl

theorem partLine_of_poisoned_nil (hp : s.poisoned = []) (a n : Nat) : s.partLine a n = none := by
  rw [partLine, hp]
  rfl

theorem stashLine_of_poisoned_nil (hp : s.poisoned = []) (q : CmdQueue) : s.stashLine q = none := by
  unfold stashLine
  rw [hp]
  split <;> rfl

/-! ### Steady states -/

/-- No line is poisoned, and jobs and queues stand as they did in `s`. -/
structure Steady (s t : State) : Prop where
  clean : t.poisoned = []
  job : ∀ id, (t.job? id).map Job.progress = (s.job? id).map Job.progress
  queue : ∀ k, (t.queue? k).map CmdQueue.recorded = (s.queue? k).map CmdQueue.recorded

namespace Steady

variable {s0 t : State}

theorem refl (hp : s.poisoned = []) : s.Steady s := ⟨hp, fun _ => rfl, fun _ => rfl⟩

/-- A change that touches neither poison, nor jobs, nor queues. -/
theorem of_eq (h : s0.Steady s) (hp : t.poisoned = s.poisoned) (hj : t.jobs = s.jobs) (hq : t.queues = s.queues) :
    s0.Steady t where
  clean := hp.trans h.clean
  job id := by
    rw [show t.job? id = s.job? id by rw [job?, hj, job?]]
    exact h.job id
  queue k := by
    rw [queue?_congr hq]
    exact h.queue k

theorem job?_eq (h : s0.Steady s) {id : Nat} {j : Job} (hj : s0.job? id = some j) :
    ∃ j1, s.job? id = some j1 ∧ j1.progress = j.progress :=
  Option.map_eq_some_iff.1 ((h.job id).trans (congrArg (Option.map Job.progress) hj))

theorem ite {c : Prop} [Decidable c] (h : s0.Steady s) (h1 : s0.Steady t) : s0.Steady (if c then s else t) := by
  split
  · exact h
  · exact h1

theorem foldl {α : Type} {f : State → α → State} {l : List α} (h : s0.Steady s) (hf : ∀ s x, s0.Steady s → s0.Steady (f s x)) :
    s0.Steady (l.foldl f s) :=
  List.foldlRecOn (motive := s0.Steady) _ _ h fun t ht x _ => hf t x ht

theorem links (h : s0.Steady s) (hl : s.Links t) : s0.Steady t := by
  unfold Links at hl
  rw [hl]
  exact h.of_eq rfl rfl rfl

/-- Jobs change but for their progress. -/
theorem mapJobs (h : s0.Steady s) {f : Job → Job} (hf : ∀ j, (f j).progress = j.progress) :
    s0.Steady { s with jobs := s.jobs.map f } where
  clean := h.clean
  job id := by
    have hmap : ({ s with jobs := s.jobs.map f } : State).job? id = (s.job? id).map f :=
      find?_map_job (fun j => congrArg Prod.fst (hf j)) ..
    have hfun : Job.progress ∘ f = Job.progress := funext hf
    rw [hmap, Option.map_map, hfun]
    exact h.job id
  queue := h.queue

theorem modJob (h : s0.Steady s) {id : Nat} {f : Job → Job} (hf : ∀ j, (f j).progress = j.progress) :
    s0.Steady (s.modJob id f) :=
  h.mapJobs fun j => by split <;> simp [hf]

theorem setQueue (h : s0.Steady s) {q q0 : CmdQueue} (hq : s.queue? q.id = some q0) (hr : q.recorded = q0.recorded) :
    s0.Steady (s.setQueue q) where
  clean := h.clean
  job := h.job
  queue k := by
    rw [← h.queue k]
    by_cases hk : k = q.id
    · rw [hk, queue?_setQueue s q q0 hq, hq, Option.map_some, Option.map_some, hr]
    · rw [queue?_setQueue_ne s q hk]

/-! ### Memory, rings and events -/

theorem store (h : s0.Steady s) {a : Nat} {bs : List Byte} : s0.Steady (s.store a bs) := by
  have hjobs := h.mapJobs (progress_touchGranules (granulesIn a bs.length))
  exact ⟨by simp [State.store, h.clean], hjobs.job, h.queue⟩

theorem storeAll (h : s0.Steady s) {ws : List (Nat × List Byte)} : s0.Steady (s.storeAll ws) := h.foldl fun _ _ h => h.store

theorem ringPut (h : s0.Steady s) {r : RingQ} {rec : List Byte} : s0.Steady (s.ringPut r rec) := h.store.store

theorem ringWrite (h : s0.Steady s) {r : RingQ} {rec : List Byte} : s0.Steady (State.ringWrite rec s r) := h.store.ite h.ringPut

theorem ringEvent (h : s0.Steady s) {r : RingQ} {rec : List Byte} : s0.Steady (State.ringEvent rec s r) := by
  rw [State.ringEvent, ringLine_of_poisoned_nil h.clean]
  exact h.ringWrite

theorem postRecord (h : s0.Steady s) {ids : List Nat} {rec : List Byte} : s0.Steady (s.postRecord ids false rec) :=
  have hnote : s0.Steady (s.noteEvent rec) := h.of_eq rfl rfl rfl
  hnote.foldl fun _ _ h => h.ringEvent

theorem postJob (h : s0.Steady s) {e : Ev} {j : Job} {step : Nat} {payload : List Byte} :
    s0.Steady (s.postJob e j step payload) := h.postRecord

/-! ### The actions of a COMMIT -/

theorem writeWatch (h : s0.Steady s) {j : Job} {skipped : Bool} : s0.Steady (s.writeWatch j skipped) := by
  unfold State.writeWatch
  extract_lets recs w used slot s1 s2
  have hnone : (s.partLine j.watchBase 0x40).or ((List.range recs.length).findSome? fun i => s.partLine (slot i) 0x80) = none := by
    simp [partLine_of_poisoned_nil h.clean]
  rw [hnone]
  exact h.ite (h.store.postJob.ite h.storeAll.store)

theorem emptyStash (h : s0.Steady s) {commit : Bool} {q : CmdQueue} : s0.Steady (State.emptyStash commit s q) := by
  unfold State.emptyStash
  rw [stashLine_of_poisoned_nil h.clean]
  exact h.ite h.storeAll

theorem storeRecord (h : s0.Steady s) {j : Job} {record : List Byte} : s0.Steady (s.storeRecord j record) := by
  unfold State.storeRecord
  split
  · rw [ownStore, partLine_of_poisoned_nil h.clean]
    exact h.store
  · exact h

theorem freezeNow (h : s0.Steady s) {j : Job} {qs : List (Nat × Committed)} : s0.Steady (s.freezeNow j qs) := by
  unfold State.freezeNow
  extract_lets s1
  generalize hfresh : s1.fresh = f
  obtain ⟨v, s2⟩ := f
  have h2 : s0.Steady s2 := by
    cases hfresh
    exact h.of_eq rfl rfl rfl
  have h3 {g : List Byte} {f : Job → Job} (hf : ∀ j, (f j).progress = j.progress) :
      s0.Steady ((s2.storeRecord j g).modJob j.id f) := h2.storeRecord.modJob hf
  refine ite (h3 fun _ => rfl) (modJob ?_ fun _ => rfl)
  exact h3 fun _ => rfl

theorem freezeDue (h : s0.Steady s) {j : Job} {qs : List (Nat × Committed)} : s0.Steady (s.freezeDue j qs) := by
  have howed : s0.Steady (s.modJob j.id fun x => { x with owed := true }) := h.modJob fun _ => rfl
  exact h.freezeNow.ite (h.ite howed.postJob)

theorem freezeNotice (h : s0.Steady s) {j : Job} : s0.Steady (s.freezeNotice j) := by
  unfold State.freezeNotice
  extract_lets k
  have hat : s0.Steady (s.modJob j.id fun x => { x with freezeAt := some k }) := h.modJob fun _ => rfl
  exact (hat.links (.notify ..)).ite h

theorem recorded (h : s0.Steady s) {q : CmdQueue} {d : Done} : s0.Steady (s.recorded q d) := by
  unfold State.recorded
  split
  · exact h.ringPut.ite h
  · exact h

theorem finish (h : s0.Steady s) {q : CmdQueue} {d : Done} (hq : s.queue? q.id = some q) : s0.Steady (s.finish q d) := by
  have hrec : s0.Steady (s.recorded q d) := h.recorded
  have hq1 : (s.recorded q d).queue? (doneQueue q d).id = some q := by
    rwa [doneQueue_id, queue?_congr (recorded_queues ..)]
  rw [finish_eq (recordLine_of_poisoned_nil h.clean ..)]
  extract_lets s2
  have h2 : s0.Steady s2 := (hrec.setQueue hq1 (doneQueue_recorded q d)).of_eq rfl rfl rfl
  split
  · exact h2.postRecord
  · exact h2

theorem complete (h : s0.Steady s) {q : CmdQueue} {d : Done} (hq : s.queue? q.id = some q) : s0.Steady (s.complete q d) :=
  (h.setQueue (q := { q with state := .waitCq, wait := .cq d, next := d.next }) hq rfl).ite (h.finish hq)

theorem closeQueue (h : s0.Steady s) {k : Nat} : s0.Steady (State.closeQueue s k) := by
  unfold State.closeQueue
  split
  next q hq =>
    have hself : s.queue? q.id = some q := by rwa [queue?_id hq]
    exact (h.complete hself).ite h
  next => exact h

end Steady

end State

end Sys2Proof.Machine
end

section
/-! The close of a training step (R80, R253, R254). -/

namespace Sys2Proof.Machine.State

variable {s : State} {j : Job}

/-- A job that may commit has no comparison in progress (R253). -/
theorem judgesIdle_of_commitReady (h : s.commitReady j = true) : s.judgesIdle j.id = true :=
  (Bool.and_eq_true_iff.1 h).2

/-- What the close sets of a job (R80, R254). -/
theorem closeStep_progress (j : Job) :
    (closeStep j).progress =
      (j.id, j.step + 1, if j.skipping then max (j.lap - 1) j.lapRecovery else j.lap - 1, j.ckptRequested) := by
  unfold closeStep
  extract_lets lap j1
  split <;> rfl

/-- Where no line is poisoned and no twin is asked, a job whose conditions hold goes through the actions of R254. -/
theorem commitClose_of_ready {id : Nat} (hj : s.job? id = some j) (hr : s.commitReady j = true) (hm : s.pair.mode ≠ .mirror)
    (hp : s.poisoned = []) : s.commitClose id = s.commitActions j := by
  have hid := job?_id hj
  have hstash : (s.jobQueues id).findSome? s.stashLine = none :=
    List.findSome?_eq_none_iff.2 fun q _ => stashLine_of_poisoned_nil hp q
  have hgo : s.mirrorState j = .go := if_pos hm
  have hidle : s.judgesIdle id = true := hid ▸ judgesIdle_of_commitReady hr
  simp only [commitClose, hj, hr, hstash, if_neg hm, hgo, hidle, Bool.not_true, Bool.false_eq_true, if_false, if_true]

/-- The state after action 1: the positions after the COMMITs are recorded. -/
def commitRecorded (s : State) (j : Job) : State :=
  { s with queues := s.queues.map fun (q : CmdQueue) => if q.job = j.id then { q with committed := s.committedOf q } else q }

theorem queue?_commitRecorded {q : CmdQueue} (hq : s.queue? q.id = some q) (hj : q.job = j.id) :
    (s.commitRecorded j).queue? q.id = some { q with committed := s.committedOf q } := by
  have hid (x : CmdQueue) : (if x.job = j.id then { x with committed := s.committedOf x } else x).id = x.id := by
    split <;> rfl
  have hmap : (s.commitRecorded j).queue? q.id =
      (s.queue? q.id).map fun x => if x.job = j.id then { x with committed := s.committedOf x } else x := by
    simp only [queue?, commitRecorded, List.find?_map, Function.comp_def, hid]
  rw [hmap, hq, Option.map_some, if_pos hj]

/-- The actions of R254 as steady stretches: before action 5, from its job to action 6, and action 7. -/
theorem commitActions_steady (hp : s.poisoned = []) :
    ∃ s3 s6, (s.commitRecorded j).Steady s3 ∧ (s3.setJob (closeStep j)).Steady s6 ∧
      (s6.modJob j.id fun x => { x with ckptRequested := false }).Steady (s.commitActions j) := by
  unfold commitActions
  extract_lets qs committed s1 s2 s3 j1 s4 s5 s6 s7
  have h1 : s1.Steady s1 := .refl hp
  have h3 : s1.Steady s3 := h1.writeWatch.foldl fun _ _ h => h.emptyStash
  have h4 : s4.Steady s4 := .refl h3.clean
  have h5 : s4.Steady s5 := h4.postJob.ite h4
  have h6 : s4.Steady s6 := h5.freezeDue.ite h5.freezeNotice
  have h7 : s7.Steady s7 := .refl h6.clean
  exact ⟨s3, s6, h3, h6, h7.foldl fun _ _ h => h.closeQueue⟩

/-- The job after the actions of R254. -/
theorem job?_commitActions (hp : s.poisoned = []) (hj : s.job? j.id = some j) :
    ∃ j1, (s.commitActions j).job? j.id = some j1 ∧
      j1.progress = (j.id, j.step + 1, if j.skipping then max (j.lap - 1) j.lapRecovery else j.lap - 1, false) := by
  obtain ⟨s3, s6, h3, h6, ht⟩ := commitActions_steady (j := j) hp
  have hclose := closeStep_progress j
  have hid : (closeStep j).id = j.id := congrArg Prod.fst hclose
  obtain ⟨j3, hj3, -⟩ := h3.job?_eq hj
  obtain ⟨j6, hj6, hp6⟩ := h6.job?_eq (job?_setJob (hid.symm ▸ hj3))
  rw [hid] at hj6
  have hj7 := job?_modJob (f := fun x => { x with ckptRequested := false }) (fun _ => rfl) hj6
  obtain ⟨j1, hj1, hp1⟩ := ht.job?_eq hj7
  rw [hclose] at hp6
  simp only [Job.progress, Prod.mk.injEq] at hp6 hp1 ⊢
  obtain ⟨h6id, h6step, h6lap, -⟩ := hp6
  obtain ⟨h1id, h1step, h1lap, h1ask⟩ := hp1
  exact ⟨j1, hj1, h1id.trans h6id, h1step.trans h6step, h1lap.trans h6lap, h1ask⟩

/-- A queue of the job after the actions of R254. -/
theorem queue?_commitActions {q : CmdQueue} (hp : s.poisoned = []) (hq : s.queue? q.id = some q) (hj : q.job = j.id) :
    ∃ q1, (s.commitActions j).queue? q.id = some q1 ∧ q1.recorded = (s.committedOf q, q.sregs) := by
  obtain ⟨s3, s6, h3, h6, ht⟩ := commitActions_steady (j := j) hp
  have hrec : ((s.commitActions j).queue? q.id).map CmdQueue.recorded = some (s.committedOf q, q.sregs) := by
    calc ((s.commitActions j).queue? q.id).map CmdQueue.recorded
        = (s6.queue? q.id).map CmdQueue.recorded := ht.queue q.id
      _ = (s3.queue? q.id).map CmdQueue.recorded := h6.queue q.id
      _ = ((s.commitRecorded j).queue? q.id).map CmdQueue.recorded := h3.queue q.id
      _ = some (s.committedOf q, q.sregs) := by rw [queue?_commitRecorded hq hj]; rfl
  exact Option.map_eq_some_iff.1 hrec

end Sys2Proof.Machine.State
end

section
open Sys2Proof.Machine Sys2Proof.Machine.State
namespace Sys2Proof.Proofs

/-- Settles O9: COMMIT waits, and the actions of R254 are steady but for the record of action 1, the job of action 5 and the
request that action 6 clears. -/
theorem commitClosesTheStep : Obligations.CommitClosesTheStep := by
  constructor
  · intro s qid c h ho hw
    have hrun : Runs .commit (isOp .commit) bareChecks s qid c := ⟨h, ho, ho, hw⟩
    exact congrArg Host.Outcome.next (hrun.wait rfl (queue?_deciding h))
  · intro s id j hj hr hm hp
    obtain rfl := job?_id hj
    obtain ⟨j1, hj1, hprogress⟩ := job?_commitActions hp hj
    simp only [Job.progress, Prod.mk.injEq] at hprogress
    obtain ⟨-, hstep, hlap, hask⟩ := hprogress
    refine ⟨_, j1, congrArg Host.Outcome.next (commitClose_of_ready hj hr hm hp), hj1, hstep, hlap, hask,
      fun q _ hqj hst hq => ?_⟩
    obtain ⟨q1, hq1, hrec⟩ := queue?_commitActions hp hq hqj
    have hbound : q.state ≠ .unbound := by simp [hst]
    simp only [CmdQueue.recorded, committedOf, if_neg hbound, Prod.mk.injEq] at hrec
    obtain ⟨hcommitted, hregs⟩ := hrec
    exact ⟨q1, hq1, congrArg Committed.position hcommitted, hregs⟩

end Sys2Proof.Proofs
end

section
/-! A verdict under the policy ZERO that meets a poisoned line (R272, R373): the elements that it would clear lie there, the pass ends
in a detected fault, and with the job's halt its chains are gone (R406). -/

open Sys2Proof.Machine
namespace Sys2Proof.Proofs.ZeroVerdictMeetsPoison

/-- A job under ZERO with one descriptor. -/
def job : Job := { State.newJob State.reset 0 with zeroPolicy := true, descBase := 0x10000000, descEntries := 1 }

/-- A ring of this device alone. -/
def group : Group :=
  { id := 1, job := job.id, geometry := .ring, ports := [], rank := 0, ext := [1, 1, 1], rings := [], budget := 0, mDecl := 1, m := 1
    serials := [], seq := 0, round := 0, arrivals := 0, sentAt := none, barrier := {}, heard := [] }

/-- A chain whose one bucket has been reduced, with one non-finite element, and stands before its UPDATE. -/
def chain : Chain :=
  { id := 1, job := job.id, group := group.id, addr := 0, word := 0, queue := 0, seq0 := 0, staging := 0, sstride := 0
    statusBase := 0, nb := 1, ranges := [(0, 1024), (0, 1024)]
    entries := [.reduceScatter 0 false 0 0, .update (.builtin 5) [] 0], buckets := [{ seq := 0, entry := 1, ownedNonfinite := 1 }]
    verdict := {}, total := none, skipped := false, armedAt := 0, status := .ok }

/-- The descriptor of an FP32 tensor of one element at 0x20010000, which holds an infinity, in a line that is poisoned. -/
def state : State :=
  { State.reset with
    jobs := [job], groups := [group], chains := [chain], poisoned := [0x20010000]
    mem := [(0x10000002, 1), (0x10000003, 0x20), (0x10000006, 0x10), (0x10000007, 0x10), (0x10000010, 1), (0x10000022, 4)
      , (0x20010002, 0x80), (0x20010003, 0x7F)] }

/-- The pass ends the chain. -/
theorem no_chain : (state.verdictPass chain.id).settle.chain? chain.id = none := by decide +kernel

end Sys2Proof.Proofs.ZeroVerdictMeetsPoison
end

section
open Sys2Proof.Machine
namespace Sys2Proof.Proofs

/-- Refutes O38: a total above 0 under ZERO clears elements, and where one of them lies in a poisoned line the pass is a detected
fault that ends the chain, so no chain holds the total. -/
theorem not_chainsArmAndTotal : ¬ Obligations.ChainsArmAndTotal := by
  rintro ⟨-, hverdict⟩
  obtain ⟨-, hpass⟩ := hverdict ZeroVerdictMeetsPoison.state 1 1 ZeroVerdictMeetsPoison.chain ZeroVerdictMeetsPoison.group
    ZeroVerdictMeetsPoison.job rfl rfl rfl rfl
  have halone (d : Nat) : ZeroVerdictMeetsPoison.group.extOf d ≤ 1 := by
    show (if d = 0 then 1 else 1) ≤ 1
    split <;> exact le_rfl
  obtain ⟨t, c, -, ht, hc, -⟩ := hpass rfl rfl (by decide) halone rfl
  have hgone : t.chain? 1 = none := Host.Outcome.next.inj ht ▸ ZeroVerdictMeetsPoison.no_chain
  exact nomatch hgone.symm.trans hc

end Sys2Proof.Proofs
end

section
/-! An instruction of a host core that completes: the core moves past it, its counters move on, and the rest is what the body
left (R421, R427, R435). -/

namespace Sys2Proof.Machine

/-- `d` differs from `c` at most in the counters of a core and in what no instruction reads. -/
structure HostCore.Counts (c d : HostCore) : Prop where
  pc : d.pc = c.pc
  x : d.x = c.x
  y : d.y = c.y
  q : d.q = c.q
  mode : d.mode = c.mode
  state : d.state = c.state
  csr : d.csr = { c.csr with cycle := d.csr.cycle, instret := d.csr.instret, hpm := d.csr.hpm }

namespace HostCore.Counts

variable {c d e : HostCore}

theorem refl : c.Counts c := ⟨rfl, rfl, rfl, rfl, rfl, rfl, rfl⟩

theorem trans (h : c.Counts d) (h1 : d.Counts e) : c.Counts e :=
  ⟨h1.pc.trans h.pc, h1.x.trans h.x, h1.y.trans h.y, h1.q.trans h.q, h1.mode.trans h.mode, h1.state.trans h.state,
    by rw [h1.csr, h.csr]⟩

/-- Counters that are set. -/
theorem counted {retired : Nat} {cycle instret : W64} {hpm : List W64} :
    c.Counts { c with retired, csr := { c.csr with cycle, instret, hpm } } := ⟨rfl, rfl, rfl, rfl, rfl, rfl, rfl⟩

end HostCore.Counts

namespace State

/-- `t` differs from `s` at most in the counters of core `n` and the free values drawn. -/
structure Counts (n : Nat) (s t : State) : Prop where
  frame : t = { s with cores := t.cores, free := t.free }
  length : t.cores.length = s.cores.length
  core : (s.core n).Counts (t.core n)
  other : ∀ k, k ≠ n → t.core k = s.core k

namespace Counts

variable {n : Nat} {s t u : State}

theorem refl : Counts n s s := ⟨rfl, rfl, .refl, fun _ _ => rfl⟩

theorem trans (h : Counts n s t) (h1 : Counts n t u) : Counts n s u where
  frame := by rw [h1.frame, h.frame]
  length := h1.length.trans h.length
  core := h.core.trans h1.core
  other k hk := (h1.other k hk).trans (h.other k hk)

theorem ite {c : Prop} [Decidable c] (h : Counts n s t) (h1 : Counts n s u) : Counts n s (if c then t else u) := by
  split
  · exact h
  · exact h1

theorem modCore {f : HostCore → HostCore} (hn : n < s.cores.length) (hf : (s.core n).Counts (f (s.core n))) :
    Counts n s (s.modCore n f) where
  frame := rfl
  length := List.length_set
  core := by rwa [State.modCore, core_setCore _ _ _ hn]
  other _ hk := core_setCore_ne _ _ _ hk

theorem fresh (s : State) : Counts n s s.fresh.2 := ⟨rfl, rfl, .refl, fun _ _ => rfl⟩

theorem bumpHpm (hn : n < s.cores.length) (svx : Bool) (i : Nat) : Counts n s (State.bumpHpm n svx s i) := by
  unfold State.bumpHpm
  extract_lets k add
  have hadd (u : State) (hu : n < u.cores.length) (v : W64) : Counts n u (add u v) := modCore hu .counted
  have hdraw : Counts n s (add s.fresh.2 s.fresh.1) := (fresh s).trans (hadd s.fresh.2 hn _)
  split
  · exact refl
  · split
    · exact refl
    · exact (hadd s hn 1).ite refl
    · exact hdraw
    · exact hdraw
    · exact hdraw
    · exact modCore hn .counted

theorem retire (hn : n < s.cores.length) (svx : Bool) : Counts n s (s.retire n svx) := by
  refine List.foldlRecOn (motive := Counts n s) _ _ ((fresh s).trans (modCore hn .counted)) fun t ht i _ => ?_
  exact ht.trans (bumpHpm (ht.length.symm ▸ hn) svx i)

end Counts

variable {s s1 : State} {n : Fin 32}

theorem awake_cores (s : State) (n : Fin 32) :
    (s.awake n).cores = s.cores.set n.val { s.core n.val with state := .running } := rfl

theorem core_awake (hn : n.val < s.cores.length) : (s.awake n).core n.val = { s.core n.val with state := .running } :=
  core_setCore _ _ _ hn

/-- A core that executes runs the body of its instruction (R428, R441). -/
theorem runInstr_of_executes {svx : Bool} {len : Nat} {body : State → IRes} (he : s.executes n len) :
    s.runInstr n svx len body = endInstr n.val svx len (body (s.awake n)) := by
  obtain ⟨hst, hirq, hfetch⟩ := he
  have hrun : ((s.core n.val).state != .running && (s.core n.val).state != .wfi) = false := by
    rcases hst with h | h <;> rw [h] <;> rfl
  unfold runInstr
  extract_lets k c s0
  rw [show (c.state != .running && c.state != .wfi) = false from hrun, show s0.nextIrq k = none from hirq,
    show s0.fetchFails n len = none from hfetch]
  rfl

/-- `t` is what an instruction of `len` bytes leaves of core `n` in `d`, past it, and of the rest in `s1`. -/
structure Ends (n : Fin 32) (len : Nat) (d : HostCore) (s s1 t : State) : Prop where
  frame : t = { s1 with cores := t.cores, free := t.free }
  core : HostCore.Counts { d with pc := d.pc + BitVec.ofNat 64 len } (t.core n.val)
  other : ∀ k, k ≠ n.val → t.core k = s.core k

theorem ends_runInstr {svx : Bool} {len : Nat} {body : State → IRes} {d : HostCore} (he : s.executes n len)
    (hn : n.val < s.cores.length) (hb : body (s.awake n) = .done s1) (hc : s1.cores = s.cores.set n.val d) :
    Ends n len d s s1 (s.runInstr n svx len body) := by
  have hn1 : n.val < s1.cores.length := by rwa [hc, List.length_set]
  have hcore (k : Nat) : s1.core k = (s.setCore n.val d).core k := by rw [State.core, hc]; rfl
  rw [runInstr_of_executes he, hb]
  have hret : Counts n.val (s1.modCore n.val fun c => { c with pc := c.pc + BitVec.ofNat 64 len }) (endInstr n.val svx len (.done s1)) :=
    Counts.retire (by rwa [modCore, setCore, List.length_set]) svx
  have hd : s1.core n.val = d := (hcore _).trans (core_setCore _ _ _ hn)
  refine ⟨hret.frame, ?_, fun k hk => ?_⟩
  · have h := hret.core
    rwa [modCore, core_setCore _ _ _ hn1, hd] at h
  · rw [hret.other k hk, modCore, core_setCore_ne _ _ _ hk, hcore, core_setCore_ne _ _ _ hk]

variable {len : Nat} {d : HostCore} {s1 t : State}

theorem Ends.mem (h : Ends n len d s s1 t) : t.mem = s1.mem := by rw [h.frame]

theorem Ends.caches (h : Ends n len d s s1 t) : t.caches = s1.caches := by rw [h.frame]

theorem Ends.reservations (h : Ends n len d s s1 t) : t.reservations = s1.reservations := by rw [h.frame]

theorem Ends.byte (h : Ends n len d s s1 t) (b : Nat) : t.byte b = s1.byte b := congrArg (Memory.get · b) h.mem

/-- An instruction that changes no core: it moves past it, its registers and the other cores stay. -/
theorem Ends.keeps (h : Ends n len { s.core n.val with state := .running } s s1 t) :
    (t.core n.val).pc = (s.core n.val).pc + BitVec.ofNat 64 len ∧ (t.core n.val).x = (s.core n.val).x ∧
      (t.core n.val).y = (s.core n.val).y ∧ (t.core n.val).q = (s.core n.val).q ∧ ∀ k, k ≠ n.val → t.core k = s.core k :=
  ⟨h.core.pc, h.core.x, h.core.y, h.core.q, h.other⟩

end State
end Sys2Proof.Machine
end

section
/-! Cache-block operations in machine mode (R291, R436), and what an access that needs no translation comes to (R429, R430). -/

namespace Sys2Proof.Machine

variable {s : State} {n : Fin 32}

theorem Mmu.dataMode_awake (hn : n.val < s.cores.length) :
    Mmu.dataMode ((s.awake n).core n.val) = Mmu.dataMode (s.core n.val) := by
  rw [State.core_awake hn]
  rfl

theorem State.physFault_awake (hn : n.val < s.cores.length) {mode : Priv} {k : Access} {svx : Bool} {a len : Nat} :
    (s.awake n).physFault n mode k svx a len = s.physFault n mode k svx a len := by
  simp only [State.physFault, State.core_awake hn]
  rfl

/-- An access in machine mode that no check refuses reaches the address that it names, and changes nothing yet (R429, R430). -/
theorem Mmu.resolve_machine {k : Access} {svx : Bool} {a len : Nat} (hm : Mmu.dataMode (s.core n.val) = .m) (hk : k ≠ .fetch)
    (hp : s.physFault n .m k svx a len = none) : Mmu.resolve s n k svx a len = .ok a s := by
  simp [Mmu.resolve, hk, hm, Mmu.translate, hp]

/-- The same for the core that starts an instruction. -/
theorem Mmu.resolve_awake {k : Access} {svx : Bool} {a len : Nat} (hn : n.val < s.cores.length)
    (hm : Mmu.dataMode (s.core n.val) = .m) (hk : k ≠ .fetch) (hp : s.physFault n .m k svx a len = none) :
    Mmu.resolve (s.awake n) n k svx a len = .ok a (s.awake n) :=
  Mmu.resolve_machine ((Mmu.dataMode_awake hn).trans hm) hk ((State.physFault_awake hn).trans hp)

namespace State

/-- A store's bytes at their places. -/
theorem byte_store_in (h : s.memOk) {a i : Nat} {bs : List Byte} (hi : i < bs.length) : (s.store a bs).byte (a + i) = bs[i] :=
  Memory.get_setBytes_in h a bs i hi

/-- An instruction that changes nothing moves the pc and the counters on, and that is all. -/
theorem Ends.coreSteps {t : State} {len : Nat} (h : Ends n len { s.core n.val with state := .running } s (s.awake n) t) :
    s.coreSteps t n len ∧ s.sameFloat t n := by
  have hcsr := h.core.csr
  refine ⟨⟨⟨h.frame, h.other, h.core.mode, h.core.state, ?_⟩, h.core.pc⟩, ?_, ?_⟩
  · rw [hcsr]
  · rw [hcsr]
  · rw [hcsr]

end State

namespace Cbo

theorem allowed_machine {c : HostCore} (hm : c.mode = .m) (op : Op) : allowed c op = true := by
  rw [allowed, hm]
  rfl

theorem flushes_machine {c : HostCore} (hm : c.mode = .m) : flushes c = false := by
  rw [flushes, hm]
  rfl

theorem resolve_of_load {op : Op} {va a : Nat} (hop : op ≠ .zero) (h : Mmu.resolve s n .load false va 64 = .ok a s) :
    resolve s n op va = .ok a s := by
  cases op with
  | zero => exact absurd rfl hop
  | clean => simp only [resolve, h]
  | flush => simp only [resolve, h]
  | inval => simp only [resolve, h]

/-- The body of an operation in machine mode on a block of Edern memory is its effect on that block (R436). -/
theorem body_machine {op : Op} {rs1 w a : Nat} (hm : (s.core n.val).mode = .m)
    (ha : ((s.core n.val).reg rs1).toNat / 64 * 64 = a) (he : isEdern a = true) (hr : resolve s n op a = .ok a s)
    (hp : op = .zero → s.poisonIn a 64 = false) : body n op rs1 w s = .done (act s op a) := by
  have hz : ¬ (op = .zero ∧ s.poisonIn a 64 = true) := fun ⟨ho, hpo⟩ => by rw [hp ho] at hpo; cases hpo
  simp only [body, allowed_machine hm, flushes_machine hm, ha, hr, he, hz, Bool.not_true, Bool.false_eq_true, and_false, if_true,
    if_false]

theorem act_zero (s : State) (a : Nat) : act s .zero a = s.store a (List.replicate 64 0) := by
  unfold act
  rfl

/-- `cbo.inval` lets the copies of the block go, and brings bytes back only where one of them was dirty. -/
theorem act_inval (s : State) (a : Nat) :
    ∃ m, act s .inval a = { s with mem := m, caches := s.caches.filter fun b => b.addr != a } ∧
      ((∀ b ∈ s.caches, b.addr = a → b.stale = none) → m = s.mem) := by
  unfold act
  extract_lets back s1
  have h : ∃ m, s1 = { s with mem := m } ∧ ((∀ b ∈ s.caches, b.addr = a → b.stale = none) → m = s.mem) := by
    refine List.foldlRecOn (motive := fun t : State => ∃ m, t = { s with mem := m } ∧ (_ → m = s.mem)) _ back
      ⟨s.mem, rfl, fun _ => rfl⟩ fun t ⟨m, ht, hm⟩ b hb => ?_
    obtain ⟨hmem, haddr⟩ := List.mem_filter.1 hb
    unfold back
    split
    next old hold =>
      refine ⟨m.setBytes a old, by rw [ht], fun hclean => ?_⟩
      have := (hclean b hmem (eq_of_beq haddr)).symm.trans hold
      cases this
    next => exact ⟨m, ht, hm⟩
  obtain ⟨m, hm, hclean⟩ := h
  exact ⟨m, by rw [hm], hclean⟩

theorem act_cores (s : State) (op : Op) (a : Nat) : (act s op a).cores = s.cores := by
  cases op with
  | clean => rfl
  | flush => rfl
  | zero => rw [act_zero, State.store_cores]
  | inval =>
    obtain ⟨m, hm, -⟩ := act_inval s a
    rw [hm]

theorem act_clean_stale (s : State) (a : Nat) : ∀ b ∈ (act s .clean a).caches, b.addr = a → b.stale = none := by
  intro b hb hba
  obtain ⟨c, -, rfl⟩ := List.mem_map.1 hb
  by_cases hc : c.addr = a
  · rw [if_pos hc]
  · rw [if_neg hc] at hba
    exact absurd hba hc

theorem mem_act_clean {a : Nat} {b : CacheBlock} (hb : b ∈ s.caches) (hne : b.addr ≠ a) : b ∈ (act s .clean a).caches :=
  List.mem_map.2 ⟨b, hb, if_neg hne⟩

theorem byte_act_zero (h : s.memOk) (a b : Nat) :
    (act s .zero a).byte b = if a ≤ b ∧ b < a + 64 then 0 else s.byte b := by
  have hlen : (List.replicate 64 (0 : Byte)).length = 64 := List.length_replicate
  rw [act_zero]
  split
  next hin =>
    obtain ⟨i, rfl⟩ := Nat.exists_eq_add_of_le hin.1
    rw [State.byte_store_in h (by omega), List.getElem_replicate]
  next hout => exact State.byte_store_out s h a _ (by omega)

/-- The row of an operation in machine mode on a block of Edern memory. -/
theorem ends_runInstr {op : Op} {rs1 w a : Nat} (he : s.executes n 4) (hn : n.val < s.cores.length)
    (hm : (s.core n.val).mode = .m) (ha : ((s.core n.val).reg rs1).toNat / 64 * 64 = a) (hed : isEdern a = true)
    (hr : resolve (s.awake n) n op a = .ok a (s.awake n)) (hp : op = .zero → s.poisonIn a 64 = false) :
    State.Ends n 4 { s.core n.val with state := .running } s (act (s.awake n) op a) (s.runInstr n false 4 (body n op rs1 w)) := by
  have hcore := State.core_awake hn
  refine State.ends_runInstr he hn (body_machine ?_ ?_ hed hr hp) (act_cores ..)
  · rwa [hcore]
  · rwa [hcore]

end Cbo
end Sys2Proof.Machine
end

section
open Sys2Proof.Machine
namespace Sys2Proof.Proofs

/-- Settles O47: in machine mode no check stands before the operation's effect on its block, which touches no core. -/
theorem cacheBlockOps : Obligations.CacheBlockOps := by
  intro s n rs1 hok he hs
  obtain ⟨hn, -⟩ := hs
  constructor
  · intro p q
    have h : State.Ends n 4 _ s (s.awake n) (s.runInstr n false 4 fenceInstr) :=
      State.ends_runInstr he hn rfl (State.awake_cores s n)
    obtain ⟨hsteps, hfloat⟩ := h.coreSteps
    obtain ⟨-, hx, hy, hq, -⟩ := h.keeps
    exact ⟨_, rfl, hsteps, hfloat, hx, hy, hq⟩
  · intro hm hdm a hed hload kept
    have hload : Mmu.resolve (s.awake n) n .load false a 64 = .ok a (s.awake n) := Mmu.resolve_awake hn hdm nofun hload
    have hrow (op : Cbo.Op) (w : Nat) (hr : Cbo.resolve (s.awake n) n op a = .ok a (s.awake n))
        (hp : op = .zero → s.poisonIn a 64 = false) :=
      Cbo.ends_runInstr (rs1 := rs1.toNat) (w := w) he hn hm rfl hed hr hp
    have hclean := hrow .clean (cboWord 1 rs1.toNat) (Cbo.resolve_of_load nofun hload) nofun
    have hflush := hrow .flush (cboWord 2 rs1.toNat) (Cbo.resolve_of_load nofun hload) nofun
    have hinval := hrow .inval (cboWord 0 rs1.toNat) (Cbo.resolve_of_load nofun hload) nofun
    refine ⟨⟨_, rfl, hclean.keeps, ?_⟩, ⟨_, rfl, hflush.keeps, ?_⟩, ⟨_, rfl, hinval.keeps, ?_⟩, fun hstore hp => ?_⟩
    · rw [hclean.mem, hclean.caches]
      exact ⟨rfl, Cbo.act_clean_stale _ a, fun b hb hne => Cbo.mem_act_clean (s := s.awake n) hb hne⟩
    · rw [hflush.mem, hflush.caches]
      exact ⟨rfl, rfl⟩
    · obtain ⟨m, hm, hclean⟩ := Cbo.act_inval (s.awake n) a
      rw [hinval.mem, hinval.caches, hm]
      exact ⟨rfl, hclean⟩
    · have hzero := hrow .zero (cboWord 4 rs1.toNat) (Mmu.resolve_awake hn hdm nofun hstore) fun _ => hp
      exact ⟨_, rfl, hzero.keeps, fun b => (hzero.byte b).trans (Cbo.byte_act_zero (s := s.awake n) hok a b)⟩

end Sys2Proof.Proofs
end

section
/-! Words in memory: a word that is stored is read back, and the operations of R268 stay within the word. -/

namespace Sys2Proof.Machine

/-- The bytes of the value of bytes. -/
theorem toLe_leNat (bs : List Byte) : toLe bs.length (leNat bs) = bs := by
  induction bs with
  | nil => rfl
  | cons b bs ih =>
    have hb := b.isLt
    have hlow : BitVec.ofNat 8 (b.toNat + 256 * leNat bs) = b := BitVec.eq_of_toNat_eq (by rw [BitVec.toNat_ofNat]; omega)
    have hhigh : (b.toNat + 256 * leNat bs) / 256 = leNat bs := by omega
    rw [leNat, List.length_cons, toLe, hlow, hhigh, ih]

theorem two_pow_eight_mul (n : Nat) : 2 ^ (8 * n) = 256 ^ n := Nat.pow_mul 2 8 n

namespace State

variable {s : State}

theorem toLe_read (s : State) (a n : Nat) : toLe n (s.read a n) = s.bytes a n := by
  have h := toLe_leNat (s.bytes a n)
  rwa [bytes, Memory.getBytes_length] at h

theorem read_lt (s : State) (a n : Nat) : s.read a n < 2 ^ (8 * n) := by
  have h := leNat_lt (s.bytes a n)
  rwa [bytes, Memory.getBytes_length, ← two_pow_eight_mul] at h

/-- A word that is written reads back. -/
theorem read_storeNat (h : s.memOk) {a n v : Nat} (hv : v < 2 ^ (8 * n)) : (s.storeNat a n v).read a n = v := by
  have hb := bytes_store s h a (toLe n v)
  rw [toLe_length, bytes] at hb
  rw [storeNat, read, hb, leNat_toLe, ← two_pow_eight_mul, Nat.mod_eq_of_lt hv]

/-- A word that is written leaves every other byte. -/
theorem byte_storeNat_out (h : s.memOk) {a n v b : Nat} (hb : b < a ∨ a + n ≤ b) : (s.storeNat a n v).byte b = s.byte b :=
  byte_store_out s h a _ (by rwa [toLe_length])

/-- What a write of a word leaves of memory. -/
theorem word_of_mem {t : State} {a n v : Nat} (h : s.memOk) (hv : v < 2 ^ (8 * n)) (ht : t.mem = (s.storeNat a n v).mem) :
    t.read a n = v ∧ ∀ b, (b < a ∨ a + n ≤ b) → t.byte b = s.byte b := by
  rw [read, ht]
  exact ⟨read_storeNat h hv, fun b hb => (congrArg (Memory.get · b) ht).trans (byte_storeNat_out h hb)⟩

end State

namespace Amo

/-- The result of an operation on words is a word. -/
theorem compute_lt {op : AmoOp} {bits old v : Nat} (ho : old < 2 ^ bits) (hv : v < 2 ^ bits) : compute op bits old v < 2 ^ bits := by
  have hite (p : Prop) [Decidable p] : (if p then v else old) < 2 ^ bits := by
    split
    · exact hv
    · exact ho
  cases op with
  | swap => exact hv
  | add => exact Nat.mod_lt _ (Nat.two_pow_pos bits)
  | xor => exact Nat.xor_lt_two_pow ho hv
  | and => exact Nat.and_lt_two_pow old hv
  | or => exact Nat.or_lt_two_pow ho hv
  | min => exact hite _
  | max => exact hite _
  | minu => exact min_lt_of_left_lt ho
  | maxu => exact max_lt ho hv

end Amo
end Sys2Proof.Machine
end

section
/-! Atomics of a host core in machine mode (R268, R438). -/

namespace Sys2Proof.Machine

namespace HostCore

variable (c : HostCore) (i : Nat) (v : W64)

@[simp] theorem setReg_pc : (c.setReg i v).pc = c.pc := by unfold setReg; split <;> rfl
@[simp] theorem setReg_y : (c.setReg i v).y = c.y := by unfold setReg; split <;> rfl
@[simp] theorem setReg_q : (c.setReg i v).q = c.q := by unfold setReg; split <;> rfl

/-- An integer register is read as it was set; x0 reads 0 (R425). -/
theorem reg_setReg {c : HostCore} {i : Nat} (hi : i < c.x.length) (v : W64) (k : Nat) :
    (c.setReg i v).reg k = if k = i ∧ k ≠ 0 then v else c.reg k := by
  by_cases hk : k = 0
  · simp [reg, hk]
  · by_cases hki : k = i
    · subst hki
      simp [reg, setReg, hk, List.getD, hi]
    · by_cases h0 : i = 0
      · simp [setReg, h0, hk]
      · simp [reg, setReg, hk, hki, h0, List.getD, List.getElem?_set_ne (Ne.symm hki)]

end HostCore

variable {s s1 t u : State} {n : Fin 32} {rd rs1 rs2 : Nat} {v : W64} {double : Bool} {k : Nat}

namespace State

/-- An instruction that writes an integer register and changes no core besides. -/
theorem ends_withReg {body : State → IRes} (he : s.executes n 4) (hn : n.val < s.cores.length)
    (hb : body (s.awake n) = withReg u n.val rd v) (hu : u.cores = (s.awake n).cores) :
    Ends n 4 (({ s.core n.val with state := .running } : HostCore).setReg rd v) s (u.modCore n.val fun c => c.setReg rd v)
      (s.runInstr n false 4 body) := by
  refine ends_runInstr he hn hb ?_
  have hcore : u.core n.val = (s.awake n).core n.val := by rw [core, hu, core]
  rw [modCore, setCore_cores, hcore, core_awake hn, hu, awake_cores, List.set_set]

/-- The core after such an instruction. -/
theorem Ends.loads (h : Ends n 4 (({ s.core n.val with state := .running } : HostCore).setReg rd v) s s1 t)
    (hrd : rd < (s.core n.val).x.length) :
    (t.core n.val).pc = (s.core n.val).pc + 4 ∧ (t.core n.val).y = (s.core n.val).y ∧ (t.core n.val).q = (s.core n.val).q ∧
      (∀ i, (t.core n.val).reg i = if i = rd ∧ i ≠ 0 then v else (s.core n.val).reg i) ∧
      ∀ m, m ≠ n.val → t.core m = s.core m := by
  have hreg (i : Nat) : (t.core n.val).reg i = (({ s.core n.val with state := .running } : HostCore).setReg rd v).reg i := by
    rw [HostCore.reg, h.core.x, HostCore.reg]
  refine ⟨h.core.pc.trans ?_, h.core.y.trans (HostCore.setReg_y ..), h.core.q.trans (HostCore.setReg_q ..), fun i => ?_, h.other⟩
  · rw [HostCore.setReg_pc]
    rfl
  · exact (hreg i).trans (HostCore.reg_setReg (c := { s.core n.val with state := .running }) hrd v i)

end State

namespace Amo

theorem body_eq {op : AmoOp} {a : Nat} (hk : k = if double then 8 else 4) (ha : ((s.core n.val).reg rs1).toNat = a)
    (hr : Mmu.resolve s n .amo false a k = .ok a s) (hp : s.poisonIn a k = false) :
    body n op double rd rs1 rs2 s =
      withReg ((s.recallBlocks a k).storeNat a k
          (compute op (8 * k) (s.read a k) (((s.core n.val).reg rs2).toNat % 2 ^ (8 * k)))) n.val rd (extend k (s.read a k)) := by
  subst hk
  simp only [body, ha, hr, hp, Bool.false_eq_true, if_false, atStack]

theorem lr_eq {a : Nat} (hk : k = if double then 8 else 4) (ha : ((s.core n.val).reg rs1).toNat = a)
    (hr : Mmu.resolve s n .lr false a k = .ok a s) (hp : s.poisonIn a k = false) :
    ∃ u, lr n double rd rs1 s = withReg u n.val rd (extend k (s.read a k)) ∧ u.cores = s.cores ∧ u.mem = s.mem ∧
      u.reservations = (s.reservations.filter fun r => r.1 != n.val) ++ [(n.val, a / 256 * 256)] := by
  subst hk
  simp only [lr, ha, hr, hp, Bool.false_eq_true, if_false]
  exact ⟨_, rfl, rfl, rfl, rfl⟩

theorem sc_held {a : Nat} (hk : k = if double then 8 else 4) (ha : ((s.core n.val).reg rs1).toNat = a)
    (hr : Mmu.resolve s n .amo false a k = .ok a s) (hp : s.poisonIn a k = false)
    (hh : (n.val, a / 256 * 256) ∈ s.reservations) :
    sc n double rd rs1 rs2 s =
      withReg (((s.dropReservation n.val).recallBlocks a k).storeNat a k (((s.core n.val).reg rs2).toNat % 2 ^ (8 * k))) n.val rd 0 := by
  subst hk
  have hc : s.reservations.contains (n.val, a / 256 * 256) = true := List.contains_iff_mem.2 hh
  have hp1 : (s.dropReservation n.val).poisonIn a (if double then 8 else 4) = false := hp
  simp only [sc, ha, hr, hc, hp1, Bool.not_true, Bool.false_eq_true, if_false, atStack]

theorem sc_lost {a : Nat} (hk : k = if double then 8 else 4) (ha : ((s.core n.val).reg rs1).toNat = a)
    (hr : Mmu.resolve s n .amo false a k = .ok a s) (hh : (n.val, a / 256 * 256) ∉ s.reservations) :
    sc n double rd rs1 rs2 s = withReg (s.dropReservation n.val) n.val rd 1 := by
  subst hk
  have hc : s.reservations.contains (n.val, a / 256 * 256) = false := by
    rw [← Bool.not_eq_true, List.contains_iff_mem]
    exact hh
  simp only [sc, ha, hr, hc, Bool.not_false, if_true]

end Amo

theorem exec_lr (rd rs1 rs2 : BitVec 5) :
    exec (.lrSc n false double rd rs1 rs2) s = .next (s.runInstr n false 4 (Amo.lr n double rd.toNat rs1.toNat)) := rfl

theorem exec_sc (rd rs1 rs2 : BitVec 5) :
    exec (.lrSc n true double rd rs1 rs2) s = .next (s.runInstr n false 4 (Amo.sc n double rd.toNat rs1.toNat rs2.toNat)) := rfl

end Sys2Proof.Machine
end

section
open Sys2Proof.Machine
namespace Sys2Proof.Proofs

/-- Settles O48: the bodies of AMO, LR and SC end in the write of rd, after which the core moves on; what they store is a word. -/
theorem coreAtomics : Obligations.CoreAtomics := by
  intro s n op double rd rs1 rs2 hok he hs hm k c a v old loads holds held hed hamo hp
  obtain ⟨hn, hx, -⟩ := hs
  have hrd : rd.toNat < (s.core n.val).x.length := by
    rw [hx]
    exact rd.isLt
  have hreg (i : Nat) : ((s.awake n).core n.val).reg i = c.reg i := by
    rw [State.core_awake hn]
    rfl
  have ha : (((s.awake n).core n.val).reg rs1.toNat).toNat = a := congrArg BitVec.toNat (hreg _)
  have hv : (((s.awake n).core n.val).reg rs2.toNat).toNat % 2 ^ (8 * k) = v := by rw [hreg]
  have hamo : Mmu.resolve (s.awake n) n .amo false a k = .ok a (s.awake n) := Mmu.resolve_awake hn hm nofun hamo
  have hvlt : v < 2 ^ (8 * k) := Nat.mod_lt _ (Nat.two_pow_pos _)
  have hmine (l : List (Nat × Nat)) : ∀ r ∈ l.filter fun r => r.1 != n.val, r.1 ≠ n.val := fun r hr =>
    bne_iff_ne.1 (List.mem_filter.1 hr).2
  refine ⟨?_, fun hlr => ?_, fun hh => ?_, fun hh => ?_⟩
  · have hbody := Amo.body_eq (op := op) (rd := rd.toNat) (rs2 := rs2.toNat) rfl ha hamo hp
    rw [hv] at hbody
    have h := State.ends_withReg he hn hbody rfl
    exact ⟨_, rfl, h.loads hrd, State.word_of_mem hok (Amo.compute_lt (State.read_lt s a k) hvlt) h.mem⟩
  · obtain ⟨u, hbody, hcores, hmem, hres⟩ :=
      Amo.lr_eq (rd := rd.toNat) rfl ha (Mmu.resolve_awake hn hm nofun hlr) hp
    have h := State.ends_withReg he hn hbody hcores
    have hrs : _ = (s.reservations.filter fun r => r.1 != n.val) ++ [(n.val, a / 256 * 256)] := h.reservations.trans hres
    refine ⟨_, exec_lr .., h.loads hrd, h.mem.trans hmem, ?_, fun l hl => ?_⟩
    · rw [hrs]
      exact List.mem_append_right _ (List.mem_singleton_self _)
    · rw [hrs, List.mem_append, List.mem_singleton] at hl
      rcases hl with hl | hl
      · exact absurd rfl (hmine _ _ hl)
      · exact congrArg Prod.snd hl
  · have hbody := Amo.sc_held (rd := rd.toNat) (rs2 := rs2.toNat) rfl ha hamo hp hh
    rw [hv] at hbody
    have h := State.ends_withReg he hn hbody rfl
    refine ⟨_, exec_sc .., h.loads hrd, State.word_of_mem hok hvlt h.mem, fun r hr => ?_⟩
    rw [h.reservations] at hr
    exact hmine _ r (List.mem_filter.1 hr).1
  · have h := State.ends_withReg he hn (Amo.sc_lost (rd := rd.toNat) (rs2 := rs2.toNat) rfl ha hamo hh) rfl
    refine ⟨_, exec_sc .., h.loads hrd, h.mem, fun r hr => ?_⟩
    rw [h.reservations] at hr
    exact hmine _ r hr

end Sys2Proof.Proofs
end

section
/-! Atomics at the stack and the patrol of a line that is clean (R268, R270, R275). -/

namespace Sys2Proof.Machine

/-- Reading in two's complement is that of a bit vector. -/
theorem toInt_ofNat_eq_signedOf {n : Nat} (hn : 0 < n) (w : Nat) : (BitVec.ofNat n w).toInt = signedOf n w := by
  have h2 : 2 ^ n = 2 * 2 ^ (n - 1) := by rw [two_pow_eq_add_half hn, Nat.two_mul]
  have hlt : 2 * (w % 2 ^ n) < 2 ^ n ↔ w % 2 ^ n < 2 ^ (n - 1) := by omega
  rw [BitVec.toInt_eq_toNat_cond, BitVec.toNat_ofNat, signedOf]
  simp only [hlt]

namespace Amo

variable {bits old v : Nat}

theorem compute_min (h : 0 < bits) :
    compute .min bits old v = if (BitVec.ofNat bits v).toInt < (BitVec.ofNat bits old).toInt then v else old := by
  rw [toInt_ofNat_eq_signedOf h, toInt_ofNat_eq_signedOf h]
  rfl

theorem compute_max (h : 0 < bits) :
    compute .max bits old v = if (BitVec.ofNat bits old).toInt < (BitVec.ofNat bits v).toInt then v else old := by
  rw [toInt_ofNat_eq_signedOf h, toInt_ofNat_eq_signedOf h]
  rfl

end Amo

namespace Ecc

theorem judge_nil (mark : Option Nat) : judge mark [] = .clean := rfl

end Ecc

namespace State

variable {s : State} {st : Nat}

/-- An atomic at the stack on a word that is not poisoned answers the word and stores the result (R268). -/
theorem amoAtStack_eq {a n v : Nat} {op : AmoOp} (h : s.memOk) (hp : s.poisonIn a n = false) :
    let t := s.amoAtStack a op n v
    t.replyStatus = 0 ∧ t.reply = s.bytes a n ∧ t.read a n = Amo.compute op (8 * n) (s.read a n) (v % 2 ^ (8 * n)) ∧
      (∀ b, b < a ∨ a + n ≤ b → t.byte b = s.byte b) ∧ t.queues = s.queues ∧ t.cores = s.cores := by
  intro t
  have hres := Amo.compute_lt (op := op) (s.read_lt a n) (Nat.mod_lt v (Nat.two_pow_pos (8 * n)))
  have ht : t = ((s.recallBlocks a n).storeNat a n (Amo.compute op (8 * n) (s.read a n) (v % 2 ^ (8 * n)))).answer .ok
      (toLe n (s.read a n)) := by
    simp only [t, amoAtStack, hp, Bool.false_eq_true, if_false]
  rw [ht]
  obtain ⟨hread, hbyte⟩ := word_of_mem (t := ((s.recallBlocks a n).storeNat a n _).answer .ok (toLe n (s.read a n))) h hres rfl
  exact ⟨rfl, toLe_read s a n, hread, hbyte, rfl, rfl⟩

theorem exec_stackAmo {a : Nat} {op : AmoOp} {double : Bool} {v : W64} (ha : a % (if double then 8 else 4) = 0)
    (he : isEdern a = true) :
    exec (.stackAmo a op double v) s = .next (s.amoAtStack a op (if double then 8 else 4) v.toNat) :=
  if_pos (by rw [ha, he]; rfl)

/-- Where no codeword was corrected there is nothing to note (R271, R277). -/
theorem noteCorrected_clean {addr line : Nat} : s.noteCorrected st addr line [.clean, .clean] = s := rfl

/-- Patrol finds nothing to do on a clean line (R275). -/
theorem patrolLine_clean {p : Nat} (hp : s.physPoisoned p = false) : s.patrolLine st p { first := [], second := [] } = s := by
  simp only [patrolLine, hp, Ecc.judge_nil, noteCorrected_clean, Bool.false_eq_true, if_false]
  rfl

theorem modStack_congr {f g : Edern → Edern} (h : f (s.stack st) = g (s.stack st)) : s.modStack st f = s.modStack st g := by
  have hl : s.edern.modify st f = s.edern.modify st g := by
    by_cases hst : st < s.edern.length
    · have hs : s.stack st = s.edern[st] := by rw [stack, List.getD_eq_getElem?_getD, List.getElem?_eq_getElem hst, Option.getD_some]
      rw [hs] at h
      rw [List.modify_eq_set_getElem?, List.modify_eq_set_getElem?, List.getElem?_eq_getElem hst]
      exact congrArg _ h
    · rw [List.modify_eq_self (Nat.le_of_not_lt hst), List.modify_eq_self (Nat.le_of_not_lt hst)]
  rw [modStack, hl, modStack]

/-- A patrol read that is due and finds a clean line steps to the next one (R275). -/
theorem patrol_clean (ht : s.power.tested = true) (hd : Patrol.due (s.stack st) s.now = true)
    (hp : s.physPoisoned (st * stackStride + (s.stack st).patrolPos) = false) (hl : (s.stack st).patrolPos / 256 + 1 < Patrol.lines) :
    s.patrol st { first := [], second := [] } = s.modStack st fun e => { e with patrolPos := e.patrolPos + 256 } := by
  simp only [patrol, ht, hd, Bool.not_true, Bool.or_self, Bool.false_eq_true, if_false, patrolLine_clean hp]
  exact modStack_congr (if_pos hl)

/-- None is made before self-test has completed or before its slot (R275, R546). -/
theorem patrol_not_due {err : LineErr} (h : s.power.tested = false ∨ Patrol.due (s.stack st) s.now = false) : s.patrol st err = s := by
  rcases h with h | h <;> simp [patrol, h]

end State
end Sys2Proof.Machine
end

section
open Sys2Proof.Machine
namespace Sys2Proof.Proofs

/-- Settles O18: the word that `amoAtStack` stores is the operation's result, and a clean line leaves patrol only its next place. -/
theorem stackAtomicsAndPatrol : Obligations.StackAtomicsAndPatrol := by
  refine ⟨fun o ho s a double v hok => ?_, fun s st => ⟨fun ht hd hp hl => ?_, fun err h => ?_, rfl⟩⟩
  · intro n ha he hp
    have hn : 0 < 8 * n := by
      unfold n
      split <;> decide
    have hop (old v : Nat) : Amo.compute o.1 (8 * n) old v = o.2 (8 * n) old v := by
      simp only [List.mem_cons, List.not_mem_nil, or_false] at ho
      rcases ho with rfl | rfl | rfl | rfl | rfl | rfl | rfl | rfl | rfl
      exacts [rfl, rfl, rfl, rfl, rfl, rfl, rfl, Amo.compute_min hn, Amo.compute_max hn]
    obtain ⟨hst, hreply, hread, hframe⟩ := State.amoAtStack_eq (op := o.1) (v := v.toNat) hok hp
    exact ⟨_, State.exec_stackAmo ha he, hst, hreply, hread.trans (hop _ _), hframe⟩
  · exact congrArg Host.Outcome.next (State.patrol_clean ht hd hp hl)
  · exact congrArg Host.Outcome.next (State.patrol_not_due h)

end Sys2Proof.Proofs
end

section
/-! What goes to the twin of a generation, and its confirmation (R301, R303, R304, R408). -/

namespace Sys2Proof.Machine.State

variable {s t u : State}

/-- `t` differs from `s` in its ports, in what left the device and in what the Judges compare alone. -/
def Talks (s t : State) : Prop := t = { s with ports := t.ports, out := t.out, judges := t.judges }

namespace Talks

theorem refl : s.Talks s := rfl

theorem trans (h : s.Talks t) (h1 : t.Talks u) : s.Talks u := by
  unfold Talks at *
  rw [h1, h]

theorem of_links (h : s.Links t) : s.Talks t := by
  unfold Links at h
  unfold Talks
  rw [h]

theorem foldl {α : Type} {f : State → α → State} (hf : ∀ s x, State.Talks s (f s x)) (l : List α) (s : State) :
    s.Talks (l.foldl f s) :=
  List.foldlRecOn (motive := s.Talks) _ _ refl fun t ht x _ => ht.trans (hf t x)

theorem sampleJudge (s : State) (p : Nat) (k : Packet) (work : JudgeWork) (output : List Byte) :
    s.Talks (s.sampleJudge p k work output) := by
  unfold State.sampleJudge
  split
  · rfl
  · rfl

theorem sendShadow (s : State) (job : Nat) (kind : ShadowKind) (step addr : Nat) (data : List Byte) :
    s.Talks (s.sendShadow job kind step addr data) := by
  refine foldl (fun s i => ?_) _ _
  split
  · exact (sampleJudge ..).trans (of_links (.send ..))
  · exact of_links (.send ..)

theorem jobs (h : s.Talks t) : t.jobs = s.jobs := by rw [h]

theorem frame (h : s.Talks t) : t.mem = s.mem ∧ t.queues = s.queues ∧ t.groups = s.groups := by
  rw [h]
  exact ⟨rfl, rfl, rfl⟩

end Talks

/-! ### Streaming -/

variable {id step st : Nat} {j : Job} {g : Gen}

theorem job?_of_jobs (h : t.jobs = s.jobs) (id : Nat) : t.job? id = s.job? id := by rw [job?, h, job?]

/-- The generations of a job are found as they were changed. -/
theorem job?_modGen {f : Gen → Gen} (hj : s.job? id = some j) :
    (s.modGen id step f).job? id = some { j with gens := j.gens.map fun g => if g.step = step then f g else g } :=
  job?_modJob (fun _ => rfl) hj

/-- A job holds a generation of the step that the stack has streamed. -/
def Streamed (s : State) (id step st : Nat) : Prop :=
  ∃ j g, s.job? id = some j ∧ g ∈ j.gens ∧ g.step = step ∧ st ∈ g.streamed

namespace Streamed

theorem of_jobs (h : s.Streamed id step st) (ht : t.jobs = s.jobs) : t.Streamed id step st := by
  obtain ⟨j, g, hj, hg⟩ := h
  exact ⟨j, g, (job?_of_jobs ht id).trans hj, hg⟩

theorem modJob (h : s.Streamed id step st) {f : Job → Job} (hid : ∀ j, (f j).id = j.id) (hgens : ∀ j, (f j).gens = j.gens) :
    (s.modJob id f).Streamed id step st := by
  obtain ⟨j, g, hj, hg, hstep⟩ := h
  exact ⟨f j, g, job?_modJob hid hj, (hgens j).symm ▸ hg, hstep⟩

theorem modGen (h : s.Streamed id step st) {f : Gen → Gen} (hstep : ∀ g, (f g).step = g.step)
    (hst : ∀ g, (f g).streamed = g.streamed) : (s.modGen id step f).Streamed id step st := by
  obtain ⟨j, g, hj, hg, hgs, hin⟩ := h
  exact ⟨_, f g, job?_modGen hj, List.mem_map.2 ⟨g, hg, if_pos hgs⟩, (hstep g).trans hgs, (hst g).symm ▸ hin⟩

theorem sendShadow (h : s.Streamed id step st) {job : Nat} {kind : ShadowKind} {n addr : Nat} {data : List Byte} :
    (s.sendShadow job kind n addr data).Streamed id step st := h.of_jobs (Talks.sendShadow ..).jobs

end Streamed

theorem streamed_modGen (hj : s.job? id = some j) (hg : g ∈ j.gens) {f : Gen → Gen} (hstep : (f g).step = g.step)
    (hst : st ∈ (f g).streamed) : (s.modGen id g.step f).Streamed id g.step st :=
  ⟨_, f g, job?_modGen hj, List.mem_map.2 ⟨g, hg, if_pos rfl⟩, hstep, hst⟩

/-- The record follows the granules, and takes nothing back (R303). -/
theorem streamed_streamRecord (h : s.Streamed id step st) :
    let t := s.streamRecord id step
    t.Streamed id step st ∧ t.mem = s.mem ∧ t.queues = s.queues ∧ t.groups = s.groups := by
  unfold streamRecord
  split
  · exact ⟨h, rfl, rfl, rfl⟩
  · split
    · split
      · refine ⟨.sendShadow (.modGen (.modJob h ?_ ?_) ?_ ?_), (Talks.sendShadow ..).frame⟩
        all_goals exact fun _ => rfl
      · exact ⟨h, rfl, rfl, rfl⟩
    · exact ⟨h, rfl, rfl, rfl⟩

/-- A stack that has a generation to stream, and no poisoned granule of it, has streamed it afterwards (R303, R304). -/
theorem streamed_shadowStream (hj : s.job? id = some j) (hs : s.shadowing = true) (hg : toStream j st = some g)
    (hp : (g.poisoned.any fun l => (deltaGranules j g st).contains (l / granule * granule)) = false) :
    let t := s.shadowStream id st
    t.Streamed id g.step st ∧ t.mem = s.mem ∧ t.queues = s.queues ∧ t.groups = s.groups := by
  unfold shadowStream
  simp only [hj, hs, hg, hp, if_true, Bool.false_eq_true, if_false]
  generalize hs1 : (deltaGranules j g st).foldl
    (fun s a => s.sendShadow id .stream g.step a (granuleOf g.cells a)) s = s1
  have h1 : s.Talks s1 := hs1 ▸ Talks.foldl (fun _ _ => Talks.sendShadow ..) _ _
  have hjob : (s1.modStack st fun e => { e with shadowSent := e.shadowSent + granule * (deltaGranules j g st).length }).job? id =
      some j := (job?_of_jobs h1.jobs id).trans hj
  obtain ⟨hrec, hmem, hqueues, hgroups⟩ := streamed_streamRecord (streamed_modGen hjob (List.mem_of_find?_eq_some hg)
    (f := fun x => { x with streamed := x.streamed ++ [st], sent := x.sent ++ deltaGranules j g st }) rfl
    (List.mem_append_right _ (List.mem_singleton_self st)))
  obtain ⟨h1mem, h1queues, h1groups⟩ := h1.frame
  exact ⟨hrec, hmem.trans h1mem, hqueues.trans h1queues, hgroups.trans h1groups⟩

/-! ### Confirmation -/

/-- The twin holds a generation once it has confirmed all that was sent of it (R304). -/
theorem twinHolds_confirmed (hf : g.state = .frozen) (hall : ∀ k < 8, k ∈ g.streamed) (hr : streamRefused ∉ g.streamed)
    (hrec : recordAddr ∈ g.sent) : twinHolds { g with confirmed := g.sent } = true := by
  simp only [twinHolds, hf, Bool.and_eq_true, List.all_eq_true, List.mem_range, List.contains_iff_mem, Bool.not_eq_true',
    beq_self_eq_true, true_and]
  exact ⟨⟨⟨hall, by rw [← Bool.not_eq_true, List.contains_iff_mem]; exact hr⟩, hrec⟩, fun _ h => h⟩

theorem mem_shadowGen (hg : g ∈ j.gens) (hstep : g.step = step) (hf : g.state = .frozen) (hl : g.lostLocal = false) :
    { g with state := .shadowed } ∈ (shadowGen step j).gens := by
  refine List.mem_map.2 ⟨{ g with state := .shadowed }, List.mem_map.2 ⟨g, hg, ?_⟩, ?_⟩
  · rw [if_pos ⟨hstep, hf⟩, hl]
    rfl
  · exact if_neg (by rw [hstep]; exact lt_irrefl _)

/-- Generations before the restore point are released (R301, R408). -/
theorem released_shadowGen {x : Gen} (hx : x ∈ (shadowGen step j).gens) (hlt : x.step < step) : x.state = .released := by
  obtain ⟨y, -, rfl⟩ := List.mem_map.1 hx
  by_cases hy : y.step < step
  · rw [if_pos hy]
  · rw [if_neg hy] at hlt
    exact absurd hlt hy

/-- A generation that has been streamed whole is SHADOWED by the twin's confirmation (R301, R304). -/
theorem job?_shadowConfirmed (hj : s.job? id = some j) (hg : g ∈ j.gens) (hstep : g.step = step)
    (hh : twinHolds { g with confirmed := g.sent } = true) :
    let j1 : Job := { j with gens := j.gens.map fun g => if g.step = step then { g with confirmed := g.sent } else g }
    { g with confirmed := g.sent } ∈ j1.gens ∧
      s.shadowConfirmed id step = (s.modGen id step fun g => { g with confirmed := g.sent }).modJob id (shadowGen step) ∧
      (s.shadowConfirmed id step).job? id = some (shadowGen step j1) := by
  intro j1
  have hmem : { g with confirmed := g.sent } ∈ j1.gens := List.mem_map.2 ⟨g, hg, if_pos hstep⟩
  have hjob : (s.modGen id step fun g => { g with confirmed := g.sent }).job? id = some j1 := job?_modGen hj
  have hany : (j1.gens.any fun g => g.step == step && twinHolds g) = true :=
    List.any_eq_true.2 ⟨_, hmem, by rw [hh, Bool.and_true]; exact beq_iff_eq.2 hstep⟩
  have heq : s.shadowConfirmed id step =
      (s.modGen id step fun g => { g with confirmed := g.sent }).modJob id (shadowGen step) := by
    rw [shadowConfirmed, shadowWhole, hjob]
    exact if_pos hany
  refine ⟨hmem, heq, ?_⟩
  rw [heq]
  exact job?_modJob (fun _ => rfl) hjob

end Sys2Proof.Machine.State
end

section
/-! A local restore: memory reads as the generation holds it, and job and queues stand where it holds them (R302). -/

namespace Sys2Proof.Machine

namespace Memory

variable {m : Memory}

theorem get_cons_self (c : Host.Cell) (m : Memory) : get (c :: m) c.1 = c.2 := if_pos rfl

theorem get_cons_ne {c : Host.Cell} (h : sortedFrom (c.1 + 1) m = true) {a : Nat} (ha : a ≠ c.1) : get (c :: m) a = get m a := by
  rw [get, if_neg ha]
  split
  next hlt => exact (get_below h (Nat.lt_succ_of_lt hlt)).symm
  next => rfl

/-- A filter over addresses drops the bytes that it refuses. -/
theorem get_filter {p : Nat → Bool} {n : Nat} (h : sortedFrom n m = true) (a : Nat) :
    get (m.filter fun c => p c.1) a = if p a then get m a else 0 := by
  induction m generalizing n with
  | nil => exact (ite_self 0).symm
  | cons c m ih =>
    obtain ⟨-, hm⟩ := Bool.and_eq_true_iff.1 h
    rw [List.filter_cons]
    by_cases hac : a = c.1
    · subst hac
      have hbelow : get (m.filter fun c => p c.1) c.1 = 0 := get_below (sortedFrom_filter hm _) (Nat.lt_succ_self _)
      split
      · rw [get_cons_self, get_cons_self]
      · exact hbelow
    · rw [get_cons_ne hm hac, ← ih hm]
      split
      · exact get_cons_ne (sortedFrom_filter hm _) hac
      · rfl

/-- Cells that are written one after another show through where they say something. -/
theorem get_foldl_set {cells : Memory} {n : Nat} (hc : sortedFrom n cells = true) (h : m.wf = true) (a : Nat) :
    get (cells.foldl (fun acc c => set acc c.1 c.2) m) a = if get cells a = 0 then get m a else get cells a := by
  induction cells generalizing m n with
  | nil => simp [get]
  | cons c cells ih =>
    simp only [sortedFrom, Bool.and_eq_true, bne_iff_ne, ne_eq] at hc
    obtain ⟨⟨-, hne⟩, hcells⟩ := hc
    rw [List.foldl_cons, ih hcells (wf_set h c.1 c.2)]
    by_cases hac : a = c.1
    · subst hac
      rw [get_below hcells (Nat.lt_succ_self _), if_pos rfl, get_set_self h, get_cons_self, if_neg hne]
    · rw [get_set_ne h c.2 hac, get_cons_ne hcells hac]

theorem get_overlay (h : m.wf = true) {cells : Memory} (hc : cells.wf = true) (base len a : Nat) :
    get (overlay m base len cells) a = if (Range.mk base len).contains a then get cells a else get m a := by
  have hin (l : Memory) (hl : l.wf = true) : get (l.filter fun c => decide (base ≤ c.1) && decide (c.1 < base + len)) a =
      if (Range.mk base len).contains a then get l a else 0 :=
    get_filter (p := (Range.mk base len).contains) hl a
  have hout : get (m.filter fun c => !(decide (base ≤ c.1) && decide (c.1 < base + len))) a =
      if (Range.mk base len).contains a then 0 else get m a := by
    refine (get_filter (p := fun b => !(Range.mk base len).contains b) h a).trans ?_
    cases (Range.mk base len).contains a <;> rfl
  rw [overlay, get_foldl_set (sortedFrom_filter hc _) (sortedFrom_filter h _), hin cells hc, hout]
  split
  · split
    next h0 => exact h0.symm
    next => rfl
  · exact if_pos rfl

/-- The ranges of a set read as the cells say, and the rest as before. -/
theorem get_foldl_overlay {cells : Memory} (hc : cells.wf = true) (rs : List Range) (h : m.wf = true) (a : Nat) :
    get (rs.foldl (fun m r => m.overlay r.base r.len cells) m) a =
      if rs.any fun r => r.contains a then get cells a else get m a := by
  induction rs generalizing m with
  | nil => rfl
  | cons r rs ih =>
    rw [List.foldl_cons, ih (wf_overlay h ..), get_overlay h hc, List.any_cons]
    cases r.contains a <;> cases rs.any (·.contains a) <;> rfl

end Memory

/-- A queue of a restored job is FROZEN, or UNBOUND as it was (R302). -/
theorem rewindQueue_state (qs : List (Nat × Committed)) (q : CmdQueue) :
    (rewindQueue qs q).state = .frozen ∨ (rewindQueue qs q).state = .unbound := by
  by_cases h : q.state = .unbound
  · exact .inr (if_pos h)
  · exact .inl (if_neg h)

namespace State

variable {s : State} {id step : Nat} {j : Job} {g : Gen}

/-- What a local restore leaves of the job's memory and copies: the generation's bytes, and no cached block of the set. -/
def restoring (s : State) (j : Job) (g : Gen) : State :=
  ({ s with
    mem := j.ranges.foldl (fun m r => m.overlay r.base r.len g.cells) s.mem
    poisoned := (s.poisoned.filter fun l => !j.ranges.any fun r => r.contains l) ++ g.poisoned } : State).dropSetLines j

theorem localRestore_eq (hj : s.job? id = some j) (hg : localGen? j step = some g) (hp : j.phase = .restarting)
    (hr : j.restart.restorePoint = some step) (hd : j.restart.restored = false) :
    s.localRestore id step =
      ((s.restoring j g).modJob id fun x => { x with map := g.map, gens := x.gens.filter fun y => decide (y.step ≤ step) }).rewind
        id step g.lap g.committed g.seqs := by
  simp only [localRestore, hj, hg, hp, hr, hd, ne_eq, not_true_eq_false, Bool.false_eq_true, or_self, if_false]
  rfl

theorem byte_restoring (h : s.memOk) (hc : Memory.wf g.cells = true) (a : Nat) :
    (s.restoring j g).byte a = if j.ranges.any fun r => r.contains a then Memory.get g.cells a else s.byte a :=
  Memory.get_foldl_overlay hc j.ranges h a

theorem caches_restoring {b : CacheBlock} (hb : b ∈ (s.restoring j g).caches) :
    (j.ranges.any fun r => r.contains b.addr) = false :=
  Bool.not_eq_true' _ ▸ (List.mem_filter.1 hb).2

variable {lap : Nat} {qs : List (Nat × Committed)} {seqs : List (Nat × Nat)}

/-- The queues of the job are FROZEN or UNBOUND after the return to a generation, and the others stay (R302). -/
theorem queues_rewind {q : CmdQueue} :
    (q ∈ (s.rewind id step lap qs seqs).queues → q.job = id → q.state = .frozen ∨ q.state = .unbound) ∧
      (q ∈ s.queues → q.job ≠ id → q ∈ (s.rewind id step lap qs seqs).queues) := by
  refine ⟨fun hq hjob => ?_, fun hq hjob => List.mem_map.2 ⟨q, hq, if_neg hjob⟩⟩
  obtain ⟨x, -, rfl⟩ := List.mem_map.1 hq
  by_cases hx : x.job = id
  · rw [if_pos hx]
    exact rewindQueue_state qs x
  · rw [if_neg hx] at hjob
    exact absurd hjob hx

theorem job?_rewind (hj : s.job? id = some j) :
    ∃ j', (s.rewind id step lap qs seqs).job? id = some j' ∧ j'.step = step ∧ j'.lap = lap ∧ j'.restart.restored = true ∧
      j'.gens = j.gens := by
  refine ⟨_, job?_modJob (fun _ => rfl) ((job?_of_jobs ?_ id).trans hj), rfl, rfl, rfl, rfl⟩
  rfl

end State
end Sys2Proof.Machine
end

section
open Sys2Proof.Machine Sys2Proof.Machine.State
namespace Sys2Proof.Proofs

/-- Settles O20: what is sent to the twin changes no job, the confirmation is `shadowGen`, and a restore overlays the generation's
cells on the set. -/
theorem generationsAndRestore : Obligations.GenerationsAndRestore := by
  refine ⟨⟨fun s job st j g hj hs hg hp => ?_, fun s job step j g hj hg hstep hf hall hr hrec hl => ?_⟩,
    fun s job step j g hj hg hok hc hph hrp hd => ?_⟩
  · obtain ⟨⟨j1, g1, hj1, hg1, hstep, hin⟩, hmem, hqueues, hgroups⟩ := streamed_shadowStream (st := st.val) hj hs hg hp
    exact ⟨_, j1, g1, rfl, hj1, hg1, hstep, hin, hmem, hqueues, hgroups⟩
  · obtain ⟨hmem, heq, hjob⟩ := job?_shadowConfirmed hj hg hstep (twinHolds_confirmed hf hall hr hrec)
    refine ⟨_, _, rfl, hjob, rfl, mem_shadowGen hmem hstep hf hl, fun x hx hlt => released_shadowGen hx hlt, ?_, ?_⟩
    · rw [heq]
      rfl
    · rw [heq]
      rfl
  · have heq := localRestore_eq hj hg hph hrp hd
    generalize hs1 : s.restoring j g = s1 at heq
    have hj1 : s1.job? job = some j := (job?_of_jobs (hs1 ▸ rfl) job).trans hj
    obtain ⟨j', hj', hstep, hlap, hres, hgens⟩ := job?_rewind (step := step) (lap := g.lap) (qs := g.committed) (seqs := g.seqs)
      (job?_modJob (f := fun x => { x with map := g.map, gens := x.gens.filter fun y => decide (y.step ≤ step) }) (fun _ => rfl) hj1)
    refine ⟨_, j', rfl, ?_⟩
    rw [heq]
    refine ⟨hj', hstep, hlap, hres, fun x hx => ?_, fun a => ?_, fun b hb => ?_, fun q => queues_rewind.1, fun q hq hne => ?_⟩
    · rw [hgens] at hx
      exact of_decide_eq_true (List.mem_filter.1 hx).2
    · exact (congrArg (Memory.get · a) (congrArg State.mem hs1.symm)).trans (byte_restoring hok hc a)
    · exact caches_restoring (hs1 ▸ hb)
    · exact queues_rewind.2 (hs1 ▸ hq) hne

end Sys2Proof.Proofs
end

section
/-! What events, fault records and values drawn leave unchanged: every field but those that hold them (R397, R484, R485). -/

namespace Sys2Proof.Machine.State

/-- `t` differs from `s` at most in what postings and records write: memory, logs, counts and values drawn. `State.Posts` names four
of the fields that stay; here all of them do. -/
structure Reports (s t : State) : Prop where
  frame : t = { s with
    mem := t.mem, free := t.free, jobs := t.jobs, edern := t.edern, poisoned := t.poisoned, caches := t.caches
    reservations := t.reservations, events := t.events, backlog := t.backlog, backlogLost := t.backlogLost
    console := t.console, faultLog := t.faultLog, faultsEver := t.faultsEver, faultCnt := t.faultCnt }
  events : s.events ≤ t.events

namespace Reports

variable {s t u : State}

theorem refl : s.Reports s := ⟨rfl, le_rfl⟩

theorem trans (h : s.Reports t) (h1 : t.Reports u) : s.Reports u :=
  ⟨by rw [h1.frame, h.frame], h.events.trans h1.events⟩

theorem ite {c : Prop} [Decidable c] (h : s.Reports t) (h1 : s.Reports u) : s.Reports (if c then t else u) := by
  split
  · exact h
  · exact h1

theorem foldl {α : Type} {f : State → α → State} (hf : ∀ s x, State.Reports s (f s x)) (l : List α) (s : State) :
    s.Reports (l.foldl f s) :=
  List.foldlRecOn (motive := s.Reports) _ _ refl fun t ht x _ => ht.trans (hf t x)

theorem queues (h : s.Reports t) : t.queues = s.queues := by rw [h.frame]

theorem unitMap (h : s.Reports t) : t.unitMap = s.unitMap := by rw [h.frame]

theorem telem (h : s.Reports t) : t.telem = s.telem := by rw [h.frame]

theorem tracks (h : s.Reports t) : t.tracks = s.tracks := by rw [h.frame]

/-! ### Events -/

theorem store (s : State) (a : Nat) (bs : List Byte) : s.Reports (s.store a bs) := ⟨rfl, le_rfl⟩

theorem toBacklog (s : State) (rec : List Byte) : s.Reports (s.toBacklog rec) :=
  ite (t := { s with backlog := s.backlog ++ [rec] }) ⟨rfl, le_rfl⟩ ⟨rfl, le_rfl⟩

theorem noteEvent (s : State) (rec : List Byte) : s.Reports (s.noteEvent rec) := ⟨rfl, Nat.le_succ _⟩

theorem logFault (s : State) (rec : List Byte) : s.Reports (s.logFault rec) := ⟨rfl, le_rfl⟩

theorem ringWrite (rec : List Byte) (s : State) (r : RingQ) : s.Reports (State.ringWrite rec s r) :=
  (store ..).ite ((store ..).trans (store ..))

theorem strike (s : State) (l : Nat) : s.Reports (s.strike l) := by
  unfold State.strike
  extract_lets f rec_ s1 ev s2
  have hcount : s.Reports (s.countUe (stackOf l) l) := ⟨rfl, le_rfl⟩
  have h2 : s.Reports s2 := hcount.trans ((logFault ..).trans (noteEvent ..))
  exact (h2.trans (toBacklog ..)).ite (h2.trans (foldl (ringWrite ev) ..))

theorem ringEvent (rec : List Byte) (s : State) (r : RingQ) : s.Reports (State.ringEvent rec s r) := by
  unfold State.ringEvent
  split
  · exact strike ..
  · exact ringWrite ..

theorem postRecord (s : State) (rings : List Nat) (device : Bool) (rec : List Byte) :
    s.Reports (s.postRecord rings device rec) := by
  have hrings : s.Reports ((((s.noteEvent rec).rings.filter fun r => r.kind == .event && rings.contains r.id)).foldl
      (State.ringEvent rec) (s.noteEvent rec)) := (noteEvent s rec).trans (foldl (ringEvent rec) _ _)
  exact ite (hrings.trans ((toBacklog ..).ite (foldl (ringEvent rec) _ _))) hrings

theorem ownStore (s : State) (a : Nat) (bs : List Byte) : s.Reports (s.ownStore a bs) := by
  unfold State.ownStore
  split
  · exact strike ..
  · exact store ..

theorem recordFault (s : State) (f : FaultInfo) : s.Reports (s.recordFault f) := by
  unfold State.recordFault
  exact (logFault ..).trans (postRecord ..)

/-- A fault that is laid to no unit and affects no job is recorded, and that is all (R397, R406). -/
theorem detect {f : FaultInfo} (hj : f.job = none) : s.Reports (s.detect false f) := by
  have hcount (s : State) (f : FaultInfo) : s.Reports
      (if f.cls = 3 ∧ (f.mech = Mech.poisonRead.code ∨ f.mech = Mech.eccUe.code) then s.countUe f.index f.addr else s) :=
    ite ⟨rfl, le_rfl⟩ refl
  simp only [State.detect, Bool.false_eq_true, if_false, Bool.false_and, hj, Option.map_none, Option.getD_none, Option.toList_none,
    List.foldl_nil]
  exact (hcount ..).trans (recordFault ..)

/-! ### Values drawn -/

theorem freshBytes (n : Nat) (s : State) : s.Reports (State.freshBytes n s).2 := by
  induction n generalizing s with
  | zero => exact refl
  | succ n ih => exact trans (t := s.fresh.2) ⟨rfl, le_rfl⟩ (ih _)

theorem withMeasured (n : Nat) (ns : List Nat) (s : State) : s.Reports (State.withMeasured n ns s).2 := freshBytes n s

theorem unitCounters (u : UnitClass × Nat) (s : State) : s.Reports (State.unitCounters u s).2 := by
  unfold State.unitCounters
  split
  · exact withMeasured ..
  · split
    · exact withMeasured ..
    · exact withMeasured ..
  · exact freshBytes ..
  · exact withMeasured ..
  · dsimp only
    split
    · exact withMeasured ..
    · exact withMeasured ..
  · exact withMeasured ..
  · exact withMeasured ..
  · exact refl
  · exact refl

theorem photoSections (s : State) : s.Reports s.photoSections.2 :=
  List.foldlRecOn (motive := fun acc : List Byte × State => s.Reports acc.2) _ _ refl fun _ h u _ =>
    h.trans ((freshBytes ..).trans (unitCounters u _))

end Reports

/-- An event that sets no bit of ALERT_STATUS is posted to the device queues, and that is all (R485, R560). -/
theorem postDevice_of_no_alert {e : Ev} (h : Ev.alertBit e = none) (s : State) (payload : List Byte) :
    s.postDevice e payload = s.postRecord [] true (s.eventRecord e none none 0 0 payload) := by
  rw [postDevice, h]

/-- Without early packets nothing waits to go on (R324). -/
theorem settle_of_early_nil {s : State} (h : s.early = []) : s.settle = s := by
  have hdrop : s.dropEarly = s := by rw [dropEarly, h]; rfl
  rw [settle, hdrop, h, List.length_nil, retryEarly, refillEarly, h, List.foldl_nil]

end Sys2Proof.Machine.State
end

section
/-! A reading of the sensors, the trip of the hub and the end of a photo finish (R274, R417 to R419, R533, R535). -/

namespace Sys2Proof.Machine.State

variable {s : State} {r : SensorReading}

/-! ### Readings -/

/-- The greatest of a list and a start value: one of them, and none is above it. -/
theorem foldl_max_spec (ts : List Int) (x : Int) :
    (ts.foldl max x = x ∨ ts.foldl max x ∈ ts) ∧ x ≤ ts.foldl max x ∧ ∀ y ∈ ts, y ≤ ts.foldl max x := by
  induction ts generalizing x with
  | nil => simp
  | cons t ts ih =>
    obtain ⟨hmem, hle, hall⟩ := ih (max x t)
    obtain ⟨hx, ht⟩ := max_le_iff.1 hle
    refine ⟨?_, hx, List.forall_mem_cons.2 ⟨ht, hall⟩⟩
    rw [List.foldl_cons]
    rcases hmem with h | h
    · rcases max_choice x t with h1 | h1
      · exact .inl (h.trans h1)
      · exact .inr (List.mem_cons.2 (.inl (h.trans h1)))
    · exact .inr (List.mem_cons_of_mem _ h)

theorem hottest_mem {ts : List Int} (h : ts ≠ []) : hottest ts ∈ ts := by
  obtain ⟨t, l, rfl⟩ := List.exists_cons_of_ne_nil h
  obtain ⟨hmax | hmax, -⟩ := foldl_max_spec (t :: l) t
  · exact List.mem_cons.2 (.inl hmax)
  · exact hmax

theorem le_hottest {ts : List Int} {t : Int} (h : t ∈ ts) : t ≤ hottest ts := by
  obtain ⟨-, -, hall⟩ := foldl_max_spec ts (ts.headD 0)
  exact hall t h

/-- No part is above its trip limit. -/
theorem tripped_eq_zero (h0 : r.cd0 ≤ 110) (h1 : r.cd1 ≤ 110) (hh : r.hub ≤ 110) (hd : hottest r.dram ≤ 105)
    (ho : hottest r.optics ≤ 95) : tripped r = 0 := by
  simp only [tripped, h0.not_gt, h1.not_gt, hh.not_gt, hd.not_gt, ho.not_gt, decide_false]
  rfl

/-- The hub's bit of a trip (R536). -/
theorem tripped_hub : (tripped r).getLsbD 2 = decide (110 < r.hub) := by
  have hbits : ∀ b0 b1 b2 b3 b4 : Bool,
      (BitVec.ofNat 5 (bit b0 0 ||| bit b1 1 ||| bit b2 2 ||| bit b3 3 ||| bit b4 4)).getLsbD 2 = b2 := by decide
  exact hbits ..

/-- A reading has a value for each stack and each optical engine (R533). -/
theorem sensors_ne_nil (h : SensorReading.wf r = true) : r.dram ≠ [] ∧ r.optics ≠ [] := by
  obtain ⟨hd, ho⟩ := Bool.and_eq_true_iff.1 h
  exact ⟨List.ne_nil_of_length_pos (by rw [eq_of_beq hd]; decide), List.ne_nil_of_length_pos (by rw [eq_of_beq ho]; decide)⟩

/-- A reading below every trip limit sets the registers and the refresh of each stack, and no more (R274, R533). -/
theorem readSensors_cool (hheld : s.power.held = false) (hb : tripped r = 0) : s.readSensors r = s.noteTemps r := by
  simp only [readSensors, hheld, hb, Bool.false_eq_true, if_false, if_true]

theorem refreshHalved_noteTemps {k : Nat} {e : Edern} (he : (s.noteTemps r).edern[k]? = some e) :
    e.refreshHalved = true ↔ 85 < r.dram.getD k 0 := by
  simp only [noteTemps, List.getElem?_map, List.getElem?_zipIdx, Option.map_eq_some_iff] at he
  obtain ⟨x, ⟨y, -, rfl⟩, rfl⟩ := he
  rw [Nat.zero_add]
  exact decide_eq_true_iff

/-! ### The trip of the hub -/

theorem readSensors_trip (hheld : s.power.held = false) (hhub : 110 < r.hub) (hn : s.power.thermTripN = true) :
    s.readSensors r = (s.noteTemps r).thermalTrip r (tripped r) := by
  have hb : tripped r ≠ 0 := fun h => by
    have h2 : (tripped r).getLsbD 2 = true := tripped_hub.trans (decide_eq_true hhub)
    rw [h] at h2
    cases h2
  simp only [readSensors, hheld, hb, hn, Bool.false_eq_true, if_false, if_true]

theorem unitMap_noteEdge (s : State) (i : Nat) : (s.noteEdge i).unitMap = s.unitMap := by
  unfold noteEdge
  extract_lets w c n _ s1
  split
  · exact (Reports.postRecord s1 ..).unitMap
  · rfl

theorem unitMap_setDrive (s : State) (on : Bool) : (s.setDrive on).unitMap = s.unitMap := by
  unfold setDrive
  split
  · rfl
  · extract_lets _ s1
    split
    · exact unitMap_noteEdge s1 2
    · rfl

theorem unitMap_raiseAlert (s : State) (b : Nat) : (s.raiseAlert b).unitMap = s.unitMap := unitMap_setDrive ..

/-- A trip of the hub without jobs: the fault is counted, and the device is held with every rail off (R535). -/
theorem thermalTrip_hub {bits : BitVec 5} (hhub : bits.getLsbD 2 = true) (hj : s.jobs = []) :
    let t := s.thermalTrip r bits
    t.power.rails = false ∧ t.power.held = true ∧ t.power.thermTripN = false ∧ s.faultsEver < t.faultsEver ∧
      t.unitMap = s.unitMap ∧ t.early = [] := by
  unfold thermalTrip
  extract_lets u _ _ s1 s2 t
  have hs2 : s2 = s1.detect false { mech := Mech.thermal.code, cls := u.1.code, index := u.2 } := by
    simp only [s2, detectAll, show s1.jobs = [] from hj, List.isEmpty_nil, if_true]
  have hmap : ((s2.postDevice .thermal []).raiseAlert 4).unitMap = s.unitMap := by
    rw [unitMap_raiseAlert, postDevice_of_no_alert rfl, (Reports.postRecord ..).unitMap, hs2, (Reports.detect rfl).unitMap]
  have hfaults : s.faultsEver < ((s2.postDevice .thermal []).raiseAlert 4).faultsEver :=
    (hs2 ▸ faultsEver_detect s1 false _ : s.faultsEver < s2.faultsEver).trans_le Keeps.refl.postDevice.raiseAlert.faultsEver_le
  have ht : t = ((s2.postDevice .thermal []).raiseAlert 4).tripPower true := by rw [← hhub]
  rw [ht]
  exact ⟨rfl, rfl, rfl, hfaults, hmap, rfl⟩

/-! ### The end of a photo finish -/

/-- The record is written, then the markers and the next photo finish are set, and PHOTO_DONE is posted (R417 to R419). -/
theorem photoDone_eq {p : Photo} {n : Nat} (h : s.telem.running = some (p, n)) :
    ∃ (s3 : State) (rec : List Byte), s.photoDone = s3.postRecord [] true rec ∧ s.events ≤ s3.events ∧ s3.queues = s.queues ∧
      (∀ x ∈ s3.tracks, x.marker = p.number) ∧
      s3.telem =
        { completed := p.number, lastInject := n, running := s.telem.queue.head?.map fun q => (q, s.now)
          queue := s.telem.queue.tail } := by
  have h1 := Reports.photoSections s
  unfold photoDone
  rw [h]
  dsimp only
  generalize s.photoSections = sections at h1 ⊢
  obtain ⟨body, s1⟩ := sections
  have h2 := h1.trans (Reports.ownStore s1 p.addr (s.photoHeader p.number n ++ body))
  refine ⟨_, _, postDevice_of_no_alert rfl _ _, ?_, ?_, fun x hx => ?_, rfl⟩
  · exact h2.events
  · exact h2.queues
  · obtain ⟨y, -, rfl⟩ := List.mem_map.1 hx
    rfl

theorem photoDone_completes {p : Photo} {n : Nat} (h : s.telem.running = some (p, n)) :
    let t := s.photoDone
    t.telem.completed = p.number ∧ t.telem.lastInject = n ∧ t.telem.queue = s.telem.queue.drop 1 ∧
      t.telem.running = s.telem.queue.head?.map (fun q => (q, s.now)) ∧ (∀ x ∈ t.tracks, x.marker = p.number) ∧
      s.events < t.events ∧ t.queues = s.queues := by
  obtain ⟨s3, rec, heq, hevents, hqueues, htracks, htelem⟩ := photoDone_eq h
  have hpost := Reports.postRecord s3 [] true rec
  rw [heq]
  intro t
  rw [hpost.telem, hpost.tracks, hpost.queues, htelem, List.drop_one]
  exact ⟨rfl, rfl, rfl, rfl, htracks, hevents.trans_lt (events_lt_postRecord ..), hqueues⟩

end Sys2Proof.Machine.State
end

section
open Sys2Proof.Machine Sys2Proof.Machine.State
namespace Sys2Proof.Proofs

/-- Settles O27: a cool reading is `noteTemps`, a trip of the hub ends in the held state, and a photo finish posts one event. -/
theorem sensorsAndPhotoFinish : Obligations.SensorsAndPhotoFinish := by
  refine ⟨fun s r hwf hheld hearly => ?_, fun s => ⟨fun h => ?_, fun p n h => ?_⟩⟩
  · have hexec : exec (.sensorReading r) s = .next (s.readSensors r).settle := if_pos hwf
    obtain ⟨hdram, hoptics⟩ := sensors_ne_nil hwf
    refine ⟨fun h0 h1 hh hd ho => ?_, fun hhub hn hj => ?_⟩
    · have hcool := readSensors_cool hheld (tripped_eq_zero h0 h1 hh (hd _ (hottest_mem hdram)) (ho _ (hottest_mem hoptics)))
      rw [hcool, settle_of_early_nil (s := s.noteTemps r) hearly] at hexec
      exact ⟨_, hexec, rfl, rfl, rfl, hottest_mem hdram, fun d hd => le_hottest hd, rfl, rfl, rfl,
        fun k _ e he => refreshHalved_noteTemps he, rfl⟩
    · obtain ⟨hrails, hheld1, htrip, hfaults, hmap, hearly1⟩ :=
        thermalTrip_hub (s := s.noteTemps r) (r := r) (tripped_hub.trans (decide_eq_true hhub)) hj
      rw [readSensors_trip hheld hhub hn, settle_of_early_nil hearly1] at hexec
      exact ⟨_, hexec, hrails, hheld1, htrip, hfaults, hmap⟩
  · refine congrArg Host.Outcome.next ?_
    rw [photoDone, h]
  · exact ⟨_, rfl, photoDone_completes h⟩

end Sys2Proof.Proofs
end

section
/-! What sending on a port leaves as it was: the sending side of that port and what left the device change, and no packet that was on
its way is lost (R314, R317, R321, R322). -/

namespace Sys2Proof.Machine

/-- `y` is `x` but for the fields that sending changes. -/
def Port.SendsAs (x y : Port) : Prop :=
  y = { x with
    txBytes := y.txBytes, sinceAck := y.sinceAck, lastSent := y.lastSent, txNext := y.txNext, sentAt := y.sentAt, kept := y.kept
    txFrame := y.txFrame, credits := y.credits, starved := y.starved, owed := y.owed, sendQ := y.sendQ, served := y.served }

theorem Port.SendsAs.refl (x : Port) : x.SendsAs x := rfl

theorem Port.SendsAs.trans {x y z : Port} (h : x.SendsAs y) (h1 : y.SendsAs z) : x.SendsAs z := by
  unfold SendsAs at *
  rw [h1, h]

namespace State

variable {s0 s t u : State} {p : Nat}

theorem port_of_length_le (h : s.ports.length ≤ p) : s.port p = {} := by
  rw [port, List.getD_eq_getElem?_getD, List.getElem?_eq_none h]
  rfl

/-- Only a port of the block is on. -/
theorem lt_of_port_state (h : (s.port p).state ≠ .off) : p < s.ports.length := by
  by_contra hp
  exact h (by rw [port_of_length_le (Nat.le_of_not_lt hp)])

theorem setPort_of_length_le (x : Port) (h : s.ports.length ≤ p) : s.setPort p x = s := by
  rw [setPort, List.set_eq_of_length_le h]

/-- Port `p` has sent, and from `s` to `t` nothing else has happened. -/
structure SentOn (p : Nat) (s t : State) : Prop where
  links : s.Links t
  length : t.ports.length = s.ports.length
  others : ∀ k, k ≠ p → t.port k = s.port k
  port : (s.port p).SendsAs (t.port p)

namespace SentOn

theorem refl : SentOn p s s := ⟨.refl, rfl, fun _ _ => rfl, .refl _⟩

theorem trans (h : SentOn p s t) (h1 : SentOn p t u) : SentOn p s u where
  links := h.links.trans h1.links
  length := h1.length.trans h.length
  others k hk := (h1.others k hk).trans (h.others k hk)
  port := h.port.trans h1.port

theorem setPort {x : Port} (h : SentOn p s0 s) (hx : (s.port p).SendsAs x) : SentOn p s0 (s.setPort p x) where
  links := h.links.trans rfl
  length := (List.length_set ..).trans h.length
  others k hk := (port_setPort_ne s x hk).trans (h.others k hk)
  port := by
    by_cases hp : p < s.ports.length
    · rw [port_setPort x hp]
      exact h.port.trans hx
    · rw [setPort_of_length_le x (Nat.le_of_not_lt hp)]
      exact h.port

theorem modPort {f : Port → Port} (h : SentOn p s0 s) (hf : ∀ x : Port, x.SendsAs (f x)) : SentOn p s0 (s.modPort p f) :=
  h.setPort (hf _)

theorem out {l : List Sent} (h : SentOn p s0 s) : SentOn p s0 { s with out := l } :=
  ⟨h.links.trans rfl, h.length, h.others, h.port⟩

theorem foldl {α : Type} {f : State → α → State} {l : List α} (h : SentOn p s0 s)
    (hf : ∀ s x, SentOn p s0 s → SentOn p s0 (f s x)) : SentOn p s0 (l.foldl f s) :=
  List.foldlRecOn (motive := SentOn p s0) _ _ h fun t ht x _ => hf t x ht

theorem sendFlit (h : SentOn p s0 s) {f resent} : SentOn p s0 (s.sendFlit p f resent) := (h.modPort fun _ => by rfl).out

theorem sendPlainFlit (h : SentOn p s0 s) {ftype} : SentOn p s0 (s.sendPlainFlit p ftype) := (h.setPort (by rfl)).sendFlit

theorem sendData (h : SentOn p s0 s) {pstart stream} : SentOn p s0 (s.sendData p pstart stream) :=
  (h.setPort (by rfl)).sendFlit

theorem sendStream (h : SentOn p s0 s) {n pstart bs} : SentOn p s0 (State.sendStream p n pstart bs s) := by
  induction n generalizing pstart bs s with
  | zero => exact h
  | succ n ih => exact ih h.sendData

theorem markStarved (h : SentOn p s0 s) : SentOn p s0 (s.markStarved p) := h.modPort fun _ => by rfl

theorem startPacket (h : SentOn p s0 s) {k} : SentOn p s0 (s.startPacket p k) := (h.modPort fun _ => by rfl).out.sendStream

theorem pump (h : SentOn p s0 s) {n} : SentOn p s0 (State.pump p n s) := by
  induction n generalizing s with
  | zero => exact h.markStarved
  | succ n ih =>
    unfold State.pump
    split
    · exact ih (h.modPort fun _ => by rfl).startPacket
    · exact h.markStarved

theorem send (h : SentOn p s0 s) {k} : SentOn p s0 (s.send p k) := (h.modPort fun _ => by rfl).pump

theorem sendAck (h : SentOn p s0 s) : SentOn p s0 (s.sendAck p) := by
  unfold State.sendAck
  extract_lets x room
  split
  · exact h.sendData
  · exact h.sendPlainFlit

theorem resendAll (h : SentOn p s0 s) : SentOn p s0 (s.resendAll p) :=
  foldl (h.setPort (by rfl)) fun _ _ h => h.sendFlit

/-! ### What stays -/

theorem mem (h : SentOn p s t) : t.mem = s.mem := by rw [h.links]

theorem queues (h : SentOn p s t) : t.queues = s.queues := by rw [h.links]

theorem jobs (h : SentOn p s t) : t.jobs = s.jobs := by rw [h.links]

theorem pair (h : SentOn p s t) : t.pair = s.pair := by rw [h.links]

theorem topo (h : SentOn p s t) : t.topo = s.topo := by rw [h.links]

end SentOn

/-! ### Packets on their way -/

/-- The packet that an output of the device is, where it left on the port. -/
def packetOn? (p : Nat) : Sent → Option Packet
  | .packet q k => if q = p then some k else none
  | _ => none

/-- The packets that have left on a port or wait there. -/
def traffic (s : State) (p : Nat) : List Packet := s.out.filterMap (packetOn? p) ++ (s.port p).sendQ

theorem packetOn?_eq_some {o : Sent} {k : Packet} : packetOn? p o = some k ↔ o = .packet p k := by
  cases o with
  | packet q k' => simp [packetOn?]
  | _ => simp [packetOn?]

theorem mem_traffic {k : Packet} : k ∈ s.traffic p ↔ k ∈ (s.port p).sendQ ∨ .packet p k ∈ s.out := by
  simp only [traffic, List.mem_append, List.mem_filterMap, packetOn?_eq_some, exists_eq_right, or_comm]

theorem traffic_congr (hq : (t.port p).sendQ = (s.port p).sendQ)
    (ho : t.out.filterMap (packetOn? p) = s.out.filterMap (packetOn? p)) : t.traffic p = s.traffic p := by
  rw [traffic, hq, ho, traffic]

theorem sendQ_setPort {x : Port} (hx : x.sendQ = (s.port p).sendQ) : ((s.setPort p x).port p).sendQ = (s.port p).sendQ := by
  by_cases hp : p < s.ports.length
  · rw [port_setPort x hp, hx]
  · rw [setPort_of_length_le x (Nat.le_of_not_lt hp)]

theorem traffic_sendFlit (s : State) (f : FlitImage) (resent : Bool) : (s.sendFlit p f resent).traffic p = s.traffic p := by
  refine traffic_congr (sendQ_setPort (x := { s.port p with txFrame := _ }) rfl) ?_
  have hout : ∃ l, (s.sendFlit p f resent).out = s.out ++ .flit p f resent :: l ∧ l.filterMap (packetOn? p) = [] := by
    refine ⟨_, rfl, ?_⟩
    split <;> rfl
  obtain ⟨l, hl, hnone⟩ := hout
  rw [hl, List.filterMap_append, List.filterMap_cons, hnone]
  exact List.append_nil _

theorem traffic_sendData (s : State) (pstart : Nat) (stream : List Byte) : (s.sendData p pstart stream).traffic p = s.traffic p :=
  (traffic_sendFlit ..).trans (traffic_congr (sendQ_setPort rfl) rfl)

theorem traffic_sendStream (n pstart : Nat) (bs : List Byte) (s : State) :
    (State.sendStream p n pstart bs s).traffic p = s.traffic p := by
  induction n generalizing pstart bs s with
  | zero => rfl
  | succ n ih => exact (ih ..).trans (traffic_sendData ..)

theorem traffic_markStarved (s : State) : (s.markStarved p).traffic p = s.traffic p := traffic_congr (sendQ_setPort rfl) rfl

/-- A packet that starts has left. -/
theorem traffic_startPacket (s : State) (k : Packet) :
    (s.startPacket p k).traffic p = s.out.filterMap (packetOn? p) ++ k :: (s.port p).sendQ := by
  refine (traffic_sendStream ..).trans ?_
  have hq : ((s.modPort p fun x => { x with
      credits := x.credits.set k.vc.toNat (x.credits.getD k.vc.toNat 0 - Pkt.creditsOf k)
      starved := x.starved.set k.vc.toNat none, txBytes := x.txBytes + Pkt.size k }).port p).sendQ = (s.port p).sendQ :=
    sendQ_setPort rfl
  have ho : (s.out ++ [Sent.packet p k]).filterMap (packetOn? p) = s.out.filterMap (packetOn? p) ++ [k] := by
    simp [packetOn?]
  refine (congrArg₂ (· ++ ·) ho hq).trans ?_
  exact List.append_assoc ..

theorem headReady_mem {x : Port} {vc : Nat} {k : Packet} (h : headReady p x vc = some k) : k ∈ x.sendQ := by
  unfold headReady at h
  split at h
  next k' hk' =>
    split at h
    · cases h
      exact List.mem_of_find?_eq_some hk'
    · cases h
  next => cases h

/-- The packet that starts next is one that waits. -/
theorem nextReady_mem {x : Port} {k : Packet} (h : nextReady p x = some k) : k ∈ x.sendQ := by
  unfold nextReady at h
  cases hs : (strictVcs p).findSome? (headReady p x) with
  | some k' =>
    obtain ⟨v, -, hv⟩ := List.exists_of_findSome?_eq_some hs
    rw [hs] at h
    cases h
    exact headReady_mem hv
  | none =>
    rw [hs] at h
    obtain ⟨v, -, hv⟩ := Option.bind_eq_some_iff.1 h
    exact headReady_mem hv

/-- Packets that start leave the queue of those that wait, and none is lost. -/
theorem traffic_pump (n : Nat) (s : State) : ((State.pump p n s).traffic p).Perm (s.traffic p) := by
  induction n generalizing s with
  | zero => rw [State.pump, traffic_markStarved]
  | succ n ih =>
    unfold State.pump
    split
    next k hk =>
      have hmem := nextReady_mem hk
      have hp : p < s.ports.length := by
        by_contra hp
        rw [port_of_length_le (Nat.le_of_not_lt hp)] at hmem
        cases hmem
      refine (ih _).trans ?_
      rw [traffic_startPacket, State.modPort, port_setPort _ hp]
      exact ((List.perm_cons_erase hmem).symm.append_left _)
    next => rw [traffic_markStarved]

/-- A packet that is sent leaves or waits, and so does every one before it. -/
theorem traffic_send (s : State) (k : Packet) (hp : p < s.ports.length) :
    ((s.send p k).traffic p).Perm (s.traffic p ++ [k]) := by
  refine (traffic_pump ..).trans (.of_eq ?_)
  have hport : (s.modPort p fun x => { x with sendQ := x.sendQ ++ [k] }).port p = _ := port_setPort _ hp
  rw [traffic, hport]
  exact (List.append_assoc ..).symm

theorem mem_traffic_send (s : State) (k : Packet) (hp : p < s.ports.length) : k ∈ (s.send p k).traffic p :=
  (traffic_send s k hp).mem_iff.2 (List.mem_append_right _ (List.mem_singleton_self k))

end State
end Sys2Proof.Machine
end

section
/-! Packets that come in on a port: whose row they are, and what the checks let through (R326, R330, R331). -/

namespace Sys2Proof.Machine

theorem PType.ofCode_code (t : PType) : PType.ofCode t.code = some t := by cases t <;> rfl

theorem PType.code_pos (t : PType) : 0 < t.code := by cases t <;> decide

namespace State

variable {s : State} {p : Nat} {k : Packet} {t : PType}

/-- A packet of the row's type, on a port that is UP and takes the type, is the row's (R326). -/
theorem onPacket_of_type (go : State → State) (hwf : k.wf = true) (hup : (s.port p).state = .up) (ht : k.ptype.toNat = t.code)
    (hvc : (t.vcOn (p == 6)).isSome = true) : onPacket [t] p k go s = .next (go s) := by
  have hallowed : allowedType p k = true := by
    have hne : k.ptype ≠ 0 := fun h => t.code_pos.ne (by rw [← ht, h]; rfl)
    rw [allowedType, ht, PType.ofCode_code, Option.bind_some, hvc, Bool.and_true]
    exact bne_iff_ne.2 hne
  have htype : ([t].any fun x => x.code == k.ptype.toNat) = true := by
    rw [ht, List.any_cons, beq_self_eq_true, Bool.true_or]
  simp only [onPacket, hwf, hup, hallowed, htype, Bool.not_true, Bool.false_eq_true, if_false, if_true, ne_eq, not_true_eq_false]

/-- A packet that passes check 1 is of a type that the port takes (R330). -/
theorem vcOn_of_hopOne (h : s.hopOne p k = none) (ht : k.ptype.toNat = t.code) : (t.vcOn (p == 6)).isSome = true := by
  have hne : k.ptype ≠ 0 := fun h0 => t.code_pos.ne (by rw [← ht, h0]; rfl)
  unfold hopOne at h
  extract_lets x vc own at h
  have hvc : vc = t.vcOn (p == 6) := by
    simp only [vc, if_neg hne, ht, PType.ofCode_code, Option.bind_some]
  split at h
  · cases h
  · split at h
    · cases h
    next hv => rw [← hvc, of_not_not hv]; rfl

/-! ### Packets of a chain -/

/-- What the chain's turn makes of a packet that has passed checks 1 and 2 (R330, R331). -/
def chainTurn (s : State) (p : Nat) (k : Packet) : State :=
  match s.turn p k with
  | .bad => (s.freeCredits p k).hopFail p k .hopCheck
  | .later => s.keepEarly p k
  | .use c b => ((s.usePacket p k c b).freeCredits p k).settle

theorem chainPacket_of_joined {g : Group} (hhop : s.hopOne p k = none) (hg : s.group? k.group.toNat = some g)
    (hj : g.job = k.job.toNat) (hr : s.jobRuns g.job = true) : s.chainPacket p k = s.chainTurn p k := by
  simp only [chainPacket, hhop, hg, hr, if_neg (not_not.2 hj), Bool.not_true, Bool.false_eq_true, if_false]
  rfl

theorem chainTurn_use {c b : Nat} (h : s.turn p k = .use c b) :
    s.chainTurn p k = ((s.usePacket p k c b).freeCredits p k).settle := by rw [chainTurn, h]

theorem chainTurn_later (h : s.turn p k = .later) : s.chainTurn p k = s.keepEarly p k := by rw [chainTurn, h]

theorem chainTurn_bad (h : s.turn p k = .bad) : s.chainTurn p k = (s.freeCredits p k).hopFail p k .hopCheck := by
  rw [chainTurn, h]

/-! ### Packets of a restore transfer -/

/-- The state after a packet of a transfer has been taken: its credits are due, and the next unit of its message is expected. -/
def transferTaken (s : State) (p : Nat) (k : Packet) (x : Transfer) : State :=
  (s.freeCredits p k).modTransfer x.job fun y => { y with number := k.bucket.toNat, unit := k.first.toNat + k.len.toNat }

/-- The packet under which a device between the twin and the spare sends on what it has taken (R412). -/
def transferOnward (s : State) (q : Nat) (k : Packet) (x : Transfer) : Packet :=
  s.mkPacket q .put x.job transferGroup k.bucket.toNat k.first.toNat 0 0 0 k.payload

/-- A device between the twin and the spare passes a packet on (R412). -/
theorem transferPacket_of_claim {x : Transfer} {q : Nat} (hhop : s.hopOne p k = none) (hx : s.transfer? k.job.toNat = some x)
    (hp : x.port = some p) (hq : x.claim = some q) (he : transferExpects x k = true) :
    s.transferPacket p k = (s.transferTaken p k x).send q ((s.transferTaken p k x).transferOnward q k x) := by
  simp only [transferPacket, transferTaken, transferOnward, hhop, hx, hp, hq, he, ne_eq, not_true_eq_false, Option.isNone_some, Bool.not_true,
    Bool.false_eq_true, false_and, or_self, if_false]

end State

theorem exec_putPacket (p : Fin 7) (k : Packet) (s : State) :
    exec (.putPacket p k) s = State.onPacket [.put] p.val k
      (fun s => if k.group.toNat = State.transferGroup then s.transferPacket p.val k else s.chainPacket p.val k) s := rfl

end Sys2Proof.Machine
end

section
open Sys2Proof.Machine Sys2Proof.Machine.State
namespace Sys2Proof.Proofs

/-- Settles O33: after checks 1 and 2 a chain's packet takes its turn, and a transfer's packet is sent on as it came. -/
theorem chainAndTransferPackets : Obligations.ChainAndTransferPackets := by
  constructor
  · have hrow {i : Fin 7 → Packet → Instr} {ty : PType} {go : Fin 7 → Packet → State → State}
        (hexec : ∀ p k s, exec (i p k) s = onPacket [ty] p.val k (go p k) s)
        (hgo : ∀ p k s, k.group.toNat ≠ transferGroup → go p k s = s.chainPacket p.val k) :
        ∀ (s : State) (p : Fin 7) (k : Packet) (g : Group), k.wf = true → (s.port p.val).state = .up → k.ptype.toNat = ty.code →
          k.group.toNat ≠ transferGroup → s.hopOne p.val k = none → s.group? k.group.toNat = some g → g.job = k.job.toNat →
          s.jobRuns g.job = true →
          (∀ c b, s.turn p.val k = .use c b →
            exec (i p k) s = .next ((s.usePacket p.val k c b).freeCredits p.val k).settle) ∧
          (s.turn p.val k = .later → exec (i p k) s = .next (s.keepEarly p.val k)) ∧
          (s.turn p.val k = .bad → exec (i p k) s = .next ((s.freeCredits p.val k).hopFail p.val k .hopCheck)) := by
      intro s p k g hwf hup hty htr hhop hg hj hr
      rw [hexec, onPacket_of_type _ hwf hup hty (vcOn_of_hopOne hhop hty), hgo p k s htr]
      rw [chainPacket_of_joined hhop hg hj hr]
      exact ⟨fun c b h => congrArg _ (chainTurn_use h), fun h => congrArg _ (chainTurn_later h),
        fun h => congrArg _ (chainTurn_bad h)⟩
    simp only [List.forall_mem_cons]
    exact ⟨hrow (fun _ _ _ => rfl) fun _ _ _ _ => rfl, hrow (fun _ _ _ => rfl) fun _ _ _ h => if_neg h,
      hrow (fun _ _ _ => rfl) fun _ _ _ _ => rfl, List.forall_mem_nil _⟩
  · intro s p q k x hwf hup hty htr hhop hx hlen hp hq he
    rw [exec_putPacket, Fin.val_castLE, onPacket_of_type _ hwf hup hty (vcOn_of_hopOne hhop hty), if_pos htr,
      transferPacket_of_claim hhop hx hp hq he]
    have hsent := (SentOn.refl (p := q.val) (s := s.transferTaken p k x)).send
      (k := (s.transferTaken p k x).transferOnward q k x)
    have hlen1 : q.val < (s.transferTaken p k x).ports.length := (List.length_set ..).symm ▸ hlen
    refine ⟨_, _, rfl, mem_traffic.1 (mem_traffic_send _ _ hlen1), BitVec.ofNat_toNat .., BitVec.ofNat_toNat ..,
      List.isPrefixOf_iff_prefix.2 (List.prefix_append ..), rfl, hsent.mem, hsent.jobs, hsent.queues⟩

end Sys2Proof.Proofs
end

section
/-! What a device event leaves unchanged where it may also set a bit of ALERT_STATUS, and what it counts where no line is poisoned
(R272, R485, R560). -/

namespace Sys2Proof.Machine.State

variable {s0 s t u : State}

/-- `t` differs from `s` at most in what postings write and in the board's inputs, which hold the state of ALERT_N. -/
def Announces (s t : State) : Prop :=
  t = { s with
    mem := t.mem, free := t.free, jobs := t.jobs, edern := t.edern, poisoned := t.poisoned, caches := t.caches
    reservations := t.reservations, events := t.events, backlog := t.backlog, backlogLost := t.backlogLost
    console := t.console, faultLog := t.faultLog, faultsEver := t.faultsEver, faultCnt := t.faultCnt, inputs := t.inputs }

namespace Announces

theorem trans (h : s.Announces t) (h1 : t.Announces u) : s.Announces u := by
  unfold Announces at *
  rw [h1, h]

theorem of_reports (h : s.Reports t) : s.Announces t := by
  rw [h.frame]
  rfl

theorem noteEdge (s : State) (i : Nat) : s.Announces (s.noteEdge i) := by
  unfold State.noteEdge
  extract_lets w c n _ s1
  have h1 : s.Announces s1 := rfl
  split
  · exact h1.trans (of_reports (.postRecord ..))
  · exact h1

theorem setDrive (s : State) (on : Bool) : s.Announces (s.setDrive on) := by
  unfold State.setDrive
  split
  · rfl
  · extract_lets _ s1
    have h1 : s.Announces s1 := rfl
    split
    · exact h1.trans (noteEdge ..)
    · exact h1

theorem raiseAlert (s : State) (b : Nat) : s.Announces (s.raiseAlert b) :=
  trans (t := { s with inputs := { s.inputs with alertStatus := s.inputs.alertStatus ||| (1 <<< b) } }) rfl (setDrive ..)

theorem postDevice (s : State) (e : Ev) (payload : List Byte) : s.Announces (s.postDevice e payload) := by
  unfold State.postDevice
  extract_lets s1
  have h1 : s.Announces s1 := of_reports (.postRecord ..)
  split
  · exact h1.trans (raiseAlert ..)
  · exact h1

theorem pair (h : s.Announces t) : t.pair = s.pair := by rw [h]

theorem queues (h : s.Announces t) : t.queues = s.queues := by rw [h]

theorem early (h : s.Announces t) : t.early = s.early := by rw [h]

end Announces

/-! ### Faults that are recorded -/

/-- No line is poisoned, and `n` faults have been recorded. -/
structure Unstruck (n : Nat) (s : State) : Prop where
  clean : s.poisoned = []
  count : s.faultsEver = n

namespace Unstruck

variable {n : Nat}

theorem foldl {α : Type} {f : State → α → State} {l : List α} (h : Unstruck n s) (hf : ∀ s x, Unstruck n s → Unstruck n (f s x)) :
    Unstruck n (l.foldl f s) :=
  List.foldlRecOn (motive := Unstruck n) _ _ h fun t ht x _ => hf t x ht

theorem ite {c : Prop} [Decidable c] (h : Unstruck n s) (h1 : Unstruck n t) : Unstruck n (if c then s else t) := by
  split
  · exact h
  · exact h1

theorem store (h : Unstruck n s) {a bs} : Unstruck n (s.store a bs) := ⟨by simp [State.store, h.clean], h.count⟩

theorem ringWrite (h : Unstruck n s) {rec r} : Unstruck n (State.ringWrite rec s r) := h.store.ite h.store.store

theorem ringEvent (h : Unstruck n s) {rec r} : Unstruck n (State.ringEvent rec s r) := by
  rw [State.ringEvent, ringLine_of_poisoned_nil h.clean]
  exact h.ringWrite

theorem toBacklog (h : Unstruck n s) {rec} : Unstruck n (s.toBacklog rec) :=
  ite (s := { s with backlog := s.backlog ++ [rec] }) ⟨h.clean, h.count⟩ ⟨h.clean, h.count⟩

theorem postRecord (h : Unstruck n s) {rings device rec} : Unstruck n (s.postRecord rings device rec) := by
  have hrings : Unstruck n ((((s.noteEvent rec).rings.filter fun r => r.kind == .event && rings.contains r.id)).foldl
      (State.ringEvent rec) (s.noteEvent rec)) := foldl (s := s.noteEvent rec) ⟨h.clean, h.count⟩ fun _ _ h => h.ringEvent
  exact (hrings.toBacklog.ite (hrings.foldl fun _ _ h => h.ringEvent)).ite hrings

/-- A fault is recorded once. -/
theorem recordFault (h : Unstruck n s) {f} : Unstruck (n + 1) (s.recordFault f) := by
  have hlog : Unstruck (n + 1) (s.logFault (s.faultRecord f)) := ⟨h.clean, congrArg (· + 1) h.count⟩
  unfold State.recordFault
  exact hlog.postRecord

theorem noteEdge (h : Unstruck n s) {i} : Unstruck n (s.noteEdge i) := by
  unfold State.noteEdge
  extract_lets w c k _ s1
  have h1 : Unstruck n s1 := ⟨h.clean, h.count⟩
  exact h1.postRecord.ite h1

theorem setDrive (h : Unstruck n s) {on} : Unstruck n (s.setDrive on) := by
  unfold State.setDrive
  extract_lets _ s1
  have h1 : Unstruck n s1 := ⟨h.clean, h.count⟩
  exact h.ite (h1.noteEdge.ite h1)

theorem raiseAlert (h : Unstruck n s) {b} : Unstruck n (s.raiseAlert b) :=
  setDrive (s := { s with inputs := { s.inputs with alertStatus := s.inputs.alertStatus ||| (1 <<< b) } }) ⟨h.clean, h.count⟩

theorem postDevice (h : Unstruck n s) {e payload} : Unstruck n (s.postDevice e payload) := by
  unfold State.postDevice
  extract_lets s1
  have h1 : Unstruck n s1 := h.postRecord
  split
  · exact h1.raiseAlert
  · exact h1

theorem sentOn {p : Nat} (h : Unstruck n s) (hs : s.SentOn p t) : Unstruck n t :=
  ⟨by rw [hs.links]; exact h.clean, by rw [hs.links]; exact h.count⟩

end Unstruck

end Sys2Proof.Machine.State
end

section
/-! The pair: packets of the pair port, episodes of pair events, beats and the loss of the twin (R330, R338 to R342, R404). -/

namespace Sys2Proof.Machine.State

variable {s t : State} {k : Packet} {n : Nat}

/-! ### Packets of the pair port -/

theorem onPair_of_passed {twin : Bool} (go : State → State) (h : s.hopOne 6 k = none) (hj : twin = true → s.pair.joined = true) :
    s.onPair k twin go = go (s.freeCredits 6 k) := by
  have hnot : ¬ ((twin && !s.pair.joined) = true) := by
    rw [Bool.and_eq_true, Bool.not_eq_true']
    exact fun ⟨ht, hf⟩ => by rw [hj ht] at hf; cases hf
  simp only [onPair, h, if_neg hnot]

theorem onPair_of_failed {twin : Bool} {m : Mech} (go : State → State) (h : s.hopOne 6 k = some m) :
    s.onPair k twin go = (s.freeCredits 6 k).hopFail 6 k m := by
  simp only [onPair, h]

/-- What must come from the joined twin is discarded where none is joined (R330). -/
theorem onPair_of_unjoined (go : State → State) (h : s.hopOne 6 k = none) (hj : s.pair.joined = false) :
    s.onPair k true go = (s.freeCredits 6 k).hopFail 6 k .hopCheck := by
  simp only [onPair, h, hj, Bool.not_false, Bool.and_self, if_true]

/-- A row of the pair port: its command takes packets of one type, which come from the joined twin where `twin` says so. -/
theorem exec_of_pairRow {i : Packet → Instr} {ty : PType} {twin : Bool} {go : State → Packet → State}
    (hexec : ∀ k s, exec (i k) s = onPacket [ty] 6 k (fun s => s.onPair k twin fun s => go s k) s)
    (hvc : (ty.vcOn true).isSome = true) :
    ∀ (s : State) (k : Packet), k.wf = true → (s.port 6).state = .up → k.ptype.toNat = ty.code →
      (s.hopOne 6 k = none → (twin = true → s.pair.joined = true) → exec (i k) s = .next (go (s.freeCredits 6 k) k)) ∧
      (∀ m, s.hopOne 6 k = some m → exec (i k) s = .next ((s.freeCredits 6 k).hopFail 6 k m)) ∧
      (s.hopOne 6 k = none → twin = true → s.pair.joined = false →
        exec (i k) s = .next ((s.freeCredits 6 k).hopFail 6 k .hopCheck)) := by
  intro s k hwf hup hty
  rw [hexec, onPacket_of_type _ hwf hup hty hvc]
  refine ⟨fun h hj => congrArg _ (onPair_of_passed _ h hj), fun m h => congrArg _ (onPair_of_failed _ h), fun h ht hj => ?_⟩
  subst ht
  exact congrArg _ (onPair_of_unjoined _ h hj)

/-! ### Resets and episodes -/

/-- The state in which an accepted PAIRCTL reset holds the device (R342). -/
theorem pairReset_due (hkind : leNat (k.payload.take 1) = PairKind.reset.code) (hj : s.pair.joined = true)
    (hserial : BitVec.ofNat 64 (leNat ((k.payload.drop 8).take 8)) = s.pair.twinSerial) (hn : s.inputs.resetN = true)
    (hheld : s.power.held = false) (hdue : ∀ n, s.pair.resetAt = some n → 1000000000 < s.now - n) :
    s.pairReset k = ({ s with pair := { s.pair with resetAt := some s.now } } : State).held 2 := by
  have hreset : PairKind.ofCode (leNat (k.payload.take 1)) = some .reset := by rw [hkind]; rfl
  unfold pairReset
  extract_lets serial due
  have hd : due = true := by
    unfold due
    split
    next n hr => exact decide_eq_true (hdue n hr)
    next => rfl
  rw [if_pos ⟨hreset, hj, hserial, hd, hn⟩, requestReset, if_neg (by rw [hheld]; exact Bool.false_ne_true)]

/-- A second reset within 10 s is not accepted (R342). -/
theorem pairReset_early (hr : s.pair.resetAt = some n) (h : s.now - n ≤ 1000000000) : s.pairReset k = s := by
  unfold pairReset
  extract_lets serial due
  have hd : due = false := by simp only [due, hr, decide_eq_false_iff_not]; omega
  rw [if_neg fun hc => by rw [hd] at hc; exact Bool.false_ne_true hc.2.2.2.1]

theorem pair_followPresent (s : State) : s.followPresent.pair = s.pair ∧ s.followPresent.queues = s.queues := by
  unfold followPresent
  split
  · split
    · exact ⟨rfl, rfl⟩
    · exact ⟨rfl, rfl⟩
  · split
    · exact ⟨rfl, rfl⟩
    · exact ⟨rfl, rfl⟩

/-- What a lost twin leaves of the pair: no loss is pending, and the open episode stays (R404). -/
theorem pairLost_frame (s : State) :
    s.pairLost.pair.lossPending = false ∧ s.pairLost.pair.episode = s.pair.episode ∧ s.pairLost.queues = s.queues := by
  unfold pairLost
  split
  · have h := Announces.postDevice { s with pair := { s.pair with
      mode := .unpaired, own := .unpaired, twin := none, joined := false, heardAt := none, lossPending := false } } .pairLost []
    rw [h.pair, h.queues]
    exact ⟨rfl, rfl, rfl⟩
  · exact ⟨rfl, rfl, rfl⟩

theorem closeEpisode_frame (s : State) :
    s.closeEpisode.pair.episode = none ∧ s.closeEpisode.pair.lossPending = false ∧ s.closeEpisode.queues = s.queues := by
  obtain ⟨hpair, hqueues⟩ := pair_followPresent { s with pair := { s.pair with episode := none } }
  unfold closeEpisode
  extract_lets _ s1
  have hep : s1.pair.episode = none := congrArg Pair.episode hpair
  split
  · obtain ⟨hloss, hepisode, hq⟩ := pairLost_frame s1
    exact ⟨hepisode.trans hep, hloss, hq.trans hqueues⟩
  next h => exact ⟨hep, Bool.not_eq_true _ ▸ h, hqueues⟩

/-! ### Beats -/

theorem isSome_packetOn? (p q : Nat) (k : Packet) : (packetOn? p (.packet q k)).isSome = (q == p) := by
  by_cases h : q = p <;> simp [packetOn?, h]

/-- The packets that have left on a port or wait there, counted. -/
theorem length_traffic {p : Nat} {f : Sent → Bool} (hf : ∀ o, f o = (packetOn? p o).isSome) (s : State) :
    (s.out.filter f).length + (s.port p).sendQ.length = (s.traffic p).length := by
  rw [traffic, List.length_append, List.length_filterMap_eq_countP, List.countP_eq_length_filter, funext hf]

/-- The state in which a BEAT goes out: it is numbered, timed, and names a job (R338, R339). -/
def beatDue (s : State) : State :=
  { s with pair := { s.pair with beat := s.pair.beat + 1, beatAt := s.now, beatJob := s.nextBeatJob.map Job.id } }

theorem beatOut_due (hj : s.pair.joined = true) (hup : (s.port 6).state = .up) (ht : s.power.thermTripN = true)
    (hs : s.starter.stopped = false) (h : 10000 ≤ s.now - s.pair.beatAt) : ∃ k, s.beatOut = s.beatDue.send 6 k :=
  ⟨_, if_pos ⟨hj, hup, ht, by rw [hs]; rfl, h⟩⟩

theorem beatOut_early (h : s.pair.joined = false ∨ s.now - s.pair.beatAt < 10000) : s.beatOut = s := by
  refine if_neg fun hc => ?_
  obtain ⟨hj, -, -, -, hd⟩ := hc
  rcases h with h | h
  · rw [h] at hj
    cases hj
  · omega

/-! ### The loss of the twin -/

/-- A pair event that says that the twin is lost, where no episode is open: the joined pair is undone (R340, R404). -/
theorem pairEvent_loss {c : Nat} (he : s.pair.episode = none) (hj : s.pair.joined = true) (hn : Unstruck n s) :
    let t := s.pairEvent c true
    t.pair.mode = .unpaired ∧ t.pair.joined = false ∧ t.queues = s.queues ∧ t.early = s.early ∧ Unstruck n t := by
  have h1 := Announces.postDevice s .pairEvent (toLe 1 c ++ toLe 1 s.pair.mode.code)
  have hn1 : Unstruck n (s.postDevice .pairEvent (toLe 1 c ++ toLe 1 s.pair.mode.code)) := hn.postDevice
  generalize hs1 : s.postDevice .pairEvent (toLe 1 c ++ toLe 1 s.pair.mode.code) = s1 at h1 hn1
  have hjoined : s1.pair.joined = true := h1.pair ▸ hj
  have heq : s.pairEvent c true = ({ s1 with pair := { s1.pair with
      mode := .unpaired, own := .unpaired, twin := none, joined := false, heardAt := none, episode := some s1.now
      lossPending := false } } : State).postDevice .pairLost [] := by
    simp only [pairEvent, he, Option.isSome_none, Bool.false_eq_true, if_false, hs1, if_true, pairLost, hjoined, Bool.true_or]
  rw [heq]
  generalize hs2 : ({ s1 with pair := { s1.pair with
    mode := .unpaired, own := .unpaired, twin := none, joined := false, heardAt := none, episode := some s1.now
    lossPending := false } } : State) = s2
  have h2 := Announces.postDevice s2 .pairLost []
  have hn2 : Unstruck n s2 := hs2 ▸ ⟨hn1.clean, hn1.count⟩
  intro t
  rw [h2.pair, h2.queues, h2.early, ← hs2]
  exact ⟨rfl, rfl, h1.queues, h1.early, hn2.postDevice⟩

/-- A twin that ran no job and whose beats have ceased is recorded as lost, and the device goes on UNPAIRED (R404, R406). -/
theorem heartbeatLost_idle (hh : s.pair.heardAt = some n) (h : 80000 < s.now - n) (hj : s.pair.joined = true)
    (ht : s.pair.twinJobs = []) (he : s.pair.episode = none) (hp : s.poisoned = []) :
    let t := s.heartbeatLost
    t.pair.mode = .unpaired ∧ t.pair.joined = false ∧ t.queues = s.queues ∧ t.early = s.early ∧
      t.faultsEver = s.faultsEver + 1 := by
  generalize hs1 : s.recordFault { mech := Mech.heartbeat.code, cls := UnitClass.hub.code, serial := some s.pair.twinSerial } = s1
  generalize hs2 : (if (s1.port 6).state = .up then s1.sendPairctl .reset else s1) = s2
  have h1 : s.Reports s1 := hs1 ▸ .recordFault ..
  have hn1 : Unstruck (s.faultsEver + 1) s1 := hs1 ▸ Unstruck.recordFault ⟨hp, rfl⟩
  have h2 : s1.SentOn 6 s2 := by
    rw [← hs2]
    split
    · exact SentOn.refl.send
    · exact .refl
  have hpair : s2.pair = s.pair := by rw [h2.pair, h1.frame]
  have hqueues : s2.queues = s.queues := h2.queues.trans h1.queues
  have hearly : s2.early = s.early := by rw [h2.links, h1.frame]
  have hn2 := hn1.sentOn h2
  have hlate : ¬ (s.now - n ≤ 80000) := by omega
  have heq : s.heartbeatLost = ({ s2 with pair := { s2.pair with heardAt := none } } : State).pairEvent 0 true := by
    simp only [heartbeatLost, hh, hj, Bool.not_true, Bool.false_or, decide_eq_true_eq, if_neg hlate, ht, List.map_nil,
      List.isEmpty_nil, if_true, hs1, hs2]
  rw [heq]
  obtain ⟨hmode, hjoined, hq, hea, hn⟩ := pairEvent_loss (s := { s2 with pair := { s2.pair with heardAt := none } }) (c := 0)
    (by rw [hpair]; exact he) (by rw [hpair]; exact hj) ⟨hn2.clean, hn2.count⟩
  exact ⟨hmode, hjoined, hq.trans hqueues, hea.trans hearly, hn.count⟩

/-- Without a joined twin, and until 80,001 cycles have passed, no beat is missed (R404). -/
theorem heartbeatLost_none (h : s.pair.heardAt = none) : s.heartbeatLost = s := by
  rw [heartbeatLost, h]

theorem heartbeatLost_early (hh : s.pair.heardAt = some n) (h : s.now - n ≤ 80000) : s.heartbeatLost = s := by
  simp only [heartbeatLost, hh, decide_eq_true h, Bool.or_true, if_true]

end Sys2Proof.Machine.State
end

section
open Sys2Proof.Machine Sys2Proof.Machine.State
namespace Sys2Proof.Proofs

/-- Settles O31: the rows of the pair port are `onPair`; a reset holds the device, a beat is one packet more on its way, and a lost
twin undoes the pair. -/
theorem pairPackets : Obligations.PairPackets := by
  refine ⟨?_, fun s => ⟨fun k hwf hup hty hhop hj hkind hserial hn hheld => ⟨fun hdue => ?_, fun n hr hlt => ?_⟩,
    fun n he hle => ?_, fun n he hlt => ?_⟩, fun s k hwf hup hty hhop hj => ?_,
    fun s => ⟨fun hj hup ht hs hdue => ?_, fun h => ?_⟩, fun s hearly => ⟨fun n hh hle => ?_, fun hh => ?_,
    fun n hh hlt hj ht he hp => ?_⟩⟩
  · intro r hr
    simp only [List.mem_cons, List.not_mem_nil, or_false] at hr
    rcases hr with rfl | rfl | rfl | rfl | rfl | rfl | rfl
    all_goals exact exec_of_pairRow (fun _ _ => rfl) rfl
  · obtain ⟨htake, -, -⟩ := exec_of_pairRow (i := .pairctlReset) (go := pairReset) (fun _ _ => rfl) rfl s k hwf hup hty
    refine ⟨_, (htake hhop fun _ => hj).trans (congrArg _ (pairReset_due hkind hj hserial hn hheld hdue)), ?_⟩
    exact ⟨rfl, rfl, rfl, rfl, rfl⟩
  · obtain ⟨htake, -, -⟩ := exec_of_pairRow (i := .pairctlReset) (go := pairReset) (fun _ _ => rfl) rfl s k hwf hup hty
    exact (htake hhop fun _ => hj).trans (congrArg _ (pairReset_early (s := s.freeCredits 6 k) hr hlt))
  · refine congrArg Host.Outcome.next ?_
    rw [he]
    exact if_neg hle.not_gt
  · refine ⟨s.closeEpisode, congrArg Host.Outcome.next ?_, closeEpisode_frame s⟩
    rw [he]
    exact if_pos hlt
  · obtain ⟨htake, -, -⟩ := exec_of_pairRow (i := .beatPacket) (go := beatIn) (fun _ _ => rfl) rfl s k hwf hup hty
    exact ⟨_, htake hhop fun _ => hj, rfl, rfl, rfl, hj, rfl, rfl, rfl, rfl, rfl⟩
  · obtain ⟨k, hk⟩ := beatOut_due hj hup ht hs hdue
    have hsent : s.beatDue.SentOn 6 (s.beatDue.send 6 k) := SentOn.refl.send
    have hlen := (traffic_send s.beatDue k (lt_of_port_state (hup.trans_ne nofun))).length_eq
    refine ⟨_, congrArg Host.Outcome.next hk, congrArg Pair.beat hsent.pair, congrArg Pair.beatAt hsent.pair, ?_, hsent.mem,
      hsent.jobs, hsent.queues⟩
    have hcount := length_traffic (p := 6) (f := fun o => match o with | .packet q _ => q == 6 | _ => false) fun o => by
      cases o with
      | packet q k => exact (isSome_packetOn? ..).symm
      | _ => rfl
    exact (hcount _).trans (hlen.trans ((List.length_append ..).trans (congrArg (· + 1) (hcount s).symm)))
  · exact congrArg Host.Outcome.next (beatOut_early h)
  · exact congrArg Host.Outcome.next (by rw [heartbeatLost_early hh hle, settle_of_early_nil hearly])
  · exact congrArg Host.Outcome.next (by rw [heartbeatLost_none hh, settle_of_early_nil hearly])
  · obtain ⟨hmode, hjoined, hq, hea, hn⟩ := heartbeatLost_idle hh hlt hj ht he hp
    exact ⟨_, congrArg Host.Outcome.next (settle_of_early_nil (hea.trans hearly)), hmode, hjoined, hn, hq⟩

end Sys2Proof.Proofs
end

section
/-! Packets of partners that are not of a chain: STARTER, CTRL and TOPO, and the timers of position discovery (R329, R335, R336,
R385, R405). -/

namespace Sys2Proof.Machine

namespace State

variable {s t u : State} {p n m : Nat} {k : Packet}

/-- A packet of a type that the port does not take fails the hop check (R326). -/
theorem onPacket_of_disallowed {ts : List PType} {ty : PType} (go : State → State) (hwf : k.wf = true) (hup : (s.port p).state = .up)
    (ht : k.ptype.toNat = ty.code) (hvc : ty.vcOn (p == 6) = none) :
    onPacket ts p k go s = .next ((s.freeCredits p k).hopFail p k ((s.hopOne p k).getD .hopCheck)) := by
  have hallowed : allowedType p k = false := by
    rw [allowedType, ht, PType.ofCode_code, Option.bind_some, hvc]
    exact Bool.and_false _
  simp only [onPacket, hwf, hup, hallowed, Bool.not_true, Bool.not_false, Bool.false_eq_true, if_false, if_true, ne_eq,
    not_true_eq_false]

/-! ### STARTER (R329) -/

/-- A request that comes in stands in the mailbox of its port and rings it where the mailbox is free (R329, R467). -/
theorem starterIn_request (hf : k.first.getLsbD 0 = false) (h6 : p ≠ 6) (h55 : 49 + p ≠ 55)
    (hb : (s.mbox (49 + p)).busy = false) :
    s.starterIn p k =
      ((s.store (mboxArea (49 + p)) (k.payload.take 4096)).modMbox (49 + p) fun x =>
        { x with busy := true, done := false, count := x.count + 1 }).modPort p fun x => { x with starterIn := k.bucket.toNat } := by
  have hwrite : s.mboxAreaWrite (49 + p) 0 (k.payload.take 4096) = s.store (mboxArea (49 + p)) (k.payload.take 4096) :=
    if_neg (by rw [hb]; exact Bool.false_ne_true)
  have hb1 : ((s.store (mboxArea (49 + p)) (k.payload.take 4096)).mbox (49 + p)).busy = false := hb
  simp only [starterIn, hf, if_neg h6, hb, Bool.false_eq_true, if_false, hwrite]
  rw [ringMailbox_free h55 hb1]

/-- The state in which a request of this device's own goes out: it is outstanding from now (R329). -/
def starterAsks (s : State) (p : Nat) : State :=
  s.modPort p fun x => { x with starterReq := some (x.starterNext, s.now), starterNext := (x.starterNext + 1) % 2 ^ 32 }

/-- The packet that carries a request. -/
def starterRequest (s : State) (p number : Nat) (msg : List Byte) : Packet :=
  s.mkPacket p .starter 0 0 number 0 0 0 0 msg

theorem starterSends_free (msg : List Byte) (hup : (s.port p).state = .up) (hs : s.starter.stopped = false)
    (hr : (s.port p).starterReq = none) :
    s.starterSends p msg =
      (s.starterAsks p).send p ((s.starterAsks p).starterRequest p (s.port p).starterNext msg) := by
  have hgo : ¬ ((s.port p).state ≠ .up ∨ (s.port p).starterReq.isSome = true ∨ s.starter.stopped = true) := by
    simp [hup, hr, hs]
  exact if_neg hgo

theorem starterSends_outstanding (msg : List Byte) (hr : (s.port p).starterReq.isSome = true) : s.starterSends p msg = s :=
  if_pos (.inr (.inl hr))

/-- A request that has waited for 100 ms ends with FAILED (R329). -/
theorem starterTimeout_late (hr : (s.port p).starterReq = some (n, m)) (hd : s.pair.detach = none) (h : 10000000 < s.now - m) :
    s.starterTimeout p = (s.modPort p fun x => { x with starterReq := none }).answer .failed [] := by
  unfold starterTimeout
  simp only [hr, if_pos h]
  rw [show ((s.modPort p fun x => { x with starterReq := none }).answer .failed []).pair.detach = none from hd]

theorem starterTimeout_none (hr : (s.port p).starterReq = none) (hd : s.pair.detach = none) : s.starterTimeout p = s := by
  simp only [starterTimeout, hr, hd]

/-! ### CTRL (R385, R405) -/

theorem ctrlIn_failed {f : Mech} (h : s.hopOne p k = some f) : s.ctrlIn p k = (s.freeCredits p k).hopFail p k f := by
  simp only [ctrlIn, h]

theorem ctrlIn_notice {a : Notice} (h : s.hopOne p k = none) (ha : Notice.ofCode (leNat ((k.payload.drop 0).take 8)) = some a)
    (hst : k.stage = 0xE) :
    s.ctrlIn p k = ((s.freeCredits p k).takeNotice p k.job.toNat a (BitVec.ofNat 64 (leNat ((k.payload.drop (8 * 1)).take 8)))
      (leNat ((k.payload.drop (8 * 2)).take 8)) (leNat ((k.payload.drop (8 * 3)).take 8)) (k.payload.drop 32)).settle := by
  simp only [ctrlIn, h, Nat.mul_zero, ha, if_pos hst]

/-! ### Position discovery (R335, R336) -/

theorem topoStep_declared {t : Topo} (h : t.declared = true) (p : Nat) (o : W64) (c : List (Option Nat)) (size : List Nat)
    (decl : Bool) : topoStep t p o c size decl = t := if_pos h

/-- On a device that is declared a TOPO packet that passes its check changes what its port knows of the partner, and no more. -/
theorem topoIn_declared (hcrc : Pkt.crc k = k.pcrc) (hvc : PType.vcOn .topo (p == 6) = some k.vc.toNat)
    (htorus : (s.port p).torus = true) (hd : s.topo.declared = true) : ∃ f, s.topoIn p k = (s.freeCredits p k).modPort p f := by
  unfold topoIn
  extract_lets s0 word c' size' decl' whole s1 t
  have ht : t = s1.topo := topoStep_declared hd ..
  rw [if_neg (not_not.2 hcrc), if_neg (not_not.2 hvc), if_neg (by rw [htorus]; exact Bool.false_ne_true), if_pos ht]
  exact ⟨_, rfl⟩

theorem links_sendTopo (s : State) (ps : List Nat) : s.Links (s.sendTopo ps) := Links.foldl (fun _ _ => .send ..) _ _

/-- A device that sends its state notes when (R335). -/
theorem links_topoOut (s : State) : ({ s with topo := { s.topo with sentAt := s.now } } : State).Links s.topoOut :=
  links_sendTopo ..

theorem topoAgain_due (h : 100000 ≤ s.now - s.topo.sentAt) : s.topoAgain = s.topoOut := if_pos h

theorem topoAgain_early (h : s.now - s.topo.sentAt < 100000) : s.topoAgain = s := if_neg h.not_ge

theorem topoDeclared_early (h : s.power.links = false ∨ s.topo.checked = true ∨ s.now - s.topo.changedAt < 10000000) :
    s.topoDeclared = s := by
  refine if_pos ?_
  rcases h with h | h | h
  · exact .inl (by rw [h]; rfl)
  · exact .inr (.inl h)
  · exact .inr (.inr (.inr h))

/-- A device whose position has stood for 100 ms declares it, and then posts the outcome (R335, R336). -/
theorem topoDeclared_posts (hl : s.power.links = true) (hc : s.topo.checked = false) (ha : (s.topo.c.all Option.isSome) = true)
    (h : 10000000 ≤ s.now - s.topo.changedAt) :
    ∃ (u : State) (e : Ev) (payload : List Byte), s.topoDeclared = u.postDevice e payload ∧ Ev.alertBit e = none ∧
      u.topo.declared = true ∧ u.topo.checked = true ∧ u.events = s.events ∧ u.queues = s.queues := by
  have hgo : ¬ (!s.power.links ∨ s.topo.checked ∨ !(s.topo.c.all Option.isSome) ∨ s.now - s.topo.changedAt < 10000000) := by
    simp [hl, hc, ha]
    omega
  unfold topoDeclared
  extract_lets t bad s1 s2
  rw [if_neg hgo]
  have h2 : s2.topo.declared = true ∧ s2.topo.checked = true ∧ s2.events = s.events ∧ s2.queues = s.queues := by
    unfold s2
    split
    · exact ⟨rfl, rfl, rfl, rfl⟩
    · rw [links_topoOut s1]
      exact ⟨rfl, rfl, rfl, rfl⟩
  clear_value s2 s1 bad
  cases bad with
  | some q => exact ⟨s2, _, _, rfl, rfl, h2⟩
  | none => exact ⟨s2, _, _, rfl, rfl, h2⟩

theorem topoDeclared_due (hl : s.power.links = true) (hc : s.topo.checked = false) (ha : (s.topo.c.all Option.isSome) = true)
    (h : 10000000 ≤ s.now - s.topo.changedAt) :
    s.topoDeclared.topo.declared = true ∧ s.topoDeclared.topo.checked = true ∧ s.events < s.topoDeclared.events ∧
      s.topoDeclared.queues = s.queues := by
  obtain ⟨u, e, payload, heq, he, hdecl, hcheck, hevents, hqueues⟩ := topoDeclared_posts hl hc ha h
  have hpost := Reports.postRecord u [] true (u.eventRecord e none none 0 0 payload)
  have htopo : (u.postRecord [] true (u.eventRecord e none none 0 0 payload)).topo = u.topo := by rw [hpost.frame]
  rw [heq, postDevice_of_no_alert he, htopo, ← hevents]
  exact ⟨hdecl, hcheck, events_lt_postRecord .., hpost.queues.trans hqueues⟩

end State

theorem exec_starterPacket_arrives (p : Fin 7) (k : Packet) (s : State) :
    exec (.starterPacket p (.arrives k)) s = State.onPacket [.starter] p.val k (fun s =>
      if p = 6 then s.onPair k true fun s => s.starterIn 6 k
      else
        match s.hopOne p.val k with
        | some m => (s.freeCredits p.val k).hopFail p.val k m
        | none => (s.freeCredits p.val k).starterIn p.val k) s := rfl

/-- A STARTER packet of a partner port: one that fails check 1 is discarded and counted, any other is taken (R329, R331). -/
theorem exec_starterPacket_partner {p : Fin 7} {k : Packet} {s : State} (hwf : k.wf = true) (hup : (s.port p.val).state = .up) (h6 : p ≠ 6)
    (ht : k.ptype.toNat = PType.starter.code) :
    (s.hopOne p.val k = none → exec (.starterPacket p (.arrives k)) s = .next ((s.freeCredits p.val k).starterIn p.val k)) ∧
      ∀ m, s.hopOne p.val k = some m →
        exec (.starterPacket p (.arrives k)) s = .next ((s.freeCredits p.val k).hopFail p.val k m) := by
  have hvc : (PType.starter.vcOn (p.val == 6)).isSome = true := by cases p.val == 6 <;> rfl
  rw [exec_starterPacket_arrives, State.onPacket_of_type _ hwf hup ht hvc, if_neg h6]
  exact ⟨fun h => by rw [h], fun m h => by rw [h]⟩

theorem exec_ctrlPacket (p : Fin 7) (k : Packet) (s : State) :
    exec (.ctrlPacket p k) s = State.onPacket [.ctrl] p.val k (fun s => s.ctrlIn p.val k) s := rfl

end Sys2Proof.Machine
end

section
open Sys2Proof.Machine Sys2Proof.Machine.State
namespace Sys2Proof.Proofs

/-- Settles O32: after check 1 each packet does what its row says, and each timer of discovery acts once its time has come. -/
theorem partnerPackets : Obligations.PartnerPackets := by
  refine ⟨fun s p k hwf hup => ⟨fun h6 hty => exec_starterPacket_partner hwf hup h6 hty, fun hty a ha => ⟨fun hhop hst => ?_, fun m hhop => ?_⟩,
      fun hty htorus h6 hcrc hvc hd => ?_⟩,
    fun s p k hwf hup h6 hty hhop hf hok hlen hb => ?_, fun s p msg hwf hup hs => ⟨fun hr => ?_, fun hr => ?_⟩,
    fun s => ⟨fun h => congrArg _ (topoAgain_early h), fun h => ?_, fun h => congrArg _ (topoDeclared_early h),
      fun hl hc ha h => ⟨_, rfl, topoDeclared_due hl hc ha h⟩, fun p n m hr hd h => ?_,
      fun p hr hd => congrArg _ (starterTimeout_none hr hd)⟩⟩
  · rw [exec_ctrlPacket, onPacket_of_type _ hwf hup hty (vcOn_of_hopOne hhop hty), ctrlIn_notice hhop ha hst]
  · rw [exec_ctrlPacket]
    by_cases h6 : (p.val == 6) = true
    · rw [onPacket_of_disallowed _ hwf hup hty (by rw [h6]; rfl), hhop, Option.getD_some]
    · rw [onPacket_of_type _ hwf hup hty (by rw [Bool.eq_false_of_not_eq_true h6]; rfl), ctrlIn_failed hhop]
  · have hvc6 : PType.topo.vcOn (p.val == 6) = some k.vc.toNat := by
      rw [show (p.val == 6) = false from beq_eq_false_iff_ne.2 fun h => h6 (Fin.ext h), hvc]
      rfl
    obtain ⟨f, hf⟩ := topoIn_declared hcrc hvc6 htorus hd
    have hexec : exec (.topoPacket p k) s = .next (s.topoIn p.val k) :=
      onPacket_of_type (fun s => s.topoIn p.val k) hwf hup hty (by rw [hvc6]; rfl)
    exact ⟨_, hexec.trans (congrArg _ hf), rfl, rfl, rfl, rfl⟩
  · have hp : p.val < s.ports.length := lt_of_port_state (hup.trans_ne nofun)
    have hp1 : p.val < (s.freeCredits p.val k).ports.length := (List.length_set ..).symm ▸ hp
    have hne : p.val ≠ 6 := fun h => h6 (Fin.ext h)
    obtain ⟨htake, -⟩ := exec_starterPacket_partner hwf hup h6 hty
    have heq := starterIn_request (s := s.freeCredits p.val k) hf hne (by omega) hb
    have hbox := mbox_modMbox (s := (s.freeCredits p.val k).store (mboxArea (49 + p.val)) (k.payload.take 4096))
      (fun x => { x with busy := true, done := false, count := x.count + 1 }) hlen
    exact ⟨_, (htake hhop).trans (congrArg _ heq), congrArg Mailbox.busy hbox, congrArg Mailbox.count hbox,
      bytes_store (s.freeCredits p.val k) hok _ _, congrArg Port.starterIn (port_setPort _ hp1), rfl⟩
  · have hp : p.val < s.ports.length := lt_of_port_state (hup.trans_ne nofun)
    have hasks : (s.starterAsks p.val).port p.val = _ := port_setPort _ hp
    have hp1 : p.val < (s.starterAsks p.val).ports.length := (List.length_set ..).symm ▸ hp
    have hexec : exec (.starterPacket p (.sends msg)) s = .next (s.starterSends p.val msg) :=
      if_neg (by rw [hwf]; exact Bool.false_ne_true)
    have hsent := (SentOn.refl (p := p.val) (s := s.starterAsks p.val)).send
      (k := (s.starterAsks p.val).starterRequest p.val (s.port p.val).starterNext msg)
    refine ⟨_, _, hexec.trans (congrArg _ (starterSends_free msg hup hs hr)), mem_traffic.1 (mem_traffic_send _ _ hp1), rfl, rfl, rfl,
      List.isPrefixOf_iff_prefix.2 (List.prefix_append ..), rfl,
      (congrArg Port.starterReq hsent.port).trans (congrArg Port.starterReq hasks),
      (congrArg Port.starterNext hsent.port).trans (congrArg Port.starterNext hasks), hsent.mem, hsent.jobs, hsent.queues⟩
  · exact (if_neg (by rw [hwf]; exact Bool.false_ne_true)).trans (congrArg Host.Outcome.next (starterSends_outstanding msg hr))
  · refine ⟨_, congrArg Host.Outcome.next (topoAgain_due h), ?_⟩
    rw [links_topoOut s]
    exact ⟨rfl, rfl, rfl, rfl⟩
  · have hp : p.val < s.ports.length := by
      by_contra hp
      rw [port_of_length_le (Nat.le_of_not_lt hp)] at hr
      cases hr
    exact ⟨_, congrArg Host.Outcome.next (starterTimeout_late hr hd h), congrArg Port.starterReq (port_setPort _ hp), rfl, rfl, rfl, rfl⟩

end Sys2Proof.Proofs
end

section
/-! The work of the FEC on a flit: what it counts, and the lanes that it marks (R309 to R311, R343). -/

namespace Sys2Proof.Machine

/-- `y` is `x` but for the marks of its lanes. -/
def Port.MarkedAs (x y : Port) : Prop := y = { x with laneBad := y.laneBad }

theorem Port.MarkedAs.trans {x y z : Port} (h : x.MarkedAs y) (h1 : y.MarkedAs z) : x.MarkedAs z := by
  unfold MarkedAs at *
  rw [h1, h]

namespace State

variable {s t u : State} {p : Nat} {ws : List Word}

theorem setPort_port (s : State) (p : Nat) : s.setPort p (s.port p) = s := by
  by_cases hp : p < s.ports.length
  · have hget : s.port p = s.ports[p] := by simp [port, List.getD, hp]
    rw [setPort, hget, List.set_getElem_self]
  · exact setPort_of_length_le _ (Nat.le_of_not_lt hp)

theorem port_congr (h : t.ports = s.ports) (k : Nat) : t.port k = s.port k := by rw [port, h, port]

/-- From `s` to `t` lanes of port `p` may have been marked, with an event for each; no other port changed, and nothing left. -/
structure Marks (p : Nat) (s t : State) : Prop where
  length : t.ports.length = s.ports.length
  others : ∀ k, k ≠ p → t.port k = s.port k
  port : (s.port p).MarkedAs (t.port p)
  out : t.out = s.out

namespace Marks

theorem refl : s.Marks p s := ⟨rfl, fun _ _ => rfl, rfl, rfl⟩

theorem trans (h : s.Marks p t) (h1 : t.Marks p u) : s.Marks p u where
  length := h1.length.trans h.length
  others k hk := (h1.others k hk).trans (h.others k hk)
  port := h.port.trans h1.port
  out := h1.out.trans h.out

theorem of_reports (h : s.Marks p t) (hr : t.Reports u) : s.Marks p u := by
  have hports : u.ports = t.ports := by rw [hr.frame]
  have hout : u.out = t.out := by rw [hr.frame]
  exact h.trans ⟨congrArg _ hports, fun k _ => port_congr hports k, port_congr hports p ▸ rfl, hout⟩

theorem mark (s : State) (m : BitVec 128) : s.Marks p (s.modPort p fun y => { y with laneBad := y.laneBad ||| m }) where
  length := List.length_set ..
  others _ hk := port_setPort_ne s _ hk
  port := by
    by_cases hp : p < s.ports.length
    · rw [State.modPort, port_setPort _ hp]
      rfl
    · rw [State.modPort, setPort_of_length_le _ (Nat.le_of_not_lt hp)]
      rfl
  out := rfl

end Marks

theorem marks_markLanes (s : State) (p : Nat) : s.Marks p (s.markLanes p) := by
  refine List.foldlRecOn (motive := s.Marks p) _ _ .refl fun t ht l _ => ?_
  rw [postDevice_of_no_alert rfl]
  exact (ht.trans (.mark t _)).of_reports (.postRecord ..)

/-- Where fewer symbols are in error than the limit, no lane can show more (R343). -/
theorem markLanes_quiet (h : (s.port p).laneErrs.length ≤ symbolLimit p) : s.markLanes p = s := by
  have hbad : ((List.range (Fec.lanesOf p)).filter fun l => !(s.port p).laneBad.getLsbD l &&
      decide (symbolLimit p < ((s.port p).laneErrs.filter fun e => e.1 == l).length)) = [] := by
    refine List.filter_eq_nil_iff.2 fun l _ hl => ?_
    have hlt := of_decide_eq_true (Bool.and_eq_true_iff.1 hl).2
    have hle := (s.port p).laneErrs.length_filter_le fun e => e.1 == l
    omega
  unfold markLanes
  extract_lets x bad
  rw [show bad = [] from hbad]
  rfl

/-! ### Codewords -/

/-- The codewords that begin in a flit and needed correction, and those that are beyond their code. -/
def wordsCorrected (p : Nat) (ws : List Word) : List Word :=
  ws.filter fun w => w.begins && w.corrects p && !(w.err.isEmpty && w.erased.isEmpty)

def wordsFailed (p : Nat) (ws : List Word) : List Word := ws.filter fun w => w.begins && !w.corrects p

theorem filter_wordsCorrected : (((ws.filter fun w => w.begins).filter fun w => w.corrects p).filter fun w =>
    !w.err.isEmpty || !w.erased.isEmpty) = wordsCorrected p ws := by
  rw [List.filter_filter, List.filter_filter]
  refine List.filter_congr fun w _ => ?_
  cases w.begins <;> cases w.corrects p <;> cases w.err.isEmpty <;> cases w.erased.isEmpty <;> rfl

theorem length_wordsFailed :
    (ws.filter fun w => w.begins).length - ((ws.filter fun w => w.begins).filter fun w => w.corrects p).length =
      (wordsFailed p ws).length := by
  have hsplit := List.length_eq_length_filter_add (l := ws.filter fun w => w.begins) fun w => w.corrects p
  have hfailed : ((ws.filter fun w => w.begins).filter fun w => !w.corrects p) = wordsFailed p ws := by
    rw [List.filter_filter]
    exact List.filter_congr fun w _ => Bool.and_comm ..
  rw [hfailed] at hsplit
  omega

/-- The symbol errors of some codewords are among those of all. -/
theorem length_flatMap_errs_le {α : Type} {good : List Word} (h : good.Sublist ws) (f : Word → Nat → α) :
    (good.flatMap fun w => w.err.map (f w)).length ≤ (ws.map fun w => w.err.length).sum := by
  rw [List.length_flatMap]
  simp only [List.length_map]
  exact (h.map _).sum_le_sum fun _ _ => Nat.zero_le _

/-- A port with the codewords of a flit counted, and the symbol errors of the last second. -/
def countedPort (x : Port) (p : Nat) (ws : List Word) (errs : List (Nat × Nat)) : Port :=
  { x with
    fecCe := x.fecCe + (wordsCorrected p ws).length, fecUe := x.fecUe + (wordsFailed p ws).length, laneErrs := errs }

/-- What the FEC leaves of a flit's codewords: they are counted, lanes may be marked, and where the errors are too few for that
nothing else changes. -/
structure FecCounts (p : Nat) (ws : List Word) (s t : State) : Prop where
  length : t.ports.length = s.ports.length
  others : ∀ k, k ≠ p → t.port k = s.port k
  port : ∃ errs, (countedPort (s.port p) p ws errs).MarkedAs (t.port p)
  out : t.out = s.out
  quiet : (s.port p).laneErrs.length + (ws.map fun w => w.err.length).sum ≤ 672000 →
    t.mem = s.mem ∧ t.queues = s.queues ∧ t.jobs = s.jobs

theorem countFec_eq (s : State) (p : Nat) (ws : List Word) :
    ∃ errs : List (Nat × Nat), errs.length ≤ (s.port p).laneErrs.length + (ws.map fun w => w.err.length).sum ∧
      s.countFec p ws = (s.setPort p (countedPort (s.port p) p ws errs)).markLanes p := by
  unfold countFec
  extract_lets mine good errs
  have hce : (good.filter fun w => !w.err.isEmpty || !w.erased.isEmpty).length = (wordsCorrected p ws).length :=
    congrArg _ filter_wordsCorrected
  have hue : mine.length - good.length = (wordsFailed p ws).length := length_wordsFailed
  rw [hce, hue]
  refine ⟨_, ?_, rfl⟩
  have hgood : good.Sublist ws := List.filter_sublist.trans List.filter_sublist
  have herrs : errs.length ≤ (ws.map fun w => w.err.length).sum := length_flatMap_errs_le hgood _
  rw [List.length_append]
  exact Nat.add_le_add (List.length_filter_le ..) herrs

theorem fecCounts_countFec (hp : p < s.ports.length) (ws : List Word) : FecCounts p ws s (s.countFec p ws) := by
  obtain ⟨errs, herrs, heq⟩ := countFec_eq s p ws
  have hport : (s.setPort p (countedPort (s.port p) p ws errs)).port p = _ := port_setPort _ hp
  have hm := marks_markLanes (s.setPort p (countedPort (s.port p) p ws errs)) p
  have hmarked := hm.port
  rw [hport] at hmarked
  rw [heq]
  refine ⟨hm.length.trans (List.length_set ..), fun k hk => (hm.others k hk).trans (port_setPort_ne s _ hk),
    ⟨errs, hmarked⟩, hm.out, fun hq => ?_⟩
  have hlimit : 672000 ≤ symbolLimit p := by
    unfold symbolLimit
    split <;> omega
  rw [markLanes_quiet (by rw [hport]; exact (herrs.trans hq).trans hlimit)]
  exact ⟨rfl, rfl, rfl⟩

end State
end Sys2Proof.Machine
end

section
/-! A flit judged: what is refused, accepted and acknowledged, and what goes out again (R313, R314, R316 to R318). -/

namespace Sys2Proof.Machine

/-! ### The receiving side of a port that sends -/

namespace Port.SendsAs

variable {x y : Port}

theorem rxNext (h : x.SendsAs y) : y.rxNext = x.rxNext := by rw [h]

theorem discarding (h : x.SendsAs y) : y.discarding = x.discarding := by rw [h]

theorem fecCe (h : x.SendsAs y) : y.fecCe = x.fecCe := by rw [h]

theorem fecUe (h : x.SendsAs y) : y.fecUe = x.fecUe := by rw [h]

theorem oldest (h : x.SendsAs y) : y.oldest = x.oldest := by rw [h]

theorem replays (h : x.SendsAs y) : y.replays = x.replays := by rw [h]

end Port.SendsAs

/-! ### The control word (R314) -/

namespace Ctl

theorem ftype_eq (w : W64) : ftype w = (w >>> 61).toNat := by
  have := w.isLt
  rw [ftype, bitsAt, BitVec.toNat_ushiftRight, Nat.shiftRight_eq_div_pow]
  omega

theorem seq_eq (w : W64) : seq w = (w >>> 49).toNat % 4096 := by rw [BitVec.toNat_ushiftRight]; rfl

theorem ack_eq (w : W64) : ack w = (w >>> 37).toNat % 4096 := by rw [BitVec.toNat_ushiftRight]; rfl

theorem pstart_eq (w : W64) : pstart w = (w >>> 11).toNat % 4096 := by rw [BitVec.toNat_ushiftRight]; rfl

/-- The ack field of a control word holds what it was formed with. -/
theorem ack_word {ft sq a v c ps : Nat} (ha : a < 4096) (hv : v < 4) (hc : c < 4096) (hps : ps < 4096) :
    (word ft sq a v c ps >>> 37).toNat % 4096 = a := by
  refine Nat.eq_of_testBit_eq fun i => ?_
  have hbit {x n : Nat} (hx : x < 2 ^ n) (j : Nat) (hj : n ≤ j) : x.testBit j = false :=
    Nat.testBit_lt_two_pow (hx.trans_le (Nat.pow_le_pow_right (by omega) hj))
  rw [show 4096 = 2 ^ 12 from rfl, Nat.testBit_mod_two_pow, BitVec.toNat_ushiftRight, Nat.testBit_shiftRight, word,
    BitVec.toNat_ofNat, Nat.testBit_mod_two_pow]
  by_cases hi : i < 12
  · have hft : ¬ 61 ≤ 37 + i := by omega
    have hsq : ¬ 49 ≤ 37 + i := by omega
    simp [Nat.testBit_or, Nat.testBit_shiftLeft, hi, hft, hsq, hbit (n := 2) hv (37 + i - 35) (by omega),
      hbit (n := 12) hc (37 + i - 23) (by omega), hbit (n := 12) hps (37 + i - 11) (by omega)]
    omega
  · rw [hbit (n := 12) ha i (by omega), decide_eq_false hi, Bool.false_and]

end Ctl

theorem owedVc_lt {x : Port} : (owedVc x).getD 0 < 4 := by
  cases h : owedVc x with
  | none => decide
  | some v => exact List.mem_range.1 (List.mem_of_find?_eq_some h)

/-- A flit's payload is read from where the receiver stands in the packet stream (R325). -/
theorem Rx.flit_congr {x y : Port} (hp : y.rxPad = x.rxPad) (hd : y.rxDue = x.rxDue) (hh : y.rxHead = x.rxHead) (w : W64)
    (payload : List Byte) : Rx.flit y w payload = Rx.flit x w payload := by
  rw [Rx.flit, Rx.flit, hp, hd, hh]

namespace State

variable {s t u : State} {p : Nat} {f : Flit}

/-! ### What the work on a flit leaves as it was -/

/-- Port `p` and what left the device may have changed, but not the counts of codewords. -/
structure Tends (p : Nat) (s t : State) : Prop where
  links : s.Links t
  length : t.ports.length = s.ports.length
  others : ∀ k, k ≠ p → t.port k = s.port k
  fecCe : (t.port p).fecCe = (s.port p).fecCe
  fecUe : (t.port p).fecUe = (s.port p).fecUe

namespace Tends

theorem trans (h : s.Tends p t) (h1 : t.Tends p u) : s.Tends p u :=
  ⟨h.links.trans h1.links, h1.length.trans h.length, fun k hk => (h1.others k hk).trans (h.others k hk),
    h1.fecCe.trans h.fecCe, h1.fecUe.trans h.fecUe⟩

theorem of_sentOn (h : s.SentOn p t) : s.Tends p t := ⟨h.links, h.length, h.others, h.port.fecCe, h.port.fecUe⟩

theorem setPort {x : Port} (hp : p < s.ports.length) (hc : x.fecCe = (s.port p).fecCe) (hu : x.fecUe = (s.port p).fecUe) :
    s.Tends p (s.setPort p x) :=
  ⟨rfl, List.length_set .., fun _ hk => port_setPort_ne s x hk, (port_setPort x hp).symm ▸ hc, (port_setPort x hp).symm ▸ hu⟩

end Tends

/-! ### Acknowledgements (R317) -/

/-- An ack may move the oldest unacknowledged flit on, and then packets that waited for room may start. -/
theorem applyAck_sends (s : State) (p a : Nat) :
    ∃ y : Port, y = { s.port p with oldest := y.oldest, replays := y.replays, sentAt := y.sentAt, kept := y.kept } ∧
      (s.setPort p y).SentOn p (s.applyAck p a) := by
  unfold applyAck
  extract_lets x adv s1
  split
  · exact ⟨_, rfl, SentOn.refl.pump⟩
  · exact ⟨s.port p, rfl, (setPort_port s p).symm ▸ .refl⟩

theorem applyAck_frame (hp : p < s.ports.length) (a : Nat) :
    s.Tends p (s.applyAck p a) ∧ ((s.applyAck p a).port p).rxNext = (s.port p).rxNext := by
  obtain ⟨y, hy, hsent⟩ := applyAck_sends s p a
  have hport : (s.setPort p y).port p = y := port_setPort y hp
  have htends : s.Tends p (s.setPort p y) := .setPort hp (by rw [hy]) (by rw [hy])
  exact ⟨htends.trans (.of_sentOn hsent), by rw [hsent.port.rxNext, hport, hy]⟩

/-- An ack that is ahead passes the sequence numbers before it. -/
theorem applyAck_ahead {a : Nat} (hp : p < s.ports.length) (h0 : 0 < (a + 4096 - (s.port p).oldest) % 4096)
    (h1 : (a + 4096 - (s.port p).oldest) % 4096 ≤ ((s.port p).txNext + 4096 - (s.port p).oldest) % 4096) :
    ((s.applyAck p a).port p).oldest = a ∧ ((s.applyAck p a).port p).replays = 0 := by
  unfold applyAck
  extract_lets x adv s1
  rw [if_pos ⟨h0, h1⟩]
  have hport : s1.port p = _ := port_setPort _ hp
  have hsent := (SentOn.refl (s := s1) (p := p)).pump (n := (s1.port p).sendQ.length)
  rw [hsent.port.oldest, hsent.port.replays, hport]
  exact ⟨rfl, rfl⟩

/-- The flit that is expected next moves the receiver on (R316). -/
theorem acceptFlit_frame (hp : p < s.ports.length) (w : W64) (r : Rx) :
    s.Tends p (s.acceptFlit p w r) ∧ ((s.acceptFlit p w r).port p).rxNext = ((s.port p).rxNext + 1) % 4096 ∧
      ((s.acceptFlit p w r).port p).discarding = false := by
  obtain ⟨hack, hnext⟩ := applyAck_frame hp (Ctl.ack w)
  have hp1 : p < (s.applyAck p (Ctl.ack w)).ports.length := hack.length.symm ▸ hp
  unfold acceptFlit
  extract_lets s1 v s2 s3
  have hport : s2.port p = _ := port_setPort _ hp1
  have h2 : s1.Tends p s2 := .setPort hp1 rfl rfl
  have h3 : s2.SentOn p s3 := SentOn.refl.pump
  have hsent : s2.SentOn p (if 64 ≤ (s3.port p).sinceAck then s3.sendAck p else s3) := by
    split
    · exact h3.sendAck
    · exact h3
  refine ⟨(hack.trans h2).trans (.of_sentOn hsent), ?_, ?_⟩
  · rw [hsent.port.rxNext, hport, ← hnext]
  · rw [hsent.port.discarding, hport]

/-- A NAK carries the next expected sequence number, and the receiver waits for the replay (R316). -/
theorem sendNak_frame (hp : p < s.ports.length) :
    s.Tends p (s.sendNak p) ∧ ((s.sendNak p).port p).rxNext = (s.port p).rxNext ∧ ((s.sendNak p).port p).discarding = true ∧
      ∃ more, (s.sendNak p).out =
        s.out ++ .flit p (FlitImage.form p (Ctl.word 2 0 (s.port p).rxNext 0 0 0) []) false :: more := by
  have hport : (s.modPort p fun x => { x with discarding := true }).port p = _ := port_setPort _ hp
  have h1 : s.Tends p (s.modPort p fun x => { x with discarding := true }) := .setPort hp rfl rfl
  have hsent : (s.modPort p fun x => { x with discarding := true }).SentOn p (s.sendNak p) := SentOn.refl.sendPlainFlit
  have hnext : ((s.modPort p fun x => { x with discarding := true }).port p).rxNext = (s.port p).rxNext := by rw [hport]
  refine ⟨h1.trans (.of_sentOn hsent), hsent.port.rxNext.trans hnext, by rw [hsent.port.discarding, hport], ?_⟩
  rw [← hnext]
  exact ⟨_, rfl⟩

/-! ### The judgement (R316) -/

/-- What makes a port refuse a flit. -/
def Refuses (x : Port) (p : Nat) (f : Flit) : Prop :=
  f.crc ≠ crc32c (toLe 8 f.control.toNat ++ f.payload) ∨ ((wordsOf x p f).all fun w => w.corrects p) = false ∨
    3 ≤ Ctl.ftype f.control ∨
    (Ctl.ftype f.control = 0 ∧ Ctl.seq f.control = x.rxNext ∧
      (Rx.flit x f.control f.payload).first.getD 0xFFF ≠ Ctl.pstart f.control)

/-- The port after the FEC's work stands where it did in the packet stream. -/
theorem countFec_stream {ws : List Word} (hp : p < s.ports.length) (w : W64) (payload : List Byte) :
    Rx.flit ((s.countFec p ws).port p) w payload = Rx.flit (s.port p) w payload ∧
      ((s.countFec p ws).port p).rxNext = (s.port p).rxNext := by
  obtain ⟨errs, hport⟩ := (fecCounts_countFec hp ws).port
  rw [hport]
  exact ⟨Rx.flit_congr rfl rfl rfl .., rfl⟩

theorem judgeFlit_refused (hp : p < s.ports.length) (h : Refuses (s.port p) p f) :
    ∃ c, s.judgeFlit p f = ((s.countFec p (wordsOf (s.port p) p f)).modPort p fun y => { y with crcErr := c }).sendNak p := by
  obtain ⟨hrx, hnext⟩ := countFec_stream (ws := wordsOf (s.port p) p f) hp f.control f.payload
  unfold judgeFlit
  extract_lets ws failed s0 crcOk x r fresh parsed s1
  have hrefuse : (!crcOk || failed || decide (3 ≤ Ctl.ftype f.control) || !parsed) = true := by
    have hr : r = Rx.flit (s.port p) f.control f.payload := hrx
    have hx : x.rxNext = (s.port p).rxNext := hnext
    rcases h with h | h | h | ⟨h0, hseq, hst⟩
    · simp [crcOk, h]
    · simp [failed, ws, h]
    · simp [h]
    · simp [parsed, fresh, h0, hseq, hx, hr, hst]
  have hs1 : ∃ c, s1 = s0.modPort p fun y => { y with crcErr := c } := by
    unfold s1
    split
    · exact ⟨(s0.port p).crcErr, (setPort_port s0 p).symm⟩
    · exact ⟨_, rfl⟩
  obtain ⟨c, hc⟩ := hs1
  exact ⟨c, (if_pos (by simpa [or_assoc] using hrefuse)).trans (congrArg (sendNak · p) hc)⟩

/-- A flit that is refused is counted and answered with a NAK, and taken no further. -/
theorem judgeFlit_refused_frame (hp : p < s.ports.length) (h : Refuses (s.port p) p f) :
    (s.countFec p (wordsOf (s.port p) p f)).Tends p (s.judgeFlit p f) ∧
      ((s.judgeFlit p f).port p).rxNext = (s.port p).rxNext ∧ ((s.judgeFlit p f).port p).discarding = true ∧
      ∃ more, (s.judgeFlit p f).out =
        s.out ++ .flit p (FlitImage.form p (Ctl.word 2 0 (s.port p).rxNext 0 0 0) []) false :: more := by
  have hfec := fecCounts_countFec hp (wordsOf (s.port p) p f)
  have hnext := (countFec_stream (ws := wordsOf (s.port p) p f) hp f.control f.payload).2
  obtain ⟨c, hc⟩ := judgeFlit_refused hp h
  rw [hc, ← hfec.out, ← hnext]
  generalize s.countFec p (wordsOf (s.port p) p f) = u at *
  have hpu : p < u.ports.length := hfec.length.symm ▸ hp
  have hport : (u.modPort p fun y => { y with crcErr := c }).port p = _ := port_setPort _ hpu
  have hcounted : u.Tends p (u.modPort p fun y => { y with crcErr := c }) := .setPort hpu rfl rfl
  obtain ⟨htends, hrx, hdisc, more, hout⟩ := sendNak_frame (s := u.modPort p fun y => { y with crcErr := c })
    (hcounted.length.symm ▸ hpu)
  rw [hport] at hrx hout
  exact ⟨hcounted.trans htends, hrx, hdisc, more, hout⟩

/-- A flit that is not refused is judged by its type. -/
theorem judgeFlit_taken (hp : p < s.ports.length) (h : ¬ Refuses (s.port p) p f) :
    (Ctl.ftype f.control = 0 → Ctl.seq f.control = (s.port p).rxNext → s.judgeFlit p f =
      (s.countFec p (wordsOf (s.port p) p f)).acceptFlit p f.control (Rx.flit (s.port p) f.control f.payload)) ∧
    (Ctl.ftype f.control = 1 →
      s.judgeFlit p f = (s.countFec p (wordsOf (s.port p) p f)).applyAck p (Ctl.ack f.control)) := by
  obtain ⟨hrx, hnext⟩ := countFec_stream (ws := wordsOf (s.port p) p f) hp f.control f.payload
  simp only [Refuses, not_or, not_and, not_not, Bool.not_eq_false] at h
  obtain ⟨hcrc, hwhole, htype, hstart⟩ := h
  unfold judgeFlit
  extract_lets ws failed s0 crcOk x r fresh parsed s1
  have hr : r = Rx.flit (s.port p) f.control f.payload := hrx
  have hx : x.rxNext = (s.port p).rxNext := hnext
  have hok : crcOk = true := beq_iff_eq.2 hcrc
  have hcorrect : failed = false := congrArg (!·) hwhole
  have hparsed : parsed = true := by
    by_cases hf : Ctl.ftype f.control = 0 ∧ Ctl.seq f.control = x.rxNext
    · simp only [parsed, hr, hstart hf.1 (hf.2.trans hx), beq_self_eq_true, Bool.or_true]
    · simp only [parsed, fresh, Bool.or_eq_true, Bool.not_eq_true', Bool.and_eq_false_imp, beq_iff_eq, beq_eq_false_iff_ne]
      exact .inl fun h0 h1 => hf ⟨h0, h1⟩
  have hs1 : s1 = s0 := by simp only [s1, hok, hparsed, Bool.true_or, Bool.and_self, if_true]
  have hgo : ¬ ((!crcOk || failed || decide (3 ≤ Ctl.ftype f.control) || !parsed) = true) := by
    simp [hok, hcorrect, hparsed, htype]
  simp only [hs1, if_neg hgo]
  refine ⟨fun h0 h1 => ?_, fun h1 => if_pos h1⟩
  have hfresh : fresh = true := by simp only [fresh, h0, h1, hx, beq_self_eq_true, Bool.and_self]
  rw [if_neg (by omega), if_neg (by omega), if_pos hfresh, hr]

/-- What the work on a flit of codewords `ws` has counted, and what stays. -/
theorem FecCounts.keeps {ws : List Word} (h : FecCounts p ws s t) (h1 : t.Tends p u) :
    ((s.port p).laneErrs.length + (ws.map fun w => w.err.length).sum ≤ 672000 →
      u.mem = s.mem ∧ u.queues = s.queues ∧ u.jobs = s.jobs) ∧
    (∀ k, k ≠ p → u.port k = s.port k) ∧ (u.port p).fecCe = (s.port p).fecCe + (wordsCorrected p ws).length ∧
      (u.port p).fecUe = (s.port p).fecUe + (wordsFailed p ws).length := by
  obtain ⟨errs, hport⟩ := h.port
  have hframe := h1.links
  have hmem : u.mem = t.mem := by rw [hframe]
  have hqueues : u.queues = t.queues := by rw [hframe]
  have hjobs : u.jobs = t.jobs := by rw [hframe]
  exact ⟨fun hq => hmem ▸ hqueues ▸ hjobs ▸ h.quiet hq, fun k hk => (h1.others k hk).trans (h.others k hk),
    h1.fecCe.trans (by rw [hport]; rfl), h1.fecUe.trans (by rw [hport]; rfl)⟩

/-! ### The replay buffer (R317) and the return of acknowledgements (R318) -/

/-- The flit that an output of the device is, where it goes out again on the port. -/
def resentOn? (p : Nat) : Sent → Option FlitImage
  | .flit q f true => if q = p then some f else none
  | _ => none

theorem resentOn?_sendFlit (s : State) (f : FlitImage) :
    (s.sendFlit p f true).out.filterMap (resentOn? p) = s.out.filterMap (resentOn? p) ++ [f] := by
  have hout : ∃ l, (s.sendFlit p f true).out = s.out ++ .flit p f true :: l ∧ l.filterMap (resentOn? p) = [] := by
    refine ⟨_, rfl, ?_⟩
    split <;> rfl
  obtain ⟨l, hl, hnone⟩ := hout
  rw [hl, List.filterMap_append, List.filterMap_cons, hnone]
  simp [resentOn?]

/-- A flit that goes out leaves the port but for the frame that it fills. -/
theorem port_sendFlit (hp : p < s.ports.length) (f : FlitImage) (resent : Bool) :
    ∃ frame, (s.sendFlit p f resent).port p = { s.port p with txFrame := frame } := by
  have h : (s.sendFlit p f resent).port p = _ := port_setPort _ hp
  exact ⟨_, h⟩

/-- Flits that go out again, one after the other. -/
theorem resent_foldl (hp : p < s.ports.length) (l : List FlitImage) :
    (∃ frame, (l.foldl (fun s f => s.sendFlit p f true) s).port p = { s.port p with txFrame := frame }) ∧
      (l.foldl (fun s f => s.sendFlit p f true) s).out.filterMap (resentOn? p) = s.out.filterMap (resentOn? p) ++ l := by
  induction l generalizing s with
  | nil => exact ⟨⟨_, rfl⟩, (List.append_nil _).symm⟩
  | cons f l ih =>
    obtain ⟨⟨frame, hport⟩, hout⟩ := ih (s := s.sendFlit p f true) ((List.length_set ..).symm ▸ hp)
    refine ⟨⟨frame, ?_⟩, ?_⟩
    · obtain ⟨_, hsent⟩ := port_sendFlit hp f true
      rw [List.foldl_cons, hport, hsent]
    · rw [List.foldl_cons, hout, resentOn?_sendFlit, List.append_assoc, List.singleton_append]

/-- The whole replay buffer goes out again with its bytes unchanged. -/
theorem resendAll_resends (hp : p < s.ports.length) :
    (∃ frame sent, (s.resendAll p).port p = { s.port p with sentAt := sent, txFrame := frame }) ∧
      (s.resendAll p).out.filterMap (resentOn? p) = s.out.filterMap (resentOn? p) ++ (s.port p).kept := by
  unfold resendAll
  extract_lets x
  have hport : (s.setPort p { x with sentAt := x.kept.map fun _ => s.now }).port p = _ := port_setPort _ hp
  obtain ⟨⟨frame, hf⟩, hout⟩ := resent_foldl
    (s := s.setPort p { x with sentAt := x.kept.map fun _ => s.now }) ((List.length_set ..).symm ▸ hp) x.kept
  rw [hport] at hf
  exact ⟨⟨frame, _, hf⟩, hout⟩

/-- A replay counts and resends. -/
theorem replay_resends (hp : p < s.ports.length) (hne : (s.port p).oldest ≠ (s.port p).txNext) (h8 : (s.port p).replays < 8) :
    (∃ frame sent n, (s.replay p).port p = { s.port p with
        retryCnt := (s.port p).retryCnt + 1, replays := (s.port p).replays + 1, replaysEver := n, sentAt := sent, txFrame := frame }) ∧
      (s.replay p).out.filterMap (resentOn? p) = s.out.filterMap (resentOn? p) ++ (s.port p).kept ∧
      s.Links (s.replay p) := by
  unfold replay
  extract_lets x s1
  have hcount : ¬ 8 < (s.port p).replays + 1 := by omega
  rw [if_neg hne, if_neg hcount]
  have h1 : s1.port p = _ := port_setPort _ hp
  have hlinks : s1.SentOn p (s1.resendAll p) := SentOn.refl.resendAll
  obtain ⟨⟨frame, sent, hport⟩, hout⟩ := resendAll_resends (s := s1) ((List.length_set ..).symm ▸ hp)
  rw [h1] at hport hout
  exact ⟨⟨frame, sent, _, hport⟩, hout, (show s.Links s1 from rfl).trans hlinks.links⟩

/-- What a port that returns its acknowledgement sends, and that the count of flits without one begins again. -/
theorem sendAck_sends (hp : p < s.ports.length) (hrx : (s.port p).rxNext < 4096) :
    (∃ (f : FlitImage) (more : List Sent), (s.sendAck p).out = s.out ++ .flit p f false :: more ∧
      (f.control >>> 37).toNat % 4096 = (s.port p).rxNext ∧ f.crc = crc32c (toLe 8 f.control.toNat ++ f.payload)) ∧
      ((s.sendAck p).port p).sinceAck = 0 := by
  have hsince (x : Port) (f : FlitImage) (hx : x.sinceAck = 0) : (((s.setPort p x).sendFlit p f false).port p).sinceAck = 0 := by
    have h1 : (s.setPort p x).port p = x := port_setPort x hp
    obtain ⟨_, hsent⟩ := port_sendFlit (s := s.setPort p x) ((List.length_set ..).symm ▸ hp) f false
    rw [hsent, h1, hx]
  unfold sendAck
  extract_lets x room
  split
  · exact ⟨⟨_, _, rfl, Ctl.ack_word hrx owedVc_lt (Nat.lt_succ_of_le (Nat.min_le_right ..)) (by decide), rfl⟩, hsince _ _ rfl⟩
  · exact ⟨⟨_, _, rfl, Ctl.ack_word hrx (by decide) (by decide) (by decide), rfl⟩, hsince _ _ rfl⟩

end State
end Sys2Proof.Machine
end

section
open Sys2Proof.Machine Sys2Proof.Machine.State

namespace Sys2Proof.Proofs

/-- Settles O29: a flit is refused, accepted or acknowledges by its checks (R316), with the FEC's counts and frame under all three;
the replay buffer goes out again flit by flit (R317), and an acknowledgement returns in the flit that is sent (R318). -/
theorem flitsAndReplay : Obligations.FlitsAndReplay := by
  unfold Obligations.FlitsAndReplay
  refine ⟨fun s p f hwf hup => ?_, fun s p hup => ?_⟩
  · have hp : p.val < s.ports.length := lt_of_port_state (hup.trans_ne nofun)
    intro x ws whole crcOk type seq ack r starts quiet kept
    have htype : Ctl.ftype f.control = type := Ctl.ftype_eq _
    have hseq : Ctl.seq f.control = seq := Ctl.seq_eq _
    have hack : Ctl.ack f.control = ack := Ctl.ack_eq _
    have hstart : Ctl.pstart f.control = (f.control >>> 11).toNat % 4096 := Ctl.pstart_eq _
    have hfec : FecCounts p ws s (s.countFec p ws) := fecCounts_countFec hp ws
    have hp1 : p.val < (s.countFec p ws).ports.length := hfec.length.symm ▸ hp
    have hrefuses : Refuses x p f ↔ ¬ crcOk ∨ whole = false ∨ 3 ≤ type ∨ (type = 0 ∧ seq = x.rxNext ∧ ¬ starts) := by
      rw [Refuses, htype, hseq, hstart]
    obtain ⟨errs, hport⟩ := hfec.port
    have hgood (hcrc : crcOk) (hwhole : whole = true) (h3 : type < 3) (hst : type = 0 → starts) : ¬ Refuses x p f := by
      rw [hrefuses]
      rintro (h | h | h | ⟨h0, -, h⟩)
      · exact h hcrc
      · exact absurd (hwhole.symm.trans h) (by decide)
      · omega
      · exact h (hst h0)
    refine ⟨s.judgeFlit p f, ?_, fun hbad => ?_, fun hcrc hwhole h0 hnext hst => ?_, fun hcrc hwhole h1 hlo hhi => ?_⟩
    · exact (if_neg (by rw [hwf]; decide)).trans (congrArg _ (if_pos hup))
    · obtain ⟨htends, hrx, hdisc, hout⟩ := judgeFlit_refused_frame hp (hrefuses.2 hbad)
      exact ⟨hrx, hdisc, hfec.keeps htends, hout⟩
    · rw [(judgeFlit_taken hp (hgood hcrc hwhole (by omega) fun _ => hst)).1 (htype.trans h0) (hseq.trans hnext)]
      obtain ⟨htends, hrx, hdisc⟩ := acceptFlit_frame hp1 f.control (Rx.flit x f.control f.payload)
      refine ⟨hrx.trans ?_, hdisc, hfec.keeps htends⟩
      rw [hport]
      rfl
    · rw [(judgeFlit_taken hp (hgood hcrc hwhole (by omega) fun h0 => by omega)).2 (htype.trans h1), hack]
      obtain ⟨hold, hrep⟩ := applyAck_ahead (a := ack) hp1 (by rw [hport]; exact hlo) (by rw [hport]; exact hhi)
      exact ⟨hold, hrep, hfec.keeps (applyAck_frame hp1 _).1⟩
  · have hp : p.val < s.ports.length := lt_of_port_state (hup.trans_ne nofun)
    intro x resent
    have hresent (u : State) : resent u = u.out.filterMap (resentOn? p) := by
      refine List.filterMap_congr fun o _ => ?_
      cases o with
      | flit q f b => cases b <;> rfl
      | _ => rfl
    refine ⟨fun hne hlate h8 => ?_, fun hearly => ?_, fun hrx _ => ?_⟩
    · obtain ⟨⟨frame, sent, n, hport⟩, hout, hlinks⟩ := replay_resends hp hne h8
      refine ⟨s.replay p, congrArg _ (if_pos ⟨hup, hne, hlate⟩), ?_, ?_, ?_, ?_, ?_, ?_, by rw [hlinks], by rw [hlinks]⟩
      iterate 5 rw [hport]
      rw [hresent, hresent, hout]
    · exact congrArg _ (if_neg fun ⟨_, hne, hlate⟩ => hearly.elim hne fun h => absurd hlate (Nat.not_lt.2 h))
    · obtain ⟨⟨f, more, hout, hack, hcrc⟩, hsince⟩ := sendAck_sends hp hrx
      have hsent : s.SentOn p (s.sendAck p) := SentOn.refl.sendAck
      exact ⟨s.sendAck p, f, more, congrArg _ (if_pos hup), hout, hack, hcrc, hsince, hsent.port.rxNext, hsent.mem, hsent.queues⟩

end Sys2Proof.Proofs
end

section
/-! A lane lost beyond five (R310, R319): the retrain's fault record goes to a device event queue, and where that queue lies in a granule
that a job shares with a generation, the write copies the granule (R296), so the job does not stay. -/

open Sys2Proof.Machine
namespace Sys2Proof.Proofs.RetrainWithSharedGranule

open ReleaseWithSharedGranule (ring job jobMoved touchGranule_job touchGranule_moved)

/-- P0 UP with five lanes without lock, and a sixth that was marked before. -/
def port : Port := { state := .up, lost := 0x1F, laneBad := 0x3F }

/-- A device with that port, the job, and the ring in the job's shared granule. -/
def state : State := { State.reset with rings := [ring], jobs := [job], ports := State.reset.ports.set 0 port }

/-- The port retrains, which is recorded as a masked fault of no job (R319). -/
theorem laneLost_eq : ∃ s f, state.laneLost 0 5 = State.recordFault s f ∧ f.job = none ∧ s.rings = [ring] ∧ s.jobs = [job] ∧
    s.poisoned = [] ∧ s.mem = [] := by
  have hgo : ¬ (Fec.lanesOf 0 ≤ 5 ∨ (state.port 0).lost.getLsbD 5 = true ∨ (!state.portActive 0) = true) := by decide
  have hsix : 5 < ((List.range 128).filter ((state.port 0).lost ||| 1 <<< 5).getLsbD).length := by decide
  unfold State.laneLost
  extract_lets x m s0 s1
  rw [if_neg hgo, if_neg (show x.state ≠ .training by decide), if_neg (by decide), if_pos hsix]
  have hmarked : s1 = s0 := if_pos (show x.laneBad.getLsbD 5 = true by decide)
  rw [hmarked]
  unfold State.retrain
  extract_lets y times s2
  rw [if_neg (show ¬ 2 < times.length by decide)]
  exact ⟨_, _, rfl, rfl, rfl, rfl, rfl, rfl⟩

/-- The record is written into the shared granule, which the live mapping then leaves. -/
theorem jobs_laneLost : (state.laneLost 0 5).jobs = [jobMoved] := by
  obtain ⟨s, f, ht, hf, hr, hj, hp, hm⟩ := laneLost_eq
  have h1 : State.granulesIn (ring.base + 0x40) 128 = [0] := rfl
  have h2 : State.granulesIn ring.base 8 = [0] := rfl
  rw [ht, State.jobs_recordFault_deviceRing hr rfl rfl hp hm (by decide) hf, h1, h2, hj]
  simp only [List.map_cons, List.map_nil, List.foldl_cons, List.foldl_nil, touchGranule_job, touchGranule_moved]

end Sys2Proof.Proofs.RetrainWithSharedGranule
end

section
open Sys2Proof.Machine
namespace Sys2Proof.Proofs

/-- Refutes O30: a sixth lane without lock retrains the port, and the retrain's fault record, written to a device event queue in a
granule that a job shares with a generation, changes the job. -/
theorem not_linksComeUpAndGo : ¬ Obligations.LinksComeUpAndGo := by
  rintro ⟨-, -, hlane⟩
  obtain ⟨-, -, hretrain, -⟩ := hlane RetrainWithSharedGranule.state 0 5 rfl
  obtain ⟨t, ht, -, -, -, -, hjobs, -⟩ := hretrain (by decide) rfl (by decide) rfl
  obtain rfl := Host.Outcome.next.inj ht
  have hmap : [ReleaseWithSharedGranule.jobMoved] = [ReleaseWithSharedGranule.job] :=
    RetrainWithSharedGranule.jobs_laneLost.symm.trans hjobs
  exact absurd (congrArg (List.map Job.map) hmap) (by decide)

end Sys2Proof.Proofs
end

section
/-! The fixed-window adder of a link (R367, R368). -/

namespace Sys2Proof.Machine.Carry

variable {c : Nat}

theorem fmt?_of_fixed (hc : c = 2 ∨ c = 3) : fmt? c = none := by
  obtain rfl | rfl := hc <;> rfl

theorem flags_lt (c v : Nat) : flags c v < 8 := by
  unfold flags
  split
  · exact Nat.mod_lt _ (by decide)
  · decide

/-- A marker is one, and holds its flags in its low bits (R368). -/
theorem isMarker_marker (hc : c = 2 ∨ c = 3) {n : Nat} (hn : n < 8) : isMarker c (marker c n) = true := by
  obtain rfl | rfl := hc
  · simp only [isMarker, marker, width, bitsAt, beq_iff_eq, Nat.shiftRight_eq_div_pow]
    norm_num
    omega
  · simp only [isMarker, marker, width, bitsAt, beq_iff_eq, Nat.shiftRight_eq_div_pow]
    norm_num
    omega

theorem flags_marker (hc : c = 2 ∨ c = 3) {n : Nat} (hn : n < 8) : flags c (marker c n) = n := by
  rw [flags, if_pos (isMarker_marker hc hn)]
  obtain rfl | rfl := hc
  · simp only [marker, width]
    norm_num
    omega
  · simp only [marker, width]
    norm_num
    omega

theorem add_of_marker (hc : c = 2 ∨ c = 3) {a b : Nat} (h : isMarker c a = true ∨ isMarker c b = true) :
    add c a b = (marker c (flags c a ||| flags c b), false) := by
  simp only [add, fmt?_of_fixed hc, Bool.or_eq_true, if_pos h]

theorem add_of_number (hc : c = 2 ∨ c = 3) {a b : Nat} (h : ¬ (isMarker c a = true ∨ isMarker c b = true)) :
    add c a b = (unsignedOf (width c) (signedOf (width c) a + signedOf (width c) b), false) := by
  simp only [add, fmt?_of_fixed hc, Bool.or_eq_true, if_neg h]

/-- The order of the summands does not matter (R367, R368). -/
theorem add_comm (hc : c = 2 ∨ c = 3) (a b : Nat) : add c a b = add c b a := by
  by_cases h : isMarker c a = true ∨ isMarker c b = true
  · rw [add_of_marker hc h, add_of_marker hc h.symm, Nat.or_comm]
  · rw [add_of_number hc h, add_of_number hc (mt Or.symm h), Int.add_comm]

/-- Two's complement adds as words do. -/
theorem unsignedOf_add_signedOf {n : Nat} (hn : 0 < n) (a b : BitVec n) :
    unsignedOf n (signedOf n a.toNat + signedOf n b.toNat) = (a + b).toNat := by
  have hint (x : BitVec n) : signedOf n x.toNat = x.toInt := by
    rw [← toInt_ofNat_eq_signedOf hn, BitVec.ofNat_toNat, BitVec.setWidth_eq]
  rw [hint, hint, unsignedOf, ← BitVec.toNat_ofInt, BitVec.ofInt_add, BitVec.ofInt_toInt, BitVec.ofInt_toInt]

end Sys2Proof.Machine.Carry
end

section
open Sys2Proof.Machine
namespace Sys2Proof.Proofs

/-- Settles O34: a marker on either side decides the sum by the flags of both, and two numbers add as words do. -/
theorem fixedWindowAdderIsExact : Obligations.FixedWindowAdderIsExact := by
  refine ⟨fun a b ha hb => ?_, fun c hc a b h => ?_, fun c hc => Carry.add_comm hc⟩
  · have hnone : ¬ (Carry.isMarker 2 a.toNat = true ∨ Carry.isMarker 2 b.toNat = true) := by simp [ha, hb]
    rw [Carry.add_of_number (.inl rfl) hnone]
    exact congrArg (·, false) (Carry.unsignedOf_add_signedOf (by decide) a b)
  · have hlt : Carry.flags c a ||| Carry.flags c b < 8 :=
      Nat.or_lt_two_pow (n := 3) (Carry.flags_lt c a) (Carry.flags_lt c b)
    rw [Carry.add_of_marker hc h]
    exact ⟨Carry.isMarker_marker hc hlt, Carry.flags_marker hc hlt⟩

end Sys2Proof.Proofs
end

section
/-! Chains that end, and records written one after another (R359). -/

namespace Sys2Proof.Machine.State

variable {s t : State}

/-! ### Chains that end -/

variable {f : Chain → Bool} {st : Status} {c : Chain} {q : CmdQueue}

theorem chain?_mem {id : Nat} (h : s.chain? id = some c) : c ∈ s.chains ∧ c.id = id :=
  ⟨List.mem_of_find?_eq_some h, by simpa using List.find?_some h⟩

theorem mem_chains_endChains : c ∈ (s.endChains f st).chains ↔ c ∈ s.chains ∧ f c = false := by
  simp [endChains]

theorem chainEnds_endChains (hc : c ∈ s.chains) (hf : f c = true) : (c.id, st) ∈ (s.endChains f st).chainEnds :=
  List.mem_append_right _ (List.mem_map_of_mem (List.mem_map_of_mem (List.mem_filter.2 ⟨hc, hf⟩)))

/-- No queue is armed by a chain that has ended. -/
theorem not_armed_endChains (hc : c ∈ s.chains) (hf : f c = true) (hq : q ∈ (s.endChains f st).queues) : c.id ∉ q.armed := by
  obtain ⟨q0, -, rfl⟩ := List.mem_map.1 hq
  have hgone : c.id ∈ (s.chains.filter f).map Chain.id := List.mem_map_of_mem (List.mem_filter.2 ⟨hc, hf⟩)
  simp [List.mem_filter, hgone]

/-- A queue that no ended chain has armed stays as it is. -/
theorem mem_queues_endChains (hq : q ∈ s.queues) (h : ∀ c ∈ s.chains, f c = true → c.id ∉ q.armed) :
    q ∈ (s.endChains f st).queues := by
  refine List.mem_map.2 ⟨q, hq, ?_⟩
  have harmed : (q.armed.filter fun a => !((s.chains.filter f).map Chain.id).contains a) = q.armed := by
    refine List.filter_eq_self.2 fun a ha => ?_
    have hnot : a ∉ (s.chains.filter f).map Chain.id := fun hmem => by
      obtain ⟨c, hc, rfl⟩ := List.mem_map.1 hmem
      obtain ⟨hc, hf⟩ := List.mem_filter.1 hc
      exact h c hc hf ha
    simpa using hnot
  rw [harmed]

theorem chain?_endChains_self (id : Nat) : (s.endChains (fun x => x.id == id) st).chain? id = none :=
  List.find?_eq_none.2 fun c hc hid => by
    have hne := (mem_chains_endChains.1 hc).2
    rw [hid] at hne
    cases hne

/-! ### Records one after another -/

theorem memOk_storeAll (h : s.memOk) (ws : List (Nat × List Byte)) : (s.storeAll ws).memOk :=
  List.foldlRecOn (motive := State.memOk) _ _ h fun t ht _ _ => memOk_store t ht _ _

theorem Reports.storeAll (s : State) (ws : List (Nat × List Byte)) : s.Reports (s.storeAll ws) := foldl (fun _ _ => store ..) ..

/-- What is the same byte for byte reads the same. -/
theorem bytes_congr {a n : Nat} (h : ∀ b, a ≤ b → b < a + n → t.byte b = s.byte b) : t.bytes a n = s.bytes a n :=
  Memory.getBytes_congr h

variable {α : Type} {rec : α → List Byte}

/-- The writes of 64-byte records from place `k` of a table on. -/
def recordsAt (rec : α → List Byte) (a k : Nat) (l : List α) : List (Nat × List Byte) :=
  (l.zipIdx k).map fun x => (a + 64 * x.2, rec x.1)

theorem recordsAt_cons (a k : Nat) (x : α) (l : List α) :
    recordsAt rec a k (x :: l) = (a + 64 * k, rec x) :: recordsAt rec a (k + 1) l := rfl

/-- Records leave every byte outside their table. -/
theorem byte_storeAll_records (hrec : ∀ x, (rec x).length = 64) (h : s.memOk) {a k : Nat} {l : List α} {b : Nat}
    (hb : b < a + 64 * k ∨ a + 64 * (k + l.length) ≤ b) : (s.storeAll (recordsAt rec a k l)).byte b = s.byte b := by
  induction l generalizing s k with
  | nil => rfl
  | cons x l ih =>
    rw [List.length_cons] at hb
    have hrest := ih (s := s.store (a + 64 * k) (rec x)) (k := k + 1) (memOk_store s h ..) (by omega)
    exact hrest.trans (byte_store_out s h _ _ (by rw [hrec]; omega))

/-- Each record of a table reads back. -/
theorem bytes_storeAll_records (hrec : ∀ x, (rec x).length = 64) (h : s.memOk) {a k : Nat} {l : List α} {i : Nat} {x : α}
    (hx : l[i]? = some x) : (s.storeAll (recordsAt rec a k l)).bytes (a + 64 * (k + i)) 64 = rec x := by
  induction l generalizing s k i with
  | nil => cases hx
  | cons y l ih =>
    have hok := memOk_store s h (a + 64 * k) (rec y)
    cases i with
    | zero =>
      obtain rfl : y = x := Option.some.inj hx
      have hself := bytes_store s h (a + 64 * k) (rec y)
      rw [hrec] at hself
      refine (bytes_congr fun b h1 h2 => ?_).trans hself
      exact byte_storeAll_records hrec hok (by omega)
    | succ i =>
      have hrest := ih hok (k := k + 1) hx
      rwa [show k + 1 + i = k + (i + 1) by omega] at hrest

/-! ### The completion word -/

theorem read64_congr {a : Nat} (h : ∀ b, a ≤ b → b < a + 8 → t.byte b = s.byte b) : t.read64 a = s.read64 a :=
  congrArg (fun bs => BitVec.ofNat 64 (leNat bs)) (bytes_congr h)

theorem byte_addWord (h : s.memOk) {a : Nat} {v : W64} {b : Nat} (hb : b < a ∨ a + 8 ≤ b) : (Sync.addWord s a v).byte b = s.byte b :=
  byte_store_out s h a _ (by rwa [toLe_length])

theorem read64_addWord (h : s.memOk) (a : Nat) (v : W64) : (Sync.addWord s a v).read64 a = s.read64 a + v := read64_store64 s h a _

end Sys2Proof.Machine.State
end

section
/-! The completion of a chain (R359). -/

namespace Sys2Proof.Machine.State

variable {s : State} {cid : Nat} {c : Chain} {g : Group} {j : Job}

theorem length_statusRecord (c : Chain) (g : Group) (j : Job) (x : Bucket) : (statusRecord c g j x).length = 64 := by
  simp [statusRecord]

/-- The state after the status records of a chain. -/
def withRecords (s : State) (c : Chain) (g : Group) (j : Job) : State :=
  s.storeAll (recordsAt (statusRecord c g j) c.statusBase 0 c.buckets)

/-- The same with the completion word raised. -/
def withWord (s : State) (c : Chain) (g : Group) (j : Job) : State :=
  if c.word = 0 then s.withRecords c g j else Sync.addWord (s.withRecords c g j) c.word 1

theorem completeChain_eq (hc : s.chain? cid = some c) (hg : s.group? c.group = some g) (hj : s.job? c.job = some j)
    (hr : s.runsJob j = true) (hdone : ∀ x ∈ c.buckets, x.stage = .done) (hidle : ∀ x ∈ s.judges, x.pending = [])
    (hp : s.poisoned = []) : s.completeChain cid = (s.withWord c g j).endChains (fun x => x.id == cid) .ok := by
  have hall : (c.buckets.all fun x => x.stage == .done) = true := List.all_eq_true.2 fun x hx => by rw [hdone x hx]; rfl
  have hjudged : (s.judges.all fun x => x.pending.all fun p => !(p.packet.job.toNat == c.job && p.packet.group.toNat == c.group &&
      c.buckets.any fun b => b.seq == p.packet.bucket.toNat)) = true :=
    List.all_eq_true.2 fun x hx => by rw [hidle x hx]; rfl
  simp only [completeChain, hc, hg, hj, hr, hall, hjudged, hp, List.find?_nil, Bool.not_true, Bool.or_false, Bool.false_eq_true,
    if_false]
  rfl

theorem Reports.withWord (s : State) (c : Chain) (g : Group) (j : Job) : s.Reports (s.withWord c g j) := by
  unfold State.withWord
  exact ite (storeAll ..) ((storeAll ..).trans (store ..))

variable {b : Nat}

theorem memOk_withRecords (h : s.memOk) : (s.withRecords c g j).memOk := memOk_storeAll h _

theorem byte_withRecords (h : s.memOk) (hb : b < c.statusBase ∨ c.statusBase + 64 * c.buckets.length ≤ b) :
    (s.withRecords c g j).byte b = s.byte b :=
  byte_storeAll_records (length_statusRecord c g j) h (by omega)

theorem byte_withWord (h : s.memOk) (hb : c.word = 0 ∨ b < c.word ∨ c.word + 8 ≤ b) :
    (s.withWord c g j).byte b = (s.withRecords c g j).byte b := by
  unfold withWord
  split
  · rfl
  next hw => exact byte_addWord (memOk_withRecords h) (hb.resolve_left hw)

/-- The completion word lies outside the status array. -/
def wordApart (c : Chain) : Prop := c.word = 0 ∨ c.word + 8 ≤ c.statusBase ∨ c.statusBase + 64 * c.buckets.length ≤ c.word

theorem bytes_withWord (h : s.memOk) (hw : wordApart c) {i : Nat} {x : Bucket} (hx : c.buckets[i]? = some x) :
    (s.withWord c g j).bytes (c.statusBase + 64 * i) 64 = statusRecord c g j x := by
  have hi : i < c.buckets.length := (List.getElem?_eq_some_iff.1 hx).1
  have hrec := bytes_storeAll_records (length_statusRecord c g j) h (a := c.statusBase) (k := 0) hx
  rw [Nat.zero_add] at hrec
  refine (bytes_congr fun b h1 h2 => byte_withWord h ?_).trans hrec
  unfold wordApart at hw
  omega

theorem read64_withWord (h : s.memOk) (hw : wordApart c) (h0 : c.word ≠ 0) :
    (s.withWord c g j).read64 c.word = s.read64 c.word + 1 := by
  rw [withWord, if_neg h0, read64_addWord (memOk_withRecords h)]
  refine congrArg (· + 1) (read64_congr fun b h1 h2 => byte_withRecords h ?_)
  unfold wordApart at hw
  omega

end Sys2Proof.Machine.State
end

section
/-! The start of a chain's entries, by their types (R358). -/

namespace Sys2Proof.Machine.State

variable {s : State} {c b : Nat} {x : Spot}

theorem startEntry_of_mayNot (hx : s.spot? c b = some x) (h : s.mayStart x = false) : s.startEntry c b = s := by
  simp only [startEntry, hx, h, Bool.not_false, if_true]

theorem isSome_fmt? {carry : Nat} : (Carry.fmt? carry).isSome = decide (carry ≤ 1) := by
  match carry with
  | 0 => rfl
  | 1 => rfl
  | n + 2 => simp [Carry.fmt?]

/-- A reduction starts at once in a float carry, and with its AGREE in a fixed window (R358). -/
theorem startEntry_reduce (hx : s.spot? c b = some x) (h : s.mayStart x = true) {carry : Nat} {clear : Bool} {src dst : Nat}
    (he : x.entry? = some (.reduceScatter carry clear src dst) ∨ x.entry? = some (.allReduce carry clear src dst)) :
    s.startEntry c b = if carry ≤ 1 then s.startReduce c b else s.startAgree x src := by
  obtain he | he := he <;>
    simp only [startEntry, hx, h, he, isSome_fmt?, Bool.not_true, Bool.false_eq_true, if_false, decide_eq_true_eq]

/-- Any other entry is begun by its type (R358). -/
theorem startEntry_other (hx : s.spot? c b = some x) (h : s.mayStart x = true) :
    (∀ src dst, x.entry? = some (.allGather src dst) → (s.convertPieces x src dst).chain? c ≠ none →
      s.startEntry c b = (s.convertPieces x src dst).startGather c b dst) ∧
    (∀ pr sts pa, x.entry? = some (.update pr sts pa) →
      let s1 := s.modBucket c b fun y => { y with stage := .update }
      s.startEntry c b = if updateDone x then s1.entryDone c b else s1) ∧
    (∀ snd rcv, x.entry? = some (.halo snd rcv) → s.startEntry c b = s.startHalo x snd rcv) ∧
    (∀ src dst root, x.entry? = some (.bcast src dst root) → s.startEntry c b = s.startBcast x src dst root) ∧
    (∀ src dst, x.entry? = some (.allToAll src dst) → s.startEntry c b = s.startA2a x src dst) := by
  refine ⟨fun src dst he hc => ?_, fun pr sts pa he => ?_, fun snd rcv he => ?_, fun src dst root he => ?_, fun src dst he => ?_⟩
  · simp only [startEntry, hx, h, he, Option.isNone_iff_eq_none, if_neg hc, Bool.not_true, Bool.false_eq_true, if_false]
  all_goals simp only [startEntry, hx, h, he, Bool.not_true, Bool.false_eq_true, if_false]

end Sys2Proof.Machine.State
end

section
open Sys2Proof.Machine Sys2Proof.Machine.State
namespace Sys2Proof.Proofs

/-- Settles O35: an entry that may start is begun by its type; a complete chain writes its records and its word, and ends. -/
theorem chainEntriesAndCompletion : Obligations.ChainEntriesAndCompletion := by
  refine ⟨fun s c b x hx => ⟨fun hno => ?_, fun hmay => ?_⟩, fun s cid c g j hc hg hj hr hdone hidle hp hm hw => ?_⟩
  · exact congrArg (fun t : State => Host.Outcome.next t.settle) (startEntry_of_mayNot hx hno)
  · have hexec {t : State} (h : s.startEntry c b = t) : exec (.chainEntryStart c b) s = .next t.settle :=
      congrArg (fun t : State => Host.Outcome.next t.settle) h
    obtain ⟨hgather, hupdate, hhalo, hbcast, ha2a⟩ := startEntry_other hx hmay
    refine ⟨fun carry clear src dst he => ?_, fun src dst he hch => hexec (hgather src dst he hch),
      fun pr sts pa he => hexec (hupdate pr sts pa he), fun snd rcv he => hexec (hhalo snd rcv he),
      fun src dst root he => hexec (hbcast src dst root he), fun src dst he => hexec (ha2a src dst he)⟩
    have hred := startEntry_reduce hx hmay he
    exact ⟨fun hle => hexec (hred.trans (if_pos hle)), fun hge => hexec (hred.trans (if_neg (by omega)))⟩
  · have hframe := (Reports.withWord s c g j).frame
    obtain ⟨hmem, rfl⟩ := chain?_mem hc
    have hchains : c ∈ (s.withWord c g j).chains := by rw [hframe]; exact hmem
    refine ⟨_, congrArg Host.Outcome.next (completeChain_eq hc hg hj hr hdone hidle hp), chain?_endChains_self c.id, ?_, ?_,
      fun i x hx => bytes_withWord hm hw hx, read64_withWord hm hw, fun a ha1 ha2 => ?_, ?_, ?_⟩
    · exact chainEnds_endChains hchains (beq_self_eq_true c.id)
    · exact fun q hq => not_armed_endChains hchains (beq_self_eq_true c.id) hq
    · exact (byte_withWord hm ha2).trans (byte_withRecords hm ha1)
    · exact (congrArg State.rings hframe :)
    · exact (congrArg State.groups hframe :)

end Sys2Proof.Proofs
end

section
/-! What a detected fault leaves unchanged, in three relations, each wider than the one before: what is written and sent (R397, R484),
what is noted of jobs (R405, R411), and what a halt ends (R406). -/

namespace Sys2Proof.Machine

/-- A job but for its live mapping. -/
def Job.unmapped (j : Job) : Job := { j with map := [] }

/-- A Judge but for its comparisons in progress. -/
def Judge.idle (x : Judge) : Judge := { x with pending := [] }

/-- A job without its uncommitted training step. -/
def Job.stopped (x : Job) : Job :=
  { x with
    watch := {}, digest := 0, ownDigests := [], twinDigests := [], ckptRequested := false, updateArmed := false, skipping := false
    faultStep := false }

namespace State

variable {s t u : State}

/-! ### Records, events and notices -/

/-- `t` differs from `s` at most in what postings, records and sendings write, in what is noted of jobs, in the device's state and in
the board's inputs; no reservation is new. -/
structure Notes (s t : State) : Prop where
  frame : t = { s with
    mem := t.mem, free := t.free, jobs := t.jobs, edern := t.edern, poisoned := t.poisoned, caches := t.caches
    reservations := t.reservations, events := t.events, backlog := t.backlog, backlogLost := t.backlogLost
    console := t.console, faultLog := t.faultLog, faultsEver := t.faultsEver, faultCnt := t.faultCnt, inputs := t.inputs
    dev := t.dev, ports := t.ports, out := t.out }
  reservations : ∀ r ∈ t.reservations, r ∈ s.reservations

/-- The same, and the jobs are those of `s` but for their live mappings. -/
structure Tells (s t : State) : Prop extends Notes s t where
  jobs : t.jobs.map Job.unmapped = s.jobs.map Job.unmapped

namespace Tells

theorem refl : s.Tells s := ⟨⟨rfl, fun _ => id⟩, rfl⟩

theorem trans (h : s.Tells t) (h1 : t.Tells u) : s.Tells u :=
  ⟨⟨by rw [h1.frame, h.frame], fun r hr => h.reservations r (h1.reservations r hr)⟩, h1.jobs.trans h.jobs⟩

theorem ite {c : Prop} [Decidable c] (h : s.Tells t) (h1 : s.Tells u) : s.Tells (if c then t else u) := by
  split
  · exact h
  · exact h1

theorem foldl {α : Type} {f : State → α → State} (hf : ∀ s x, State.Tells s (f s x)) (l : List α) (s : State) :
    s.Tells (l.foldl f s) :=
  List.foldlRecOn (motive := s.Tells) _ _ refl fun t ht x _ => ht.trans (hf t x)

theorem of_links (h : s.Links t) : s.Tells t := by
  unfold Links at h
  rw [h]
  exact ⟨⟨rfl, fun _ => id⟩, rfl⟩

/-- Copying granules changes the mapping of a job alone (R296). -/
theorem unmapped_touchGranules (gs : List Nat) (j : Job) : (gs.foldl touchGranule j).unmapped = j.unmapped :=
  List.foldlRecOn (motive := fun x : Job => x.unmapped = j.unmapped) _ _ rfl fun x hx g _ => by
    obtain ⟨m, hm⟩ := touchGranule_eq x g
    rw [hm]
    exact hx

theorem store (s : State) (a : Nat) (bs : List Byte) : s.Tells (s.store a bs) where
  frame := rfl
  reservations _ hr := List.mem_of_mem_filter hr
  jobs := (List.map_map ..).trans (List.map_congr_left fun j _ => unmapped_touchGranules _ j)

theorem storeAll (s : State) (ws : List (Nat × List Byte)) : s.Tells (s.storeAll ws) := foldl (fun _ _ => store ..) ..

theorem ringPut (s : State) (r : RingQ) (rec : List Byte) : s.Tells (s.ringPut r rec) := (store ..).trans (store ..)

theorem ringWrite (rec : List Byte) (s : State) (r : RingQ) : s.Tells (State.ringWrite rec s r) := (store ..).ite (ringPut ..)

theorem toBacklog (s : State) (rec : List Byte) : s.Tells (s.toBacklog rec) :=
  ite (t := { s with backlog := s.backlog ++ [rec] }) ⟨⟨rfl, fun _ => id⟩, rfl⟩ ⟨⟨rfl, fun _ => id⟩, rfl⟩

theorem noteEvent (s : State) (rec : List Byte) : s.Tells (s.noteEvent rec) := ⟨⟨rfl, fun _ => id⟩, rfl⟩

theorem logFault (s : State) (rec : List Byte) : s.Tells (s.logFault rec) := ⟨⟨rfl, fun _ => id⟩, rfl⟩

theorem countUe (s : State) (st addr : Nat) : s.Tells (s.countUe st addr) := ⟨⟨rfl, fun _ => id⟩, rfl⟩

theorem strike (s : State) (l : Nat) : s.Tells (s.strike l) := by
  unfold State.strike
  extract_lets f rec_ s1 ev s2
  have h2 : s.Tells s2 := (countUe ..).trans ((logFault ..).trans (noteEvent ..))
  exact (h2.trans (toBacklog ..)).ite (h2.trans (foldl (ringWrite ev) ..))

theorem ringEvent (rec : List Byte) (s : State) (r : RingQ) : s.Tells (State.ringEvent rec s r) := by
  unfold State.ringEvent
  split
  · exact strike ..
  · exact ringWrite ..

theorem postRecord (s : State) (rings : List Nat) (device : Bool) (rec : List Byte) : s.Tells (s.postRecord rings device rec) := by
  have hrings : s.Tells ((((s.noteEvent rec).rings.filter fun r => r.kind == .event && rings.contains r.id)).foldl
      (State.ringEvent rec) (s.noteEvent rec)) := (noteEvent s rec).trans (foldl (ringEvent rec) _ _)
  exact ite (hrings.trans ((toBacklog ..).ite (foldl (ringEvent rec) _ _))) hrings

theorem recordFault (s : State) (f : FaultInfo) : s.Tells (s.recordFault f) := by
  unfold State.recordFault
  exact (logFault ..).trans (postRecord ..)

theorem setDrive (s : State) (on : Bool) : s.Tells (s.setDrive on) := by
  have hedge (s : State) (i : Nat) : s.Tells (s.noteEdge i) := by
    unfold State.noteEdge
    extract_lets w c n _ s1
    have h1 : s.Tells s1 := ⟨⟨rfl, fun _ => id⟩, rfl⟩
    exact (h1.trans (postRecord ..)).ite h1
  unfold State.setDrive
  extract_lets _ s1
  have h1 : s.Tells s1 := ⟨⟨rfl, fun _ => id⟩, rfl⟩
  exact refl.ite ((h1.trans (hedge ..)).ite h1)

theorem raiseAlert (s : State) (b : Nat) : s.Tells (s.raiseAlert b) :=
  trans (t := { s with inputs := { s.inputs with alertStatus := s.inputs.alertStatus ||| (1 <<< b) } })
    ⟨⟨rfl, fun _ => id⟩, rfl⟩ (setDrive ..)

theorem postDevice (s : State) (e : Ev) (payload : List Byte) : s.Tells (s.postDevice e payload) := by
  unfold State.postDevice
  split
  · exact (postRecord ..).trans (raiseAlert ..)
  · exact postRecord ..

theorem emptyStash (commit : Bool) (s : State) (q : CmdQueue) : s.Tells (State.emptyStash commit s q) := by
  unfold State.emptyStash
  refine refl.ite ?_
  split
  · exact strike ..
  · exact storeAll ..

theorem tellCores (s : State) (id tag step : Nat) : s.Tells (s.tellCores id tag step) := by
  refine foldl (fun s r => refl.ite ?_) _ _
  split
  · exact strike ..
  · exact ringPut ..

theorem floodSerial (s : State) (job : Nat) : s.Tells (s.floodSerial job) := by
  unfold State.floodSerial
  split
  · exact of_links (.notify ..)
  · exact refl

/-- A job that is there is found with its live mapping alone changed. -/
theorem job? (h : s.Tells t) {id : Nat} {j : Job} (hj : s.job? id = some j) :
    ∃ j1, t.job? id = some j1 ∧ j1.unmapped = j.unmapped := by
  have hfind (s : State) : (s.jobs.map Job.unmapped).find? (fun x => x.id == id) = (s.job? id).map Job.unmapped :=
    find?_map_job (f := Job.unmapped) (fun _ => rfl) _ _
  have heq := hfind t
  rw [h.jobs, hfind, hj] at heq
  exact Option.map_eq_some_iff.1 heq.symm

theorem jobs_nil (h : s.Tells t) (hj : s.jobs = []) : t.jobs = [] := by
  have hmap := h.jobs
  rw [hj] at hmap
  exact List.map_eq_nil_iff.1 hmap

end Tells

namespace Notes

theorem refl : s.Notes s := Tells.refl.toNotes

theorem trans (h : s.Notes t) (h1 : t.Notes u) : s.Notes u :=
  ⟨by rw [h1.frame, h.frame], fun r hr => h.reservations r (h1.reservations r hr)⟩

theorem modJob (s : State) (id : Nat) (f : Job → Job) : s.Notes (s.modJob id f) := ⟨rfl, fun _ h => h⟩

theorem originate (s : State) (job : Nat) (n : Notice) (number value : Nat) (more : List Byte) :
    s.Notes (s.originate job n number value more) := (modJob ..).trans (Tells.of_links (.notify ..)).toNotes

theorem dropLeftOut (s : State) (job : Nat) : s.Notes (s.dropLeftOut job) := by
  unfold State.dropLeftOut
  split
  · split
    · exact (modJob ..).trans (Tells.floodSerial ..).toNotes
    · exact refl
  · exact refl

theorem noteRecord (s : State) (job : Nat) (origin : W64) (rec_ : List Byte) : s.Notes (s.noteRecord job origin rec_) :=
  (modJob ..).trans (dropLeftOut ..)

end Notes

/-! ### Halts -/

/-- `t` differs from `s` at most as `Notes` says and in what a halt ends: queues, chains, comparisons in progress and the count of
restarts. No chain is new, and the Judges' counts stay. -/
structure Handles (s t : State) : Prop where
  frame : t = { s with
    mem := t.mem, free := t.free, jobs := t.jobs, edern := t.edern, poisoned := t.poisoned, caches := t.caches
    reservations := t.reservations, events := t.events, backlog := t.backlog, backlogLost := t.backlogLost
    console := t.console, faultLog := t.faultLog, faultsEver := t.faultsEver, faultCnt := t.faultCnt, inputs := t.inputs
    dev := t.dev, ports := t.ports, out := t.out, queues := t.queues, chains := t.chains, chainEnds := t.chainEnds
    judges := t.judges, restarts := t.restarts }
  reservations : ∀ r ∈ t.reservations, r ∈ s.reservations
  chains : ∀ c ∈ t.chains, c ∈ s.chains
  judges : t.judges.map Judge.idle = s.judges.map Judge.idle

namespace Handles

theorem refl : s.Handles s := ⟨rfl, fun _ => id, fun _ => id, rfl⟩

theorem trans (h : s.Handles t) (h1 : t.Handles u) : s.Handles u :=
  ⟨by rw [h1.frame, h.frame], fun r hr => h.reservations r (h1.reservations r hr), fun c hc => h.chains c (h1.chains c hc),
    h1.judges.trans h.judges⟩

theorem ite {c : Prop} [Decidable c] (h : s.Handles t) (h1 : s.Handles u) : s.Handles (if c then t else u) := by
  split
  · exact h
  · exact h1

theorem foldl {α : Type} {f : State → α → State} (hf : ∀ s x, State.Handles s (f s x)) (l : List α) (s : State) :
    s.Handles (l.foldl f s) :=
  List.foldlRecOn (motive := s.Handles) _ _ refl fun t ht x _ => ht.trans (hf t x)

theorem of_notes (h : s.Notes t) : s.Handles t :=
  ⟨by rw [h.frame], h.reservations, fun c hc => by rw [h.frame] at hc; exact hc, by rw [h.frame]⟩

theorem of_tells (h : s.Tells t) : s.Handles t := of_notes h.toNotes

theorem endChains (s : State) (f : Chain → Bool) (st : Status) : s.Handles (s.endChains f st) :=
  ⟨rfl, fun _ => id, fun _ hc => List.mem_of_mem_filter hc, rfl⟩

end Handles

/-- What a halt drops: the job's comparisons in progress, and its queues' running commands (R406). -/
def dropWork (s : State) (id : Nat) : State :=
  { s with
    judges := s.judges.map fun (x : Judge) => { x with pending := x.pending.filter fun c => c.packet.job.toNat != id }
    queues := s.queues.map fun (q : CmdQueue) => if q.job == id then freezeQueue q else q }

/-- The state after the stashes of a job's queues have been emptied. -/
def stashless (s : State) (id : Nat) : State := (s.queues.filter fun q : CmdQueue => q.job == id).foldl (State.emptyStash false) s

theorem stopJob_eq (s : State) (id : Nat) :
    s.stopJob id = ((((s.stashless id).endChains (fun c => c.job == id) .fault).dropWork id).modJob id Job.stopped) := rfl

theorem Tells.stashless (s : State) (id : Nat) : s.Tells (s.stashless id) := foldl (emptyStash false) ..

namespace Handles

theorem dropWork (s : State) (id : Nat) : s.Handles (s.dropWork id) :=
  ⟨rfl, fun _ h => h, fun _ h => h, List.map_map ..⟩

theorem modJob (s : State) (id : Nat) (f : Job → Job) : s.Handles (s.modJob id f) := of_notes (.modJob ..)

theorem stopJob (s : State) (id : Nat) : s.Handles (s.stopJob id) := by
  rw [stopJob_eq]
  exact (of_tells (.stashless ..)).trans ((endChains ..).trans ((dropWork ..).trans (modJob ..)))

theorem haltJob (s : State) (id number : Nat) : s.Handles (s.haltJob id number) := by
  unfold State.haltJob
  split
  · exact refl
  next j hj =>
    have hcount : (s.stopJob id).Handles { s.stopJob id with restarts := (s.stopJob id).restarts + 1 } :=
      ⟨rfl, fun _ h => h, fun _ h => h, rfl⟩
    exact (stopJob ..).trans (hcount.trans ((modJob ..).trans (of_tells
      ((Tells.tellCores ..).trans ((Tells.floodSerial ..).trans (Tells.postRecord ..))))))

theorem faultJob (s : State) (id number : Nat) : s.Handles (s.faultJob id number) := by
  unfold State.faultJob
  split
  · exact refl
  · split
    · exact haltJob ..
    · exact (haltJob ..).ite refl
    · exact refl

theorem faultNotify (rec_ : List Byte) (number : Nat) (s : State) (j : Nat) : s.Handles (State.faultNotify rec_ number s j) :=
  (of_notes ((Notes.originate ..).trans (Notes.noteRecord ..))).trans (faultJob ..)

end Handles

/-! ### Detections -/

/-- The stack that a fault concerns has counted it (R272, R277). -/
def counted (s : State) (f : FaultInfo) : State :=
  if f.cls = 3 ∧ (f.mech = Mech.poisonRead.code ∨ f.mech = Mech.eccUe.code) then s.countUe f.index f.addr else s

theorem Tells.counted (s : State) (f : FaultInfo) : s.Tells (s.counted f) := (countUe ..).ite refl

theorem counted_of_cls {f : FaultInfo} (h : f.cls ≠ 3) : s.counted f = s := if_neg fun hc => h hc.1

/-- A fault that is laid to no unit: its record, then what it means for the job that it affects (R397, R406). -/
theorem detect_affected (s : State) (f : FaultInfo) :
    let f1 := { f with outcome := if f.job.isSome then .restarts else .noJob }
    let s1 := (s.counted f).recordFault f1
    s.detect false f = f.job.toList.foldl (faultNotify (s.faultRecord f1) s1.faultsEver) s1 := by
  simp only [detect, Bool.false_eq_true, if_false, Bool.false_and, Option.map_none, Option.getD_none, Option.isSome_none]
  rfl

theorem Handles.detect (s : State) (f : FaultInfo) : s.Handles (s.detect false f) := by
  rw [detect_affected]
  exact (of_tells ((Tells.counted ..).trans (Tells.recordFault ..))).trans (foldl (faultNotify _ _) ..)

end State
end Sys2Proof.Machine
end

section
/-! The comparisons of a Judge, and waits beyond a group's budget (R381 to R385). -/

namespace Sys2Proof.Machine.State

variable {s t : State} {j : Nat} {x : Judge}

/-! ### Judges -/

theorem judges_getD (hx : s.judges[j]? = some x) : s.judges.getD j {} = x := by rw [List.getD_eq_getElem?_getD, hx]; rfl

theorem sampleJudge_of_not {p : Nat} {k : Packet} {w : JudgeWork} {o : List Byte} (hx : s.judges[judgeOf p]? = some x)
    (h : judgeSamples x.rate k = false) : s.sampleJudge p k w o = s := by
  unfold sampleJudge
  rw [judges_getD hx, h]
  rfl

theorem judges_sampleJudge {p : Nat} {k : Packet} {w : JudgeWork} {o : List Byte} (hx : s.judges[judgeOf p]? = some x)
    (h : judgeSamples x.rate k = true) : (s.sampleJudge p k w o).judges[judgeOf p]? =
      some { x with pending := x.pending ++ [{ port := p, packet := k, work := w, output := o }] } := by
  unfold sampleJudge
  rw [judges_getD hx, if_pos h]
  rw [List.getElem?_modify_eq, hx]
  rfl

theorem judgeCompare_none {seen : Option (List Byte)} (hx : s.judges[j]? = some x) (h : x.pending = []) :
    s.judgeCompare j seen = s := by
  rw [judgeCompare, judges_getD hx, h]

theorem judgeCompare_oldest {seen : Option (List Byte)} {c : JudgeCopy} {r : List JudgeCopy} (hx : s.judges[j]? = some x)
    (h : x.pending = c :: r) : s.judgeCompare j seen = s.judged j c (s.judgeForms c == seen.getD c.output) := by
  rw [judgeCompare, judges_getD hx, h]

/-- A comparison that agrees is counted, and that is all (R382). -/
theorem judged_same {c : JudgeCopy} {r : List JudgeCopy} (hx : s.judges[j]? = some x) (h : x.pending = c :: r) :
    let t := s.judged j c true
    t = { s with judges := t.judges } ∧ t.judges[j]? = some { x with pending := r, sampled := x.sampled + 1 } := by
  refine ⟨rfl, ?_⟩
  rw [show (s.judged j c true).judges = s.judges.modify j _ from rfl, List.getElem?_modify_eq, hx]
  simp only [Option.map_eq_map, Option.map_some, h, List.erase_cons_head, if_true]

/-- What a fault leaves of a Judge's counts. -/
theorem Handles.judge (h : s.Handles t) (hx : s.judges[j]? = some x) :
    ∃ y, t.judges[j]? = some y ∧ y.sampled = x.sampled ∧ y.mismatch = x.mismatch := by
  have hmap : (t.judges[j]?).map Judge.idle = some x.idle := by
    rw [← List.getElem?_map, h.judges, List.getElem?_map, hx, Option.map_some]
  obtain ⟨y, hy, hidle⟩ := Option.map_eq_some_iff.1 hmap
  exact ⟨y, hy, (congrArg Judge.sampled hidle :), (congrArg Judge.mismatch hidle :)⟩

/-- A mismatch is counted too, and is a detected fault (R382, R383). -/
theorem judged_mismatch {c : JudgeCopy} (hx : s.judges[j]? = some x) :
    let t := s.judged j c false
    (∃ y, t.judges[j]? = some y ∧ y.sampled = x.sampled + 1 ∧ y.mismatch = x.mismatch + 1) ∧ s.faultsEver < t.faultsEver := by
  have heq : ∃ (s1 : State) (f : FaultInfo) (g : Judge → Judge), s.judged j c false = s1.detect false f ∧
      s1.faultsEver = s.faultsEver ∧ s1.judges = s.judges.modify j g ∧ (g x).sampled = x.sampled + 1 ∧
      (g x).mismatch = x.mismatch + 1 := ⟨_, _, _, rfl, rfl, rfl, rfl, rfl⟩
  obtain ⟨s1, f, g, heq, hever, hjudges, hsampled, hmismatch⟩ := heq
  have hy : s1.judges[j]? = some (g x) := by rw [hjudges, List.getElem?_modify_eq, hx]; rfl
  obtain ⟨z, hz, hz1, hz2⟩ := (Handles.detect s1 f).judge hy
  rw [heq]
  exact ⟨⟨z, hz, hz1.trans hsampled, hz2.trans hmismatch⟩, hever ▸ faultsEver_detect s1 false f⟩

/-! ### Stalls -/

/-- A wait within the budget is no stall (R384). -/
theorem stallFound_within {g : Group} {port since : Nat} (h : s.now - since ≤ g.budget) : s.stallFound g port since = s := if_pos h

/-- Beyond the budget the job's chains stop, the notice goes out, and the fault is detected (R384, R385). -/
theorem stallFound_eq {g : Group} {port since : Nat} (h : g.budget < s.now - since) :
    ∃ s2 f, s.stallFound g port since = s2.detect false f ∧ (s.endChains (fun c => c.job == g.job) .fault).Links s2 := by
  unfold stallFound
  rw [if_neg h.not_ge]
  exact ⟨_, _, rfl, .notify ..⟩

/-- A stall stops the job's chains and takes no unit out of use (R384, R385). -/
theorem stallFound_beyond {g : Group} {port since : Nat} (h : g.budget < s.now - since) :
    let t := s.stallFound g port since
    (∀ x ∈ t.chains, x.job ≠ g.job) ∧ s.faultsEver < t.faultsEver ∧ t.unitMap = s.unitMap ∧ t.cores = s.cores := by
  obtain ⟨s2, f, heq, hlinks⟩ := stallFound_eq (port := port) h
  have hnotified : Handles _ s2 := .of_tells (.of_links hlinks)
  have hever : s2.faultsEver = s.faultsEver := by rw [hlinks]; rfl
  have hfault : s2.Handles (s2.detect false f) := .detect ..
  have hall : s.Handles (s2.detect false f) := (Handles.endChains ..).trans (hnotified.trans hfault)
  have hcounted := faultsEver_detect s2 false f
  rw [heq]
  generalize s2.detect false f = t at *
  refine ⟨fun x hx => ?_, hever ▸ hcounted, ?_, ?_⟩
  · have hgone := (mem_chains_endChains.1 (hnotified.chains x (hfault.chains x hx))).2
    simpa using hgone
  · rw [hall.frame]
  · rw [hall.frame]

/-- What the model says of a wait that goes on: within the budget nothing, beyond it a stall (R384, R385). -/
theorem exec_stall {w : StallWait} {g : Group} {port since : Nat} (h : s.stalled w = s.stallFound g port since) :
    (s.now - since ≤ g.budget → exec (.stall w) s = .next s) ∧
    (g.budget < s.now - since →
      ∃ t, exec (.stall w) s = .next t ∧ (∀ x ∈ t.chains, x.job ≠ g.job) ∧ s.faultsEver < t.faultsEver ∧
        t.unitMap = s.unitMap ∧ t.cores = s.cores) :=
  ⟨fun hle => congrArg Host.Outcome.next (h.trans (stallFound_within hle)),
    fun hlt => ⟨_, congrArg Host.Outcome.next h, stallFound_beyond hlt⟩⟩

theorem exec_stall_over {w : StallWait} (h : s.stalled w = s) : exec (.stall w) s = .next s := congrArg Host.Outcome.next h

end Sys2Proof.Machine.State
end

section
open Sys2Proof.Machine Sys2Proof.Machine.State
namespace Sys2Proof.Proofs

/-- Settles O36: a Judge ends its oldest comparison, which a mismatch makes a fault; each kind of wait comes to `stallFound`. -/
theorem judgesAndStalls : Obligations.JudgesAndStalls := by
  refine ⟨fun s j x hx => ⟨fun p k w o hp => ?_, fun seen h => ?_, fun c r seen h => ⟨fun hsame => ?_, fun hdiff => ?_⟩⟩,
    fun s => ?_⟩
  · rw [← hp] at hx ⊢
    exact ⟨sampleJudge_of_not hx, judges_sampleJudge hx⟩
  · exact congrArg Host.Outcome.next (judgeCompare_none hx h)
  · have hjudged := judgeCompare_oldest (seen := seen) hx h
    rw [beq_iff_eq.2 hsame] at hjudged
    obtain ⟨hframe, hy⟩ := judged_same hx h
    refine ⟨_, congrArg Host.Outcome.next hjudged, hy, ?_⟩
    rw [hframe]
    exact ⟨rfl, rfl, rfl, rfl⟩
  · have hjudged := judgeCompare_oldest (seen := seen) hx h
    rw [beq_false_of_ne hdiff] at hjudged
    obtain ⟨⟨y, hy, hsampled, hmismatch⟩, hfault⟩ := judged_mismatch (c := c) hx
    exact ⟨_, y, congrArg Host.Outcome.next hjudged, hy, hsampled, hmismatch, hfault⟩
  · intro stalls
    refine ⟨fun cid b p x hx => ⟨fun t ht => ?_, fun hover => ?_⟩, fun p vc => ⟨fun t k g ht hk hg hj hin => ?_, fun hover => ?_⟩,
      fun job group g hg hj => ⟨fun t p ht hp => ?_, fun hover => ?_⟩⟩
    · exact exec_stall (port := p.val) (by simp only [stalled, hx, ht])
    · exact exec_stall_over (by simp only [stalled, hx, hover])
    · exact exec_stall (port := p.val) (by simp only [stalled, ht, hk, hg, hj, hin, and_self, if_true])
    · exact exec_stall_over (by simp only [stalled, hover])
    · exact exec_stall (port := p) (by simp only [stalled, hg, ht, hp, hj, if_true])
    · exact exec_stall_over (by simp only [stalled, hg, hover])

end Sys2Proof.Proofs
end

section
/-! What an update program leaves of the queues, wherever it writes (R279, R284). -/

namespace Sys2Proof.Machine.State

variable {s0 s : State} {w : Work} {env : Env} {d : Desc} {rnd : Rounding}

/-- Anywhere in memory. -/
def Anywhere : Nat → Prop := fun _ => True

namespace Within

theorem putElem_anywhere (h : s0.Within Anywhere w.s) {i : Item} : s0.Within Anywhere (Work.putElem env d rnd w i).s :=
  h.workPutElem fun _ _ => trivial

theorem putBlock_anywhere (h : s0.Within Anywhere w.s) {items : List Item} :
    s0.Within Anywhere (Work.putBlock env d rnd w items).s := by
  unfold Work.putBlock
  split
  · exact h
  · exact foldlWork (h.workNoteRead.workPut fun _ _ _ => trivial) fun w x _ h =>
      (h.workPutBits (Fmt.bits_pos _) fun _ _ => trivial).workCount

theorem putItems_anywhere (h : s0.Within Anywhere w.s) {items : List Item} :
    s0.Within Anywhere (Work.putItems env d rnd w items).s := by
  unfold Work.putItems
  split
  · exact h.foldlWork fun w k _ h => h.putBlock_anywhere
  · exact h.foldlWork fun w i _ h => h.putElem_anywhere

theorem runProgram_anywhere (h : s0.Within Anywhere w.s) {p : Prog} {ts : List (Option Desc)} {params : List W64} {modes : List Nat}
    {places : List Place} : s0.Within Anywhere (Machine.runProgram env p ts params modes places w).s := by
  unfold Machine.runProgram
  refine foldlWork (foldlFst h fun _ _ h => h.runLane fun _ _ h => h.laneLoad) fun w k _ h => ?_
  split
  · exact h
  · dsimp only
    split
    · exact h
    · exact h.putItems_anywhere

end Within

/-- A checked program without poison and within its streams runs, and leaves the queues (R279, R284). -/
theorem apply_ok {j : Job} {st : Fin 8} {ref : ProgRef} {hs : List Nat} {params u0 u1 : Nat} (hp : s.poisoned = [])
    (hu : u1 ≤ Update.unitsOf (Update.used (Update.find s j st ref hs).1 (Update.tensors s j hs))) :
    ∃ s1, Update.apply s j st ref hs params u0 u1 = .ok s1 ∧ s1.queues = s.queues := by
  unfold Update.apply
  extract_lets p ts ds own words
  have hunits : ¬ Update.unitsOf ds < u1 := Nat.not_lt.2 hu
  clear_value ds
  split
  · exact ⟨s, rfl, rfl⟩
  · rw [if_neg hunits]
    extract_lets ps w s1
    have hrun : s.Within Anywhere w.s := .runProgram_anywhere .workStart
    rw [poisonMet_of_poisoned_nil hp]
    clear_value w
    have hqueues : s1.queues = s.queues := hrun.queues
    exact ⟨_, rfl, hqueues⟩

end Sys2Proof.Machine.State
end

section
/-! Update invocations (R279, R284, R285, R352, R358, R373). -/

namespace Sys2Proof.Machine.State

variable {s : State} {inv : Invocation} {j : Job}

theorem exec_updateInvocation {t : State} (h : s.chainInvoke inv = t) : exec (.updateInvocation inv) s = .next t.settle :=
  congrArg (fun t : State => Host.Outcome.next t.settle) h

theorem chainInvoke_of_none (h : inv.chain = none) : s.chainInvoke inv = s.invoke inv := by rw [chainInvoke, h]

/-- None runs for a job whose training step is skipped (R373). -/
theorem invoke_skipping (hj : s.job? inv.job = some j) (h : j.skipping = true) : s.invoke inv = s := by
  simp only [invoke, hj, h, Bool.or_true, if_true]

/-- The failures of an invocation's checks (R284). -/
def invocationFails (s : State) (inv : Invocation) (j : Job) : List Fail :=
  Update.progFails s j inv.stack inv.prog (inv.streams.map BitVec.toNat) inv.params inv.u0 inv.u1

/-- A failed check is reported, and nothing runs (R284). -/
theorem invoke_failed (hj : s.job? inv.job = some j) (hfit : s.unfit = false) (hr : j.phase = .running) (hs : j.skipping = false)
    {f : Fail} (hf : worst (s.invocationFails inv j) = some f) : s.invoke inv = s.reportUpdate inv f.1 := by
  rw [invocationFails] at hf
  simp only [invoke, hj, hfit, hr, hs, hf, bne_self_eq_false, Bool.or_false, Bool.false_eq_true, if_false]

/-- A program that passes its checks and runs to its end reports OK (R279, R284). -/
theorem invoke_ok (hj : s.job? inv.job = some j) (hfit : s.unfit = false) (hr : j.phase = .running) (hs : j.skipping = false)
    (hf : worst (s.invocationFails inv j) = none) {s1 : State}
    (ha : Update.apply s j inv.stack inv.prog (inv.streams.map BitVec.toNat) inv.params inv.u0 inv.u1 = .ok s1) :
    s.invoke inv = s1.reportUpdate inv .ok := by
  rw [invocationFails] at hf
  simp only [invoke, hj, hfit, hr, hs, hf, ha, bne_self_eq_false, Bool.or_false, Bool.false_eq_true, if_false]

theorem reportUpdate_of_none (h : inv.chain = none) (st : Status) : s.reportUpdate inv st = { s with replyStatus := st.code } := by
  rw [reportUpdate, h]

/-- An invocation of a chain waits for its bucket's UPDATE, the piece it issues and the buckets before it (R285, R352, R358). -/
theorem chainInvoke_not_due {c b : Nat} {x : Spot} (hc : inv.chain = some (c, b)) (hx : s.spot? c b = some x)
    (h : x.x.stage ≠ .update ∨ issues x inv = false ∨ s.waitsForEarlier x inv.stack = true) : s.chainInvoke inv = s := by
  have hno : (x.x.stage ≠ .update || !issues x inv || s.waitsForEarlier x inv.stack) = true := by
    simpa [or_assoc] using h
  simp only [chainInvoke, hc, hx]
  exact if_pos hno

/-- One that is due runs, and with the last piece the entry is done (R279, R358). -/
theorem chainInvoke_due {c b : Nat} {x y : Spot} (hc : inv.chain = some (c, b)) (hx : s.spot? c b = some x)
    (hstage : x.x.stage = .update) (hi : issues x inv = true) (hw : s.waitsForEarlier x inv.stack = false)
    (hy : (s.invoke inv).spot? c b = some y) :
    s.chainInvoke inv = if updateDone y then (s.invoke inv).entryDone c b else s.invoke inv := by
  simp only [chainInvoke, hc, hx, hstage, hi, hw, hy, ne_eq, not_true_eq_false, decide_false, Bool.not_true, Bool.or_false,
    Bool.false_eq_true, if_false]

end Sys2Proof.Machine.State
end

section
open Sys2Proof.Machine Sys2Proof.Machine.State
namespace Sys2Proof.Proofs

/-- Settles O19: outside a chain the checks decide between a run and a report; in a chain the bucket decides whether it is due. -/
theorem updateInvocationRuns : Obligations.UpdateInvocationRuns := by
  intro s inv j hj hs fails streams
  refine ⟨fun hc hskip => ?_, fun hc hfit hr hskip => ⟨fun hf hp hu => ?_, fun hf s1 ha => ?_, fun f hf hearly => ?_⟩,
    fun c b x hc hx => ⟨fun hno => exec_updateInvocation (chainInvoke_not_due hc hx hno), fun hstage hi hw y hy =>
      exec_updateInvocation (chainInvoke_due hc hx hstage hi hw hy)⟩⟩
  · exact exec_updateInvocation ((chainInvoke_of_none hc).trans (invoke_skipping hj hskip))
  · obtain ⟨s1, ha, hq⟩ := apply_ok (params := inv.params) (u0 := inv.u0) hp hu
    exact ⟨s1, ha, hq, exec_updateInvocation ((chainInvoke_of_none hc).trans (invoke_ok hj hfit hr hskip hf ha))⟩
  · exact exec_updateInvocation ((chainInvoke_of_none hc).trans (invoke_ok hj hfit hr hskip hf ha))
  · have hinvoke := (chainInvoke_of_none hc).trans (invoke_failed hj hfit hr hskip hf)
    rw [reportUpdate_of_none hc] at hinvoke
    exact (exec_updateInvocation hinvoke).trans (congrArg Host.Outcome.next (settle_of_early_nil hearly))

end Sys2Proof.Proofs
end

section
/-! The halt of a job that a fault affects (R359, R397, R406). -/

namespace Sys2Proof.Machine.State

variable {s t : State} {id number n : Nat} {j : Job}

/-! ### Faults are counted once -/

namespace Unstruck

theorem emptyStash (h : Unstruck n s) {commit : Bool} {q : CmdQueue} : Unstruck n (State.emptyStash commit s q) := by
  unfold State.emptyStash
  rw [stashLine_of_poisoned_nil h.clean]
  exact h.ite (h.foldl fun _ _ h => h.store)

theorem links (h : Unstruck n s) (hl : s.Links t) : Unstruck n t :=
  ⟨by rw [hl]; exact h.clean, by rw [hl]; exact h.count⟩

theorem modJob (h : Unstruck n s) {f : Job → Job} : Unstruck n (s.modJob id f) := ⟨h.clean, h.count⟩

theorem tellCores (h : Unstruck n s) {tag step : Nat} : Unstruck n (s.tellCores id tag step) :=
  h.foldl fun s r h => by
    rw [ringLine_of_poisoned_nil h.clean]
    exact h.ite h.store.store

theorem floodSerial (h : Unstruck n s) : Unstruck n (s.floodSerial id) := by
  unfold State.floodSerial
  split
  · exact h.links (.notify ..)
  · exact h

theorem originate (h : Unstruck n s) {k : Notice} {value : Nat} {more : List Byte} :
    Unstruck n (s.originate id k number value more) := h.modJob.links (.notify ..)

theorem dropLeftOut (h : Unstruck n s) : Unstruck n (s.dropLeftOut id) := by
  unfold State.dropLeftOut
  split
  · exact ite h.modJob.floodSerial h
  · exact h

theorem noteRecord (h : Unstruck n s) {origin : W64} {rec_ : List Byte} : Unstruck n (s.noteRecord id origin rec_) :=
  h.modJob.dropLeftOut

theorem stopJob (h : Unstruck n s) : Unstruck n (s.stopJob id) := by
  have hstash : Unstruck n (s.stashless id) := h.foldl fun _ _ h => h.emptyStash
  exact ⟨hstash.clean, hstash.count⟩

theorem haltJob (h : Unstruck n s) : Unstruck n (s.haltJob id number) := by
  unfold State.haltJob
  split
  · exact h
  · have hcount : Unstruck n { s.stopJob id with restarts := (s.stopJob id).restarts + 1 } := ⟨h.stopJob.clean, h.stopJob.count⟩
    exact hcount.modJob.tellCores.floodSerial.postRecord

end Unstruck

/-! ### What a halt leaves of its job -/

/-- The job runs, in a training step. -/
def Going (s : State) (id step : Nat) : Prop := ∃ j, s.job? id = some j ∧ j.phase = .running ∧ j.step = step

namespace Going

variable {step : Nat}

theorem tells (h : s.Going id step) (ht : s.Tells t) : t.Going id step := by
  obtain ⟨j, hj, hphase, hstep⟩ := h
  obtain ⟨j1, hj1, hsame⟩ := ht.job? hj
  exact ⟨j1, hj1, (congrArg Job.phase hsame).trans hphase, (congrArg Job.step hsame).trans hstep⟩

theorem modJob (h : s.Going id step) {f : Job → Job} (hf : ∀ j, (f j).id = j.id ∧ (f j).phase = j.phase ∧ (f j).step = j.step) :
    (s.modJob id f).Going id step := by
  obtain ⟨j, hj, hphase, hstep⟩ := h
  exact ⟨f j, job?_modJob (fun j => (hf j).1) hj, (hf j).2.1.trans hphase, (hf j).2.2.trans hstep⟩

/-- Before a halt nothing is left out of the choice of a coordinator (R405). -/
theorem dropLeftOut_eq (h : s.Going id step) : s.dropLeftOut id = s := by
  obtain ⟨j, hj, hphase, -⟩ := h
  simp only [State.dropLeftOut, hj, hphase, reduceCtorEq, false_and, if_false]

theorem dropLeftOut (h : s.Going id step) : (s.dropLeftOut id).Going id step := h.dropLeftOut_eq.symm ▸ h

theorem noteRecord (h : s.Going id step) {origin : W64} {rec_ : List Byte} : (s.noteRecord id origin rec_).Going id step := by
  refine dropLeftOut (modJob h fun j => ?_)
  dsimp only
  split
  · split <;> exact ⟨rfl, rfl, rfl⟩
  · split
    · split <;> exact ⟨rfl, rfl, rfl⟩
    · exact ⟨rfl, rfl, rfl⟩

theorem originate (h : s.Going id step) {k : Notice} {value : Nat} {more : List Byte} :
    (s.originate id k number value more).Going id step := by
  refine tells ?_ (.of_links (.notify ..))
  exact h.modJob fun _ => ⟨rfl, rfl, rfl⟩

end Going

/-- The job's chains have ended, and its queues and comparisons have stopped (R359, R406). -/
def halted (s : State) (id : Nat) : State := (s.endChains (fun c => c.job == id) .fault).dropWork id

/-- From `s` to `t` the job was halted once. -/
structure Halted (id : Nat) (s t : State) : Prop where
  queues : t.queues = (s.halted id).queues
  chains : t.chains = (s.halted id).chains
  chainEnds : t.chainEnds = (s.halted id).chainEnds
  restarts : t.restarts = s.restarts + 1

namespace Halted

variable {u : State}

theorem of_notes (h : s.Notes t) (h1 : Halted id t u) : Halted id s u where
  queues := h1.queues.trans (by rw [h.frame]; rfl)
  chains := h1.chains.trans (by rw [h.frame]; rfl)
  chainEnds := h1.chainEnds.trans (by rw [h.frame]; rfl)
  restarts := h1.restarts.trans (by rw [h.frame])

theorem tells (h : Halted id s t) (h1 : t.Tells u) : Halted id s u :=
  ⟨by rw [h1.frame]; exact h.queues, by rw [h1.frame]; exact h.chains, by rw [h1.frame]; exact h.chainEnds,
    by rw [h1.frame]; exact h.restarts⟩

theorem frozen (h : Halted id s t) {q : CmdQueue} (hq : q ∈ t.queues) (hj : q.job = id) : q.state = .frozen := by
  rw [h.queues] at hq
  obtain ⟨q0, -, rfl⟩ := List.mem_map.1 hq
  split at hj
  next hid => rw [if_pos hid]; rfl
  next hid => exact absurd (beq_iff_eq.2 hj) hid

/-- Queues of other jobs that no chain of this one has armed stay as they are (R406). -/
theorem mem_queues (h : Halted id s t) {q : CmdQueue} (hq : q ∈ s.queues) (hj : q.job ≠ id)
    (ha : ∀ c ∈ s.chains, c.job = id → c.id ∉ q.armed) : q ∈ t.queues := by
  rw [h.queues]
  have hended := mem_queues_endChains (st := .fault) (f := fun c => c.job == id) hq fun c hc hid => ha c hc (beq_iff_eq.1 hid)
  exact List.mem_map.2 ⟨q, hended, if_neg fun hid => hj (beq_iff_eq.1 hid)⟩

theorem chain_job (h : Halted id s t) {c : Chain} (hc : c ∈ t.chains) : c.job ≠ id := by
  rw [h.chains] at hc
  exact beq_eq_false_iff_ne.1 ((mem_chains_endChains (f := fun c => c.job == id) (st := .fault)).1 hc).2

theorem chain_ended (h : Halted id s t) {c : Chain} (hc : c ∈ s.chains) (hj : c.job = id) : (c.id, Status.fault) ∈ t.chainEnds := by
  rw [h.chainEnds]
  exact chainEnds_endChains (f := fun c => c.job == id) hc (beq_iff_eq.2 hj)

end Halted

/-- The actions of a halt up to the messages and events that tell of it. -/
theorem haltJob_tells (hj : s.job? id = some j) : ∃ r : Restart, r.fault = number ∧
    (({ s.stopJob id with restarts := (s.stopJob id).restarts + 1 } : State).modJob id fun x =>
      { x with phase := .restarting, restart := r }).Tells (s.haltJob id number) := by
  unfold State.haltJob
  rw [hj]
  exact ⟨_, rfl, (Tells.tellCores ..).trans ((Tells.floodSerial ..).trans (Tells.postRecord ..))⟩

theorem halted_haltJob (hj : s.job? id = some j) : Halted id s (s.haltJob id number) := by
  obtain ⟨r, -, htells⟩ := haltJob_tells (number := number) hj
  refine .of_notes (Tells.stashless s id).toNotes (.tells ?_ htells)
  exact ⟨rfl, rfl, rfl, rfl⟩

/-- The job restarts in the step where the fault found it, under the fault's number and with its counts dropped (R406). -/
theorem job?_haltJob (hj : s.job? id = some j) : ∃ j1, (s.haltJob id number).job? id = some j1 ∧ j1.phase = .restarting ∧
    j1.restart.fault = number ∧ j1.step = j.step ∧ j1.watch = {} := by
  obtain ⟨r, hr, htells⟩ := haltJob_tells (number := number) hj
  obtain ⟨j0, hj0, hsame0⟩ := (Tells.stashless s id).job? hj
  have hstopped : (s.stopJob id).job? id = some j0.stopped := job?_modJob (fun _ => rfl) hj0
  obtain ⟨j1, hj1, hsame⟩ := htells.job? (job?_modJob (fun _ => rfl) hstopped)
  exact ⟨j1, hj1, (congrArg Job.phase hsame :), (congrArg (fun x : Job => x.restart.fault) hsame :).trans hr,
    (congrArg Job.step hsame :).trans (congrArg Job.step hsame0 :), (congrArg Job.watch hsame :)⟩

/-! ### The fault of a running job -/

theorem faultJob_going {step : Nat} (h : s.Going id step) : s.faultJob id number = s.haltJob id number := by
  obtain ⟨j, hj, hphase, -⟩ := h
  simp only [faultJob, hj, hphase]

/-- A fault that affects a running job alone: one record, and the halt of the job under its number (R397, R406). -/
theorem detect_going {f : FaultInfo} {step : Nat} (hf : f.job = some id) (h : s.Going id step) (hp : s.poisoned = []) :
    let t := s.detect false f
    Halted id s t ∧ t.faultsEver = s.faultsEver + 1 ∧ ∃ j1, t.job? id = some j1 ∧ j1.phase = .restarting ∧
      j1.restart.fault = s.faultsEver + 1 ∧ j1.step = step ∧ j1.watch = {} := by
  have heq := detect_affected s f
  extract_lets f1 s1 at heq
  have hcounted : Unstruck s.faultsEver (s.counted f) := Unstruck.ite ⟨hp, rfl⟩ ⟨hp, rfl⟩
  have hn : Unstruck (s.faultsEver + 1) s1 := hcounted.recordFault
  have htells : s.Tells s1 := (Tells.counted ..).trans (Tells.recordFault ..)
  simp only [hf, Option.toList_some, List.foldl_cons, List.foldl_nil, faultNotify, hn.count] at heq
  rw [heq]
  generalize s.faultRecord f1 = rec_
  have hgoing : ((s1.originate id .fault (s.faultsEver + 1) 0 rec_).noteRecord id s1.serial rec_).Going id step :=
    (h.tells htells).originate.noteRecord
  have hnotes : s.Notes ((s1.originate id .fault (s.faultsEver + 1) 0 rec_).noteRecord id s1.serial rec_) :=
    htells.toNotes.trans ((Notes.originate ..).trans (Notes.noteRecord ..))
  have hn2 := (hn.originate (id := id) (number := s.faultsEver + 1) (k := .fault) (value := 0) (more := rec_)).noteRecord (id := id)
    (origin := s1.serial) (rec_ := rec_)
  generalize (s1.originate id .fault (s.faultsEver + 1) 0 rec_).noteRecord id s1.serial rec_ = s2 at *
  rw [faultJob_going hgoing]
  obtain ⟨j, hj, -, hstep⟩ := hgoing
  obtain ⟨j1, hj1, hphase, hfault, hstep1, hwatch⟩ := job?_haltJob (number := s.faultsEver + 1) hj
  exact ⟨.of_notes hnotes (halted_haltJob hj), hn2.haltJob.count, j1, hj1, hphase, hfault, hstep1.trans hstep, hwatch⟩

end Sys2Proof.Machine.State
end

section
/-! The retirement of heats, and units whose fault makes the device unfit (R21, R22, R28, R29, R392, R395, R439). -/

namespace Sys2Proof.Machine.State

variable {s t : State} {m : UnitMap} {p sp n : Nat} {f : FaultInfo}

/-! ### The unit map -/

theorem spare_of_spareOf {d : Nat} (h : spareOf m d = some sp) : m.state[sp]? = some .spare := by
  simpa using List.find?_some h

theorem retireHeat_spared (hp : m.state[p]? = some .active) (hs : spareOf m (dieOf p) = some sp) :
    retireHeat m p =
      { state := (m.state.set p .retired).set sp .active, phys := m.phys.map fun x => if x = p then sp else x, gen := m.gen + 1 } := by
  simp only [retireHeat, hp, hs]

/-- Without a logical heat to move, only the state of the heat changes (R29, R392). -/
theorem retireHeat_unmoved (hp : m.state[p]? = some .active ∧ spareOf m (dieOf p) = none ∨ m.state[p]? = some .spare) :
    retireHeat m p = { m with state := m.state.set p .retired, gen := m.gen + 1 } := by
  rcases hp with ⟨hp, hs⟩ | hp
  · simp only [retireHeat, hp, hs]
  · simp only [retireHeat, hp]

theorem getElem?_set_of_some {h : HeatState} (hp : m.state[p]? = some h) (x : HeatState) : (m.state.set p x)[p]? = some x :=
  List.getElem?_set_self (List.getElem?_eq_some_iff.1 hp).1

/-- A heat with a SPARE on its die is RETIRED, the SPARE becomes ACTIVE, and every other heat keeps its state (R28). -/
theorem state_retireHeat_spared (hp : m.state[p]? = some .active) (hs : spareOf m (dieOf p) = some sp) :
    (retireHeat m p).state[p]? = some .retired ∧ (retireHeat m p).state[sp]? = some .active ∧
      ∀ k, k ≠ p → k ≠ sp → (retireHeat m p).state[k]? = m.state[k]? := by
  have hspare := spare_of_spareOf hs
  have hne : sp ≠ p := fun h => by
    rw [h, hp] at hspare
    cases hspare
  have hlt : sp < (m.state.set p .retired).length := by
    rw [List.length_set]
    exact (List.getElem?_eq_some_iff.1 hspare).1
  rw [retireHeat_spared hp hs]
  exact ⟨(List.getElem?_set_ne hne).trans (getElem?_set_of_some hp _), List.getElem?_set_self hlt,
    fun k hk hks => (List.getElem?_set_ne hks.symm).trans (List.getElem?_set_ne hk.symm)⟩

/-- A retirement writes the unit map and both its copies, and may clear the stores of a logical heat that moves (R28, R31). -/
theorem retireUnit_eq (s : State) (p : Nat) : ∃ mem, s.retireUnit p = { s.writeMap (retireHeat s.unitMap p) with mem := mem } := by
  unfold retireUnit
  split
  · dsimp only
    split
    · exact ⟨_, rfl⟩
    · exact ⟨_, rfl⟩
  · exact ⟨_, rfl⟩

/-! ### The unfit state -/

/-- A device that is unfit stays so, and one without jobs becomes unfit and tells it (R22). -/
theorem becomeUnfit_idle (hj : s.unfit = false → s.jobs = []) : ({ s with unfit := true } : State).Tells (s.becomeUnfit n) := by
  unfold becomeUnfit
  split
  next h =>
    have hsame : ({ s with unfit := true } : State) = s := congrArg (fun b => ({ s with unfit := b } : State)) h.symm
    rw [hsame]
    exact .refl
  next hfit =>
    extract_lets s0 s1
    have h0 : ({ s with unfit := true } : State).Tells s0 := .raiseAlert ..
    have hdev : s0.Tells { s0 with dev := .unfit } := ⟨⟨rfl, fun _ => id⟩, rfl⟩
    have h1 : ({ s with unfit := true } : State).Tells s1 := (h0.trans (hdev.trans (.postDevice ..))).ite h0
    rw [h1.jobs_nil (hj (Bool.not_eq_true _ ▸ hfit))]
    exact h1

/-! ### Faults of a heat -/

/-- A fault laid to a heat of a device without jobs: the record, then the retirement (R28, R29). -/
theorem detect_heat (hcls : f.cls = 0) (hjob : f.job = none) (hj : s.jobs = []) :
    ∃ f1 n, s.detect true f =
      if lacksSpare s.unitMap f.index = true then ((s.recordFault f1).retireUnit f.index).becomeUnfit n
      else (s.recordFault f1).retireUnit f.index := by
  unfold detect
  extract_lets heat bad outcome f1 rec_ s0 s1 number s2 s3 s4 js s5
  have hheat : heat = some f.index := by
    simp only [heat, hcls]
    rfl
  have hbad : bad = lacksSpare s.unitMap f.index := by
    simp only [bad, hheat, hcls, Option.any_some]
    rfl
  have hs0 : s0 = s := if_neg fun h => by
    have h3 : f.cls = 3 := h.1
    omega
  have hs2 : s2 = s1 := if_neg (by simp [f1, hcls, UnitClass.code])
  have hs3 : s3 = s1 := (if_neg (by simp [f1, hcls, UnitClass.code])).trans hs2
  have hs4 : s4 = s1.retireUnit f.index := by simp only [s4, hheat, hs3, Option.map_some, Option.getD_some]
  have hjs : js = [] := by
    obtain ⟨mem, hmem⟩ := retireUnit_eq s1 f.index
    have hnil : s1.jobs = [] := (hs0 ▸ Tells.recordFault s0 f1 : s.Tells s1).jobs_nil hj
    have hjobs : s4.jobs = [] := by rw [hs4, hmem]; exact hnil
    simp only [js, hjobs, f1, hjob, List.map_nil, Option.toList_none, ite_self]
  have hs5 : s5 = s1.retireUnit f.index := by simp only [s5, hjs, List.foldl_nil, hs4]
  refine ⟨f1, number, ?_⟩
  rw [hs5, hbad]
  simp only [s1, hs0]

/-- A heat that is SPARE, or has a SPARE heat on its die, is retired, and the device goes on (R28, R392). -/
theorem detect_spared (hcls : f.cls = 0) (hjob : f.job = none) (hj : s.jobs = []) (hp : s.poisoned = [])
    (hl : lacksSpare s.unitMap f.index = false) :
    let t := s.detect true f
    t.unitMap = retireHeat s.unitMap f.index ∧ t.mapCopies = [mapCopy t.unitMap, mapCopy t.unitMap] ∧
      t.faultsEver = s.faultsEver + 1 ∧ t.unfit = s.unfit ∧ t.early = s.early := by
  obtain ⟨f1, n, heq⟩ := detect_heat hcls hjob hj
  rw [hl, if_neg Bool.false_ne_true] at heq
  have hframe := (Tells.recordFault s f1).frame
  have hcount : (s.recordFault f1).faultsEver = s.faultsEver + 1 := (Unstruck.recordFault ⟨hp, rfl⟩).count
  generalize s.recordFault f1 = s1 at *
  obtain ⟨mem, hretire⟩ := retireUnit_eq s1 f.index
  have hmap : s1.unitMap = s.unitMap := by rw [hframe]
  have hunfit : s1.unfit = s.unfit := by rw [hframe]
  have hearly : s1.early = s.early := by rw [hframe]
  rw [heq, hretire, hmap]
  exact ⟨rfl, rfl, hcount, hunfit, hearly⟩

/-- Without a SPARE heat the device becomes unfit (R29). -/
theorem detect_unspared (hcls : f.cls = 0) (hjob : f.job = none) (hj : s.jobs = []) (hl : lacksSpare s.unitMap f.index = true) :
    let t := s.detect true f
    t.unfit = true ∧ t.unitMap = retireHeat s.unitMap f.index ∧ t.early = s.early := by
  obtain ⟨f1, n, heq⟩ := detect_heat hcls hjob hj
  rw [hl, if_pos rfl] at heq
  have htells := Tells.recordFault s f1
  generalize s.recordFault f1 = s1 at *
  obtain ⟨mem, hretire⟩ := retireUnit_eq s1 f.index
  have hjobs : (s1.retireUnit f.index).jobs = [] := by rw [hretire]; exact htells.jobs_nil hj
  have hunfit := (becomeUnfit_idle (n := n) fun _ => hjobs).frame
  have hmap : s1.unitMap = s.unitMap := by rw [htells.frame]
  have hearly : s1.early = s.early := by rw [htells.frame]
  rw [heq, hunfit, hretire, hmap]
  exact ⟨rfl, rfl, hearly⟩

/-! ### Faults of a host core -/

/-- A fault laid to a host core retires it and makes the device unfit; no core changes by it (R21, R22, R410). -/
theorem detect_hostCore (hcls : f.cls = UnitClass.hostCore.code) (hj : s.jobs = []) :
    let t := s.detect true f
    t.cores = s.cores ∧ t.unfit = true ∧ f.index ∈ t.retiredCores ∧ (∀ r ∈ t.reservations, r ∈ s.reservations) ∧
      t.early = s.early := by
  have heq : ∃ (f1 : FaultInfo) (rec_ : List Byte) (n : Nat) (js : List Nat) (s1 : State),
      s1 = { s.recordFault f1 with retiredCores := (s.recordFault f1).retiredCores ++ [f.index] } ∧
      (s.unfit = false → js = s1.jobs.map Job.id) ∧ s.detect true f = (js.foldl (faultNotify rec_ n) s1).becomeUnfit n := by
    unfold detect
    extract_lets heat bad outcome f1 rec_ s0 s1 number s2 s3 s4 js s5
    have hheat : heat = none := by
      simp only [heat, hcls]
      rfl
    have hbad : bad = true := by
      simp only [bad, hcls]
      rfl
    have hs0 : s0 = s := if_neg fun h => absurd (hcls.symm.trans h.1) (by decide)
    have hs2 : s2 = s1 := if_neg (by simp [f1, hcls, UnitClass.code])
    have hs3 : s3 = { s1 with retiredCores := s1.retiredCores ++ [f.index] } := by
      simp only [s3, hbad, f1, hcls, beq_self_eq_true, Bool.and_self, if_true, hs2]
    have hs4 : s4 = s3 := by simp only [s4, hheat, Option.map_none, Option.getD_none]
    refine ⟨f1, rec_, number, js, s3, ?_, fun hfit => ?_, ?_⟩
    · simp only [hs3, s1, hs0]
    · simp only [js, hbad, hfit, hs4, Bool.not_false, Bool.and_self, if_true]
    · rw [if_pos hbad]
      simp only [s5, hs4]
  obtain ⟨f1, rec_, n, js, s1, hs1, hjs, heq⟩ := heq
  have htells := Tells.recordFault s f1
  have hnotified : s1.Handles (js.foldl (faultNotify rec_ n) s1) := .foldl (Handles.faultNotify _ _) ..
  have hidle : (js.foldl (faultNotify rec_ n) s1).unfit = false → (js.foldl (faultNotify rec_ n) s1).jobs = [] := fun hfit => by
    have hfit0 : s.unfit = false := by
      rw [hnotified.frame, hs1, htells.frame] at hfit
      exact hfit
    have hjobs : s1.jobs = [] := hs1 ▸ htells.jobs_nil hj
    rw [hjs hfit0, hjobs]
    exact hjobs
  have hunfit := becomeUnfit_idle (n := n) hidle
  rw [heq]
  generalize js.foldl (faultNotify rec_ n) s1 = s3 at *
  have hcores : s1.cores = s.cores := by rw [hs1, htells.frame]
  have hearly : s1.early = s.early := by rw [hs1, htells.frame]
  have hretired : f.index ∈ s1.retiredCores := by simp [hs1]
  have hreserved (r : Nat × Nat) (hr : r ∈ s1.reservations) : r ∈ s.reservations := htells.reservations r (by rw [hs1] at hr; exact hr)
  refine ⟨?_, ?_, ?_, fun r hr => hreserved r (hnotified.reservations r (hunfit.reservations r hr)), ?_⟩
  · rw [hunfit.frame, hnotified.frame]
    exact hcores
  · rw [hunfit.frame]
  · rw [hunfit.frame, hnotified.frame]
    exact hretired
  · rw [hunfit.frame, hnotified.frame]
    exact hearly

end Sys2Proof.Machine.State
end

section
/-! The rows of detections: notices, watchdogs, lockstep and self-tests (R21, R392, R394, R395, R406, R439). -/

namespace Sys2Proof.Machine.State

variable {s : State}

/-! ### Watchdogs -/

theorem channelExpired_within {die : Nat} {o : Offer} {u : UnitRef} {job : Option Nat}
    (h : offeredCycles o.spans ≤ (s.tracks.getD die {}).limit) : s.channelExpired die o u job = s := if_pos h

/-- Beyond its limit a watchdog fires, which is a fault of the receiving heat (R395). -/
theorem channelExpired_heat {die : Nat} {o : Offer} {u : UnitRef} (hu : u.cls = 0)
    (h : (s.tracks.getD die {}).limit < offeredCycles o.spans) :
    ∃ tracks f, s.channelExpired die o u none = ({ s with tracks := tracks } : State).detect true f ∧
      f.cls = 0 ∧ f.index = u.index.toNat ∧ f.job = none := by
  have hcls : u.cls.toNat = 0 := by rw [hu]; rfl
  unfold channelExpired
  have hhub : u.cls.toNat ≠ UnitClass.hub.code := by rw [hcls]; decide
  rw [if_neg h.not_ge]
  dsimp only
  rw [if_neg hhub]
  exact ⟨_, _, rfl, hcls, rfl, rfl⟩

theorem lacksSpare_active {m : UnitMap} {p : Nat} (h : m.state[p]? = some .active) : lacksSpare m p = (spareOf m (dieOf p)).isNone := by
  rw [lacksSpare, h]
  exact Bool.true_and _

theorem lacksSpare_spare {m : UnitMap} {p : Nat} (h : m.state[p]? = some .spare) : lacksSpare m p = false := by
  rw [lacksSpare, h]
  rfl

/-- A heat whose watchdog fires passes to the lowest SPARE heat of its die (R28, R395). -/
theorem exec_channelWatchdog_spared {die : Fin 2} {o : Offer} {u : UnitRef} {sp : Nat} (hu : u.cls = 0) (hj : s.jobs = [])
    (hearly : s.early = []) (hp : s.poisoned = []) (h : (s.tracks.getD die.val {}).limit < offeredCycles o.spans)
    (ha : s.unitMap.state[u.index.toNat]? = some .active) (hs : spareOf s.unitMap (dieOf u.index.toNat) = some sp) :
    ∃ t, exec (.channelWatchdog die o u none) s = .next t ∧ t.unitMap = retireHeat s.unitMap u.index.toNat ∧
      t.mapCopies = [mapCopy t.unitMap, mapCopy t.unitMap] ∧ t.faultsEver = s.faultsEver + 1 ∧ t.unfit = s.unfit := by
  obtain ⟨tracks, f, heq, hcls, hindex, hjob⟩ := channelExpired_heat hu h
  obtain ⟨hmap, hcopies, hcount, hunfit, he⟩ := detect_spared (s := { s with tracks := tracks }) hcls hjob hj hp
    (by rw [hindex, lacksSpare_active ha, hs]; rfl)
  rw [← heq] at hmap hcopies hcount hunfit he
  exact ⟨_, congrArg Host.Outcome.next (settle_of_early_nil (he.trans hearly)), hindex ▸ hmap, hcopies, hcount, hunfit⟩

/-- Without a SPARE heat the device becomes unfit (R29, R395). -/
theorem exec_channelWatchdog_unspared {die : Fin 2} {o : Offer} {u : UnitRef} (hu : u.cls = 0) (hj : s.jobs = [])
    (hearly : s.early = []) (h : (s.tracks.getD die.val {}).limit < offeredCycles o.spans)
    (ha : s.unitMap.state[u.index.toNat]? = some .active) (hs : spareOf s.unitMap (dieOf u.index.toNat) = none) :
    ∃ t, exec (.channelWatchdog die o u none) s = .next t ∧ t.unfit = true ∧
      t.unitMap = retireHeat s.unitMap u.index.toNat := by
  obtain ⟨tracks, f, heq, hcls, hindex, hjob⟩ := channelExpired_heat hu h
  obtain ⟨hunfit, hmap, he⟩ := detect_unspared (s := { s with tracks := tracks }) hcls hjob hj
    (by rw [hindex, lacksSpare_active ha, hs]; rfl)
  rw [← heq] at hmap hunfit he
  exact ⟨_, congrArg Host.Outcome.next (settle_of_early_nil (he.trans hearly)), hunfit, hindex ▸ hmap⟩

/-! ### Lockstep -/

/-- A host core that diverges stops, and no other core does (R21, R439). -/
theorem exec_hcLockstep {n : Fin 32} (hj : s.jobs = []) (hearly : s.early = []) (hn : n.val < s.cores.length) :
    ∃ t, exec (.hcLockstepDivergence n) s = .next t ∧ (t.core n.val).state = .stopped ∧ t.unfit = true ∧
      n.val ∈ t.retiredCores ∧ (∀ r ∈ t.reservations, r.1 ≠ n.val) ∧ ∀ k, k ≠ n.val → t.core k = s.core k := by
  obtain ⟨hcores, hunfit, hretired, hreserved, he⟩ := detect_hostCore
    (s := (s.modCore n.val fun c => { c with state := .stopped }).dropReservation n.val)
    (f := { mech := Mech.lockstepHc.code, cls := UnitClass.hostCore.code, index := n.val, job := (s.core n.val).job }) rfl hj
  have hcore (k : Nat) : (s.lockstepHc n.val).core k = (s.modCore n.val fun c => { c with state := .stopped }).core k :=
    congrArg (fun l : List HostCore => l.getD k {}) hcores
  refine ⟨s.lockstepHc n.val, congrArg Host.Outcome.next (settle_of_early_nil (he.trans hearly)), ?_, hunfit, hretired,
    fun r hr => ?_, fun k hk => (hcore k).trans (core_setCore_ne s n.val _ hk)⟩
  · rw [hcore, modCore, core_setCore s n.val _ hn]
  · simpa using (List.mem_filter.1 (hreserved r hr)).2

/-! ### Self-tests -/

/-- A SPARE heat that fails its background test is RETIRED, and no logical heat moves (R392). -/
theorem exec_backgroundSelfTest_failed {h : Fin 104} (hj : s.jobs = []) (hs : s.unitMap.state[h.val]? = some .spare)
    (hp : s.poisoned = []) :
    ∃ t, exec (.backgroundSelfTest h false) s = .next t ∧ t.unitMap.state[h.val]? = some .retired ∧
      t.unitMap.phys = s.unitMap.phys ∧ t.faultsEver = s.faultsEver + 1 ∧ t.unfit = s.unfit := by
  obtain ⟨hmap, -, hcount, hunfit, -⟩ := detect_spared
    (f := { mech := Mech.selftest.code, cls := UnitClass.heat.code, index := h.val }) rfl rfl hj hp (lacksSpare_spare hs)
  rw [retireHeat_unmoved (.inr hs)] at hmap
  refine ⟨_, congrArg Host.Outcome.next (if_pos ⟨hs, rfl⟩), ?_, ?_, hcount, hunfit⟩
  · rw [hmap]
    exact getElem?_set_of_some hs _
  · rw [hmap]

/-- A port pair that passes after a link DOWN names the cable (R320). -/
theorem exec_unitSelfTest_port {p : Fin 7} {u : UnitRef} (hearly : s.early = []) (hu : u.cls.toNat = UnitClass.port.code)
    (hd : (s.port p.val).state = .down) :
    exec (.unitSelfTest p u true true) s = .next (s.setPort p.val { s.port p.val with cause := 4 }) := by
  have hdown : (u.cls.toNat == UnitClass.port.code && true && (s.port p.val).state == .down) = true := by rw [hu, hd]; rfl
  have htested : s.unitTested p.val u true true = s.setPort p.val { s.port p.val with cause := 4 } :=
    if_pos hdown
  have hsettle : (s.unitTested p.val u true true).settle = s.unitTested p.val u true true :=
    settle_of_early_nil (by rw [htested]; exact hearly)
  exact congrArg Host.Outcome.next (hsettle.trans htested)

theorem exec_unitSelfTest_other {p : Fin 7} {u : UnitRef} (hearly : s.early = []) (hu : u.cls.toNat ≠ UnitClass.port.code) :
    exec (.unitSelfTest p u true true) s = .next s := by
  have htested : s.unitTested p.val u true true = s := by
    simp only [unitTested, beq_false_of_ne hu, Bool.not_true, Bool.false_and, Bool.false_eq_true, if_false]
  exact congrArg Host.Outcome.next ((congrArg State.settle htested).trans (settle_of_early_nil hearly))

/-! ### Notices -/

/-- A fault detected here that is laid to no unit is a detection with the notice's words (R406). -/
theorem faultNoticed_affected {n : FaultNotice} {id : Nat} (ho : n.origin = none) (hn : n.job.map BitVec.toNat = some id)
    (hb : blamesUnit n.mechanism.toNat = false) : ∃ f, f.job = some id ∧ s.faultNoticed n = s.detect false f := by
  unfold faultNoticed
  rw [ho, hb]
  exact ⟨_, hn, rfl⟩

end Sys2Proof.Machine.State
end

section
open Sys2Proof.Machine Sys2Proof.Machine.State
namespace Sys2Proof.Proofs

/-- Settles O39: a fault of a job is `detect_going`, a fault of a heat retires it, and a host core that diverges is laid to itself. -/
theorem unitFaults : Obligations.UnitFaults := by
  refine ⟨fun s n j ho hn hj hrun hb hearly hp => ?_, ⟨fun s die o u job hearly hle => ?_,
    fun s die o u hu hj hearly hp hlt ha => ⟨fun sp hs => ?_, fun hs => ?_⟩⟩,
    fun s hj hearly => ⟨fun n hlen => exec_hcLockstep hj hearly hlen, rfl, fun h => ⟨?_, exec_backgroundSelfTest_failed hj⟩,
    fun p u hu hd => exec_unitSelfTest_port hearly hu hd,
    fun p u hu => exec_unitSelfTest_other hearly hu⟩⟩
  · obtain ⟨f, hf, heq⟩ := faultNoticed_affected (s := s) ho hn hb
    obtain ⟨hhalted, hcount, j1, hj1, hphase, hnumber, hstep, hwatch⟩ := detect_going hf ⟨j, hj, hrun, rfl⟩ hp
    have hframe := (Handles.detect s f).frame
    rw [← heq] at hhalted hcount hj1 hframe
    have he : (s.faultNoticed n).early = [] := by rw [hframe]; exact hearly
    refine ⟨_, j1, congrArg Host.Outcome.next (settle_of_early_nil he), hj1, hphase, hnumber, hstep, hwatch, hcount, hhalted.restarts,
      fun q hq => hhalted.frozen hq, fun q hq hne ha => hhalted.mem_queues hq hne ha, fun c hc => hhalted.chain_job hc,
      fun c hc hid => hhalted.chain_ended hc hid, ?_⟩
    rw [hframe]
    exact ⟨rfl, rfl, rfl⟩
  · exact congrArg Host.Outcome.next ((congrArg State.settle (channelExpired_within hle)).trans (settle_of_early_nil hearly))
  · obtain ⟨t, hexec, hmap, hcopies, hcount, hunfit⟩ := exec_channelWatchdog_spared hu hj hearly hp hlt ha hs
    obtain ⟨hretired, hactive, hothers⟩ := state_retireHeat_spared ha hs
    rw [← hmap] at hretired hactive hothers
    rw [retireHeat_spared ha hs] at hmap
    exact ⟨t, hexec, hretired, hcopies, hactive, hothers, by rw [hmap], by rw [hmap], hcount, hunfit⟩
  · obtain ⟨t, hexec, hunfit, hmap⟩ := exec_channelWatchdog_unspared hu hj hearly hlt ha hs
    rw [retireHeat_unmoved (.inl ⟨ha, hs⟩)] at hmap
    refine ⟨t, hexec, hunfit, ?_, by rw [hmap]⟩
    rw [hmap]
    exact getElem?_set_of_some ha _
  · exact congrArg Host.Outcome.next (if_neg fun hfailed => absurd hfailed.2 (by decide))

end Sys2Proof.Proofs
end

section
/-! What a restart writes and sends: its questions and restore points (R405, R407), its transfers (R412), and the packets that it discards
(R413). -/

namespace Sys2Proof.Machine

/-- A job that has sent or passed on one more notice. -/
def Job.heard (j : Job) (key : Nat × W64 × Nat) : Job := { j with seen := j.seen ++ [key] }

/-- What a restore point makes of a restarting job of the device with the serial: the spares taken leave it, and it restores, unless
its rank passes to one of them (R407, R411). -/
def Job.restoringAt (serial : W64) (step : Nat) (pairs : List (W64 × W64)) (j : Job) : Job :=
  if j.phase = .restarting ∧ (pairs.all fun p => p.1 != serial) = true then
    { j with
      spares := j.spares.filter fun x => pairs.all fun p => p.2 != x
      restart := { j.restart with restorePoint := some step, restored := false } }
  else j

theorem Job.restoringAt_id (serial : W64) (step : Nat) (pairs : List (W64 × W64)) (j : Job) :
    (j.restoringAt serial step pairs).id = j.id := by
  unfold restoringAt
  split <;> rfl

theorem Job.restoringAt_keeps {serial : W64} {step : Nat} {pairs : List (W64 × W64)} {j : Job} :
    (j.restoringAt serial step pairs).step = j.step ∧
      (j.restoringAt serial step pairs).restart.askedAt = j.restart.askedAt := by
  unfold restoringAt
  split <;> exact ⟨rfl, rfl⟩

namespace State

variable {s t : State} {id : Nat} {j : Job}

/-- What does not look at ports and outputs is the same on both sides. -/
theorem Links.same (h : s.Links t) {α : Type} (f : State → α) (hf : ∀ ports out, f { s with ports := ports, out := out } = f s) :
    f t = f s := by
  unfold Links at h
  rw [h]
  exact hf ..

/-! ### Floods -/

/-- The state in which the device's next notice has been numbered and noted in the job (R405). -/
def flooding (s : State) (id : Nat) (n : Notice) : State :=
  ({ s with notices := s.notices + 1 } : State).modJob id fun j => j.heard (n.code, s.serial, s.notices + 1)

theorem links_flood (s : State) (id : Nat) (n : Notice) (value : Nat) (more : List Byte) :
    (s.flooding id n).Links (s.flood id n value more) := .notify ..

theorem job?_flood (hj : s.job? id = some j) (n : Notice) (value : Nat) (more : List Byte) :
    (s.flood id n value more).job? id = some (j.heard (n.code, s.serial, s.notices + 1)) := by
  have hnoted : (s.flooding id n).job? id = some (j.heard (n.code, s.serial, s.notices + 1)) := job?_modJob (fun _ => rfl) hj
  exact ((links_flood ..).same (fun s => s.job? id) fun _ _ => rfl).trans hnoted

/-- A flood changes jobs, the count of notices, ports and outputs alone. -/
theorem flood_same {α : Type} (f : State → α)
    (hf : ∀ jobs notices ports out, f { s with jobs := jobs, notices := notices, ports := ports, out := out } = f s)
    (id : Nat) (n : Notice) (value : Nat) (more : List Byte) : f (s.flood id n value more) = f s := by
  have hlinks := links_flood s id n value more
  unfold Links at hlinks
  rw [hlinks]
  exact hf ..

/-! ### Transfers -/

/-- Other transfers, and nothing else. -/
def withTransfers (s : State) (l : List Transfer) : State := { s with transfers := l }

/-- A transfer is recorded, in place of any before for its job. -/
def withTransfer (s : State) (x : Transfer) : State := s.withTransfers ((s.transfers.filter fun t => t.job != x.job) ++ [x])

theorem transfer?_withTransfer (s : State) (x : Transfer) : (s.withTransfer x).transfer? x.job = some x := by
  have hnone : (s.transfers.filter fun t => t.job != x.job).find? (fun t => t.job == x.job) = none :=
    List.find?_eq_none.2 fun t ht => by simpa using (List.mem_filter.1 ht).2
  simp only [transfer?, withTransfer, withTransfers, List.find?_append, hnone, List.find?_cons, beq_self_eq_true, Option.none_or]

theorem transfer?_of_links (h : s.Links t) (job : Nat) : t.transfer? job = s.transfer? job :=
  h.same (fun s => s.transfer? job) fun _ _ => rfl

theorem transfer?_modTransfer {job : Nat} {x : Transfer} {f : Transfer → Transfer} (hf : ∀ x, (f x).job = x.job)
    (hx : s.transfer? job = some x) : (s.modTransfer job f).transfer? job = some (f x) := by
  have hjob : x.job = job := by simpa using List.find?_some hx
  have hid (x : Transfer) : (if x.job = job then f x else x).job = x.job := by
    split
    · exact hf x
    · rfl
  have hfind : (s.modTransfer job f).transfer? job = (s.transfer? job).map fun x => if x.job = job then f x else x := by
    simp only [transfer?, modTransfer, List.find?_map, Function.comp_def, hid]
  rw [hfind, hx, Option.map_some, if_pos hjob]

theorem pathNoticed_known {p job step : Nat} {origin : W64} {x : Transfer} (hx : s.transfer? job = some x) :
    s.pathNoticed p job origin step x.spare = s := if_pos (by rw [hx]; exact beq_self_eq_true x.spare)

/-- The first path notice of a transfer is recorded with its port, goes on, and may be answered (R412). -/
theorem links_pathNoticed {p job step : Nat} {origin spare : W64} (hx : s.transfer? job = none) :
    (s.withTransfer { job := job, spare := spare, step := step, port := some p }).Links (s.pathNoticed p job origin step spare) := by
  unfold pathNoticed
  rw [hx, if_neg (by exact Bool.false_ne_true)]
  dsimp only
  split
  · exact (Links.notify ..).trans (.notify ..)
  · exact .notify ..

theorem pathClaimed_unknown {p job : Nat} (hx : s.transfer? job = none) : s.pathClaimed p job = s := by rw [pathClaimed, hx]

/-- A device between the twin and the spare records the port of a claim and passes it on (R412). -/
theorem links_pathClaimed {p job q : Nat} {x : Transfer} (hx : s.transfer? job = some x) (hc : x.claim = none) (hp : x.port = some q) :
    (s.modTransfer job fun x => { x with claim := some p }).Links (s.pathClaimed p job) := by
  simp only [pathClaimed, hx, hc, hp, Option.isSome_none, Bool.false_eq_true, if_false]
  exact .notify ..

theorem links_startTransfer (s : State) (job : Nat) (spare : W64) (step : Nat) :
    (s.withTransfer { job := job, spare := spare, step := step, port := none }).Links (s.startTransfer job spare step) := .notify ..

/-! ### The restore point in force -/

/-- The state in which the ranks have passed and the restore point stands in the job (R407, R411). -/
def ranksPassed (s : State) (id step : Nat) (pairs : List (W64 × W64)) : State :=
  (s.replaceSerials id pairs).modJob id (Job.restoringAt s.serial step pairs)

theorem Talks.withTransfers (h : s.Talks t) (l : List Transfer) : (s.withTransfers l).Talks (t.withTransfers l) := by
  unfold Talks at h ⊢
  rw [h]
  rfl

/-- Where the generation is not here, the twin is asked for it (R407). -/
def requesting (s : State) (id step : Nat) (pairs : List (W64 × W64)) : State :=
  match s.job? id with
  | some j =>
    if j.phase = .restarting ∧ j.restart.restorePoint = some step ∧ (localGen? j step).isNone ∧ s.pair.joined = true ∧
        (pairs.all fun p => p.2 != s.serial) = true then
      s.sendShadow id .request step recordAddr []
    else s
  | none => s

theorem talks_requesting (s : State) (id step : Nat) (pairs : List (W64 × W64)) : s.Talks (s.requesting id step pairs) := by
  unfold requesting
  split
  · split
    · exact .sendShadow ..
    · exact .refl
  · exact .refl

theorem restoreAt_eq (s : State) (id step : Nat) (pairs : List (W64 × W64)) :
    s.restoreAt id step pairs =
      let u := (s.ranksPassed id step pairs).requesting id step pairs
      match pairs.find? fun p => p.1 == u.pair.twinSerial && p.1 != 0 with
      | some p => if (u.wholeShadow? id step).isSome then u.startTransfer id p.2 step else u
      | none => u := rfl

/-- Besides, packets are sent, and a transfer may begin. -/
theorem talks_restoreAt (s : State) (id step : Nat) (pairs : List (W64 × W64)) :
    ∃ l, ((s.ranksPassed id step pairs).withTransfers l).Talks (s.restoreAt id step pairs) := by
  have htalks := talks_requesting (s.ranksPassed id step pairs) id step pairs
  rw [restoreAt_eq]
  generalize (s.ranksPassed id step pairs).requesting id step pairs = u at *
  dsimp only
  split
  · split
    · exact ⟨_, (htalks.withTransfers _).trans (.of_links (links_startTransfer ..))⟩
    · exact ⟨_, htalks⟩
  · exact ⟨_, htalks⟩

theorem job?_restoreAt (hj : s.job? id = some j) (step : Nat) (pairs : List (W64 × W64)) :
    (s.restoreAt id step pairs).job? id = some (j.restoringAt s.serial step pairs) := by
  obtain ⟨l, htalks⟩ := talks_restoreAt s id step pairs
  have hpassed : (s.ranksPassed id step pairs).job? id = some (j.restoringAt s.serial step pairs) :=
    job?_modJob (fun j => j.restoringAt_id ..) hj
  exact (job?_of_jobs htalks.jobs id).trans hpassed

theorem restoreAt_frame (s : State) (id step : Nat) (pairs : List (W64 × W64)) :
    let t := s.restoreAt id step pairs
    t.mem = s.mem ∧ t.queues = s.queues ∧ t.groups = (s.replaceSerials id pairs).groups :=
  (talks_restoreAt s id step pairs).elim fun _ htalks => htalks.frame

/-! ### Holding a job -/

/-- From `s` to `t` the job was held with the cause: what its restart has found stays, and so do the queues (R414). -/
structure Holds (id cause : Nat) (j : Job) (s t : State) : Prop where
  job : ∃ j1, t.job? id = some j1 ∧ j1.phase = .held cause ∧ j1.step = j.step ∧ j1.restart = j.restart
  count : t.jobsHeld = s.jobsHeld + 1
  queues : t.queues = s.queues

theorem Holds.of_tells {j0 : Job} {cause : Nat} (h : s.Tells t) (hsame : j0.unmapped = j.unmapped) {u : State}
    (hu : Holds id cause j0 t u) : Holds id cause j s u := by
  obtain ⟨⟨j1, hj1, hphase, hstep, hrestart⟩, hcount, hqueues⟩ := hu
  refine ⟨⟨j1, hj1, hphase, hstep.trans (congrArg Job.step hsame :), hrestart.trans (congrArg Job.restart hsame :)⟩, hcount.trans ?_,
    hqueues.trans ?_⟩
  · rw [h.frame]
  · rw [h.frame]

theorem holds_holdAll (hj : s.job? id = some j) (hr : j.phase = .restarting) (cause : Nat) : Holds id cause j s (s.holdAll id cause) := by
  have hflood := job?_flood hj .restorePoint 0 (restoreMore (some cause) [])
  have hphase : (j.heard (Notice.code .restorePoint, s.serial, s.notices + 1)).phase ≠ .running := hr.trans_ne nofun
  have htells : (({ s.flood id .restorePoint 0 (restoreMore (some cause) []) with
      jobsHeld := (s.flood id .restorePoint 0 (restoreMore (some cause) [])).jobsHeld + 1 } : State).modJob id
        fun x => { x with phase := .held cause }).Tells (s.holdAll id cause) := by
    simp only [holdAll, holdJob, hflood, if_neg hphase]
    exact .postRecord ..
  obtain ⟨j1, hj1, hsame⟩ := htells.job? (job?_modJob (fun _ => rfl) hflood)
  refine ⟨⟨j1, hj1, (congrArg Job.phase hsame :), (congrArg Job.step hsame :), (congrArg Job.restart hsame :)⟩, ?_, ?_⟩
  · rw [htells.frame]
    exact congrArg (· + 1) (flood_same State.jobsHeld (fun _ _ _ _ => rfl) ..)
  · rw [htells.frame]
    exact flood_same State.queues (fun _ _ _ _ => rfl) ..

/-! ### Early packets of a job -/

/-- Other early packets, and nothing else. -/
def withEarly (s : State) (l : List (Nat × Packet × Bool)) : State := { s with early := l }

theorem Links.withEarly (h : s.Links t) (l : List (Nat × Packet × Bool)) : (s.withEarly l).Links (t.withEarly l) := by
  unfold Links at h ⊢
  rw [h]
  rfl

theorem links_leaveBuffer (s : State) (e : Nat × Packet × Bool) : s.Links (s.leaveBuffer e) := by
  unfold leaveBuffer
  split
  · exact .refl
  · rfl

/-- Early packets that are discarded leave their buffers: credits become due on ports (R413). -/
theorem links_discardEarly (gone : List (Nat × Packet × Bool)) (s : State) :
    (s.withEarly (s.early.diff gone)).Links (gone.foldl (fun s e => (s.withEarly (s.early.erase e)).leaveBuffer e) s) := by
  induction gone generalizing s with
  | nil => exact .refl
  | cons e gone ih =>
    have hleave := links_leaveBuffer (s.withEarly (s.early.erase e)) e
    have hearly : ((s.withEarly (s.early.erase e)).leaveBuffer e).early = s.early.erase e := hleave.same State.early fun _ _ => rfl
    have hrest := ih ((s.withEarly (s.early.erase e)).leaveBuffer e)
    rw [hearly, ← List.diff_cons] at hrest
    exact (hleave.withEarly _).trans hrest

theorem not_of_mem_diff_filter {α : Type} [BEq α] [LawfulBEq α] {l : List α} {p : α → Bool} {x : α}
    (hx : x ∈ l.diff (l.filter p)) : p x = false := by
  by_contra hp
  have hp : p x = true := Bool.not_eq_false _ ▸ hp
  have hcount : (l.diff (l.filter p)).count x = 0 := by rw [List.count_diff, List.count_filter hp, Nat.sub_self]
  exact List.count_eq_zero.1 hcount hx

end State
end Sys2Proof.Machine
end

section
/-! The restore point is agreed (R385, R405, R407, R411, R414). -/

namespace Sys2Proof.Machine.State

variable {s : State} {id : Nat} {j : Job} {fits : List (W64 × List W64)}

/-! ### The largest common step -/

theorem commonStep_cons (a : List Nat) (rest : List (List Nat)) :
    commonStep (a :: rest) = (a.filter fun n => rest.all fun b => b.contains n).max? := by
  unfold commonStep
  dsimp only
  cases a.filter fun n => rest.all fun b => b.contains n with
  | nil => rfl
  | cons m l =>
    rw [List.foldl_cons, List.max?_cons']
    induction l generalizing m with
    | nil => rfl
    | cons n l ih => exact ih (max m n)

theorem mem_common {a : List Nat} {rest : List (List Nat)} {n : Nat} :
    n ∈ (a.filter fun n => rest.all fun b => b.contains n) ↔ ∀ b ∈ a :: rest, n ∈ b := by
  simp only [List.mem_filter, List.all_eq_true, List.contains_iff_mem, List.forall_mem_cons]

theorem commonStep_eq_some {answers : List (List Nat)} (h : answers ≠ []) {n : Nat} :
    commonStep answers = some n ↔ (∀ a ∈ answers, n ∈ a) ∧ ∀ m, (∀ a ∈ answers, m ∈ a) → m ≤ n := by
  obtain ⟨a, rest, rfl⟩ := List.exists_cons_of_ne_nil h
  rw [commonStep_cons, List.max?_eq_some_iff]
  simp only [mem_common]

theorem commonStep_eq_none {answers : List (List Nat)} (h : answers ≠ []) :
    commonStep answers = none ↔ ∀ m, ¬ ∀ a ∈ answers, m ∈ a := by
  obtain ⟨a, rest, rfl⟩ := List.exists_cons_of_ne_nil h
  rw [commonStep_cons, List.max?_eq_none_iff, List.eq_nil_iff_forall_not_mem]
  simp only [mem_common]

/-! ### The outcomes of the agreement -/

section
variable (hj : s.job? id = some j)

section
variable (hr : j.phase = .restarting)
include hj hr

/-- The stall of a cycle is told, and the job held (R385). -/
theorem agree_of_stallCycle (h : s.stallCycle j ≠ none) : Holds id 3 j s (s.agree j fits) := by
  obtain ⟨g, hg⟩ := Option.ne_none_iff_exists'.1 h
  have htells : s.Tells (s.postJob .stallCycle j j.step (toLe 2 g)) := .postRecord ..
  obtain ⟨j0, hj0, hsame⟩ := htells.job? hj
  simp only [agree, hg, job?_id hj]
  exact .of_tells htells hsame (holds_holdAll hj0 ((congrArg Job.phase hsame :).trans hr) 3)

theorem agree_of_noSpare (h : s.stallCycle j = none) (hc : chooseSpares fits j.spares (s.failedNow j) = none) :
    Holds id 0 j s (s.agree j fits) := by
  simp only [agree, h, hc, job?_id hj]
  exact holds_holdAll hj hr 0

theorem agree_of_noStep {pairs : List (W64 × W64)} (h : s.stallCycle j = none)
    (hc : chooseSpares fits j.spares (s.failedNow j) = some pairs) (hn : commonStep (s.answersOf j) = none) :
    Holds id 1 j s (s.agree j fits) := by
  simp only [agree, h, hc, hn, job?_id hj]
  exact holds_holdAll hj hr 1

end

include hj

/-- A common step becomes the restore point (R407, R411). -/
theorem agree_of_step {pairs : List (W64 × W64)} {n : Nat} (h : s.stallCycle j = none)
    (hc : chooseSpares fits j.spares (s.failedNow j) = some pairs) (hn : commonStep (s.answersOf j) = some n) :
    let t := s.agree j fits
    (∃ key, t.job? id = some ((j.heard key).restoringAt s.serial n pairs)) ∧ t.groups = (s.replaceSerials id pairs).groups ∧
      t.mem = s.mem ∧ t.queues = s.queues := by
  have hjob := job?_restoreAt (job?_flood hj .restorePoint n (restoreMore none pairs)) n pairs
  obtain ⟨hmem, hqueues, hgroups⟩ := restoreAt_frame (s.flood id .restorePoint n (restoreMore none pairs)) id n pairs
  rw [flood_same State.serial fun _ _ _ _ => rfl] at hjob
  simp only [agree, h, hc, hn, job?_id hj]
  exact ⟨⟨_, hjob⟩, hgroups.trans (flood_same (fun s => (s.replaceSerials id pairs).groups) (fun _ _ _ _ => rfl) ..),
    hmem.trans (flood_same State.mem (fun _ _ _ _ => rfl) ..), hqueues.trans (flood_same State.queues (fun _ _ _ _ => rfl) ..)⟩

/-- Whatever is agreed, queues stay, and the job keeps its step and the time of its question. -/
theorem agree_keeps (hr : j.phase = .restarting) :
    let t := s.agree j fits
    (∃ j1, t.job? id = some j1 ∧ j1.step = j.step ∧ j1.restart.askedAt = j.restart.askedAt) ∧ t.queues = s.queues := by
  have hheld {cause : Nat} (hholds : Holds id cause j s (s.agree j fits)) : (∃ j1, (s.agree j fits).job? id = some j1 ∧
      j1.step = j.step ∧ j1.restart.askedAt = j.restart.askedAt) ∧ (s.agree j fits).queues = s.queues := by
    obtain ⟨⟨j1, hj1, -, hstep, hrestart⟩, -, hqueues⟩ := hholds
    exact ⟨⟨j1, hj1, hstep, congrArg Restart.askedAt hrestart⟩, hqueues⟩
  cases h : s.stallCycle j with
  | some g => exact hheld (agree_of_stallCycle hj hr (h.trans_ne nofun))
  | none =>
    cases hc : chooseSpares fits j.spares (s.failedNow j) with
    | none => exact hheld (agree_of_noSpare hj hr h hc)
    | some pairs =>
      cases hn : commonStep (s.answersOf j) with
      | none => exact hheld (agree_of_noStep hj hr h hc hn)
      | some n =>
        obtain ⟨⟨key, hjob⟩, -, -, hqueues⟩ := agree_of_step hj h hc hn
        obtain ⟨hstep, hasked⟩ := Job.restoringAt_keeps (serial := s.serial) (step := n) (pairs := pairs) (j := j.heard key)
        exact ⟨⟨_, hjob, hstep, hasked⟩, hqueues⟩

end

/-! ### The question -/

/-- The job restarts in a step, and its devices were asked for their steps at a time. -/
def Asked (s : State) (id step time : Nat) : Prop :=
  ∃ j, s.job? id = some j ∧ j.phase = .restarting ∧ j.step = step ∧ j.restart.askedAt = some time

theorem Asked.answerFor {step time : Nat} (h : s.Asked id step time) (device : W64) (steps : List Nat) :
    (s.answerFor id device steps).Asked id step time ∧ (s.answerFor id device steps).queues = s.queues := by
  obtain ⟨j, hj, hphase, hstep, hasked⟩ := h
  have hnoted : (s.noteAnswer id device steps).job? id = _ := job?_modJob (fun _ => rfl) hj
  exact ⟨⟨_, job?_flood hnoted .answer device.toNat (steps.flatMap (toLe 8)), hphase, hstep, hasked⟩,
    flood_same State.queues (fun _ _ _ _ => rfl) ..⟩

/-- A restarting job is as it was before the restarts of held jobs. -/
theorem job?_restartHeld (hj : s.job? id = some j) (hr : j.phase = .restarting) : (s.restartHeld id).job? id = some j := by
  refine (job?_modJob (fun j => ?_) hj).trans ?_
  · split <;> rfl
  · rw [hr]

/-- The question is noted with its time, and this device answers (R407). -/
theorem asked_restarting (hj : s.job? id = some j) (hr : j.phase = .restarting) :
    (s.asked id).Asked id j.step s.now ∧ (s.asked id).queues = s.queues := by
  have hj0 := job?_restartHeld hj hr
  unfold asked
  extract_lets s0
  simp only [s0, hj0]
  have hnoted : Asked
      ((s.restartHeld id).modJob id fun x => { x with restart := { x.restart with askedAt := some (s.restartHeld id).now } })
      id j.step s.now := ⟨_, job?_modJob (fun _ => rfl) hj0, hr, rfl, rfl⟩
  obtain ⟨hown, hqueues⟩ := hnoted.answerFor s.serial ((s.restartHeld id).ownSteps j)
  split
  · obtain ⟨htwin, htwinQueues⟩ := hown.answerFor (s.pair.twinSerial) (State.twinSteps _ id)
    exact ⟨htwin, htwinQueues.trans hqueues⟩
  · exact ⟨hown, hqueues⟩

/-! ### The row -/

theorem restorePointAgreed_idle (hj : s.job? id = some j)
    (h : j.phase = .running ∨ s.leads j = false ∨ j.restart.restorePoint.isSome = true) : s.restorePointAgreed id fits = s := by
  rw [restorePointAgreed, hj]
  refine if_pos (h.imp (fun hrun => ?_) (.imp (fun hlead => ?_) fun h => h))
  · rw [hrun]
    exact nofun
  · rw [hlead]
    rfl

section
variable (hj : s.job? id = some j) (hr : j.phase = .restarting) (hlead : s.leads j = true) (hnone : j.restart.restorePoint = none)
include hj hr hlead hnone

/-- The first time, the devices are asked; what is agreed at once keeps the job's step and the time of the question. -/
theorem restorePointAgreed_asks (ha : j.restart.askedAt = none) :
    let t := s.restorePointAgreed id fits
    (∃ j1, t.job? id = some j1 ∧ j1.restart.askedAt = some s.now ∧ j1.step = j.step) ∧ t.queues = s.queues := by
  obtain ⟨⟨j1, hj1, hphase, hstep, hasked⟩, hqueues⟩ := asked_restarting (job?_flood hj .ask 0 []) hr
  rw [flood_same State.now fun _ _ _ _ => rfl] at hasked
  have hstill : (s.flood id .ask 0 []).queues = s.queues := flood_same State.queues (fun _ _ _ _ => rfl) ..
  have heq : s.restorePointAgreed id fits =
      if ((s.flood id .ask 0 []).asked id).answersIn j1 then ((s.flood id .ask 0 []).asked id).agree j1 fits
      else (s.flood id .ask 0 []).asked id := by
    simp only [restorePointAgreed, hj, hr, hlead, hnone, ha, hj1, ne_eq, not_true_eq_false, Bool.not_true, Bool.false_eq_true,
      Option.isSome_none, or_self, if_false]
  rw [heq]
  split
  · obtain ⟨⟨j2, hj2, hstep2, hasked2⟩, hqueues2⟩ := agree_keeps (fits := fits) hj1 hphase
    exact ⟨⟨j2, hj2, hasked2.trans hasked, hstep2.trans hstep⟩, hqueues2.trans (hqueues.trans hstill)⟩
  · exact ⟨⟨j1, hj1, hasked, hstep⟩, hqueues.trans hstill⟩

/-- After the question the restore point is agreed once the answers are in. -/
theorem restorePointAgreed_asked (ha : j.restart.askedAt.isSome = true) :
    s.restorePointAgreed id fits = if s.answersIn j then s.agree j fits else s := by
  simp only [restorePointAgreed, hj, hr, hlead, hnone, ha, ne_eq, not_true_eq_false, Bool.not_true, Bool.false_eq_true,
    Option.isSome_none, or_self, if_false, if_true]

end

/-! ### The election of a coordinator -/

/-- Whether this device's serial has been the smallest known for 100 ms, and the device is not left out (R405). -/
def stands (s : State) (j : Job) : Bool :=
  j.restart.smallest == s.serial && !(leftOut j).contains s.serial && decide (10000000 ≤ s.now - j.restart.changedAt)

theorem stands_iff : s.stands j = true ↔
    j.restart.smallest = s.serial ∧ (leftOut j).contains s.serial = false ∧ 10000000 ≤ s.now - j.restart.changedAt := by
  rw [stands, Bool.and_eq_true, Bool.and_eq_true, Bool.not_eq_true', beq_iff_eq, decide_eq_true_iff, and_assoc]

/-- In a job with NEIGHBOURS groups only, the device that stands coordinates (R405). -/
theorem elected_eq (hl : s.leadGroup id = none) (hg : s.jobGroups id ≠ []) :
    s.elected id = s.modJob id fun j => if s.stands j then { j with restart := { j.restart with coordinator := true } } else j := by
  have hlone : ((s.leadGroup id).isNone && !(s.jobGroups id).isEmpty) = true := by
    rw [hl, List.isEmpty_eq_false_iff.2 hg]
    rfl
  rw [elected, hlone]
  rfl

theorem modJob_of_fixed {f : Job → Job} (h : ∀ x ∈ s.jobs, x.id = id → f x = x) : s.modJob id f = s := by
  have hjobs : (s.jobs.map fun x => if x.id == id then f x else x) = s.jobs := by
    refine (List.map_congr_left fun x hx => ?_).trans (List.map_id _)
    split
    next hid => exact h x hx (beq_iff_eq.1 hid)
    next => rfl
  rw [modJob, hjobs]

end Sys2Proof.Machine.State
end

section
open Sys2Proof.Machine Sys2Proof.Machine.State
namespace Sys2Proof.Proofs

/-- Settles O40: the common step is a maximum, each outcome of the agreement floods and then holds or restores the job, and an
election sets one bit of it. -/
theorem restorePointAndCoordinator : Obligations.RestorePointAndCoordinator := by
  refine ⟨fun answers hne => ⟨fun n => commonStep_eq_some hne, commonStep_eq_none hne⟩, fun s job devices spares j hj => ?_,
    fun s job j hj hl hg => ?_⟩
  · intro fits
    have hexec {t : State} (h : s.restorePointAgreed job fits = t) : exec (.restorePointAgreed job devices spares) s = .next t :=
      congrArg Host.Outcome.next h
    refine ⟨fun h => hexec (restorePointAgreed_idle hj h), fun hr hlead hnone => ⟨fun ha => ?_, fun ha hin => ?_, fun ha hin => ?_⟩⟩
    · obtain ⟨⟨j1, hj1, hasked, hstep⟩, hqueues⟩ := restorePointAgreed_asks (fits := fits) hj hr hlead hnone ha
      exact ⟨_, j1, hexec rfl, hj1, hasked, hstep, hqueues⟩
    · exact hexec ((restorePointAgreed_asked hj hr hlead hnone ha).trans (if_neg (by rw [hin]; exact Bool.false_ne_true)))
    · intro held
      have hagree : exec (.restorePointAgreed job devices spares) s = .next (s.agree j fits) :=
        hexec ((restorePointAgreed_asked hj hr hlead hnone ha).trans (if_pos hin))
      have hheld {cause : Nat} (hholds : Holds job cause j s (s.agree j fits)) : held cause := by
        obtain ⟨⟨j1, hj1, hphase, -⟩, hcount, hqueues⟩ := hholds
        exact ⟨_, j1, hagree, hj1, hphase, hcount, hqueues⟩
      refine ⟨fun h => hheld (agree_of_stallCycle hj hr h), fun h hc => hheld (agree_of_noSpare hj hr h hc),
        fun pairs h hc => ⟨fun hn => hheld (agree_of_noStep hj hr h hc hn), fun n hn hme => ?_⟩⟩
      obtain ⟨⟨key, hjob⟩, hgroups, hmem, hqueues⟩ := agree_of_step hj h hc hn
      have hstays : (pairs.all fun p => p.1 != s.serial) = true := List.all_eq_true.2 fun p hp => bne_iff_ne.2 (hme p hp)
      rw [Job.restoringAt, if_pos ⟨hr, hstays⟩] at hjob
      exact ⟨_, _, hagree, hjob, rfl, rfl, hr, rfl, hgroups, hmem, hqueues⟩
  · have hexec : exec (.coordinatorElection job) s = .next (s.elected job) := rfl
    rw [hexec, elected_eq hl hg]
    refine ⟨fun hs hout hlong => ?_, fun hno => ?_⟩
    · refine ⟨_, _, rfl, job?_modJob (fun x => by dsimp only; split <;> rfl) hj, ?_⟩
      rw [if_pos (stands_iff.2 ⟨hs, hout, hlong⟩)]
      exact ⟨rfl, rfl, rfl, rfl, rfl⟩
    · refine congrArg Host.Outcome.next (modJob_of_fixed fun x hx hid => if_neg fun hstands => ?_)
      obtain ⟨hs, hout, hlong⟩ := stands_iff.1 hstands
      rcases hno x hx hid with h | h | h
      · exact h hs
      · exact absurd (hout.symm.trans h) Bool.false_ne_true
      · omega

end Sys2Proof.Proofs
end

section
/-! The end of a restart (R407, R413, R442). -/

namespace Sys2Proof.Machine

/-- A job whose groups have rejoined: its restore point is marked, and older generations are released (R301, R407). -/
def Job.rejoinedAt (n : Nat) (x : Job) : Job :=
  { x with
    gens := releaseOlder n x.gens, restorePoint := n, freezeAt := none
    restart := { x.restart with rejoined := true } }

/-- A job that runs again (R413). -/
def Job.resumed (x : Job) : Job :=
  { x with
    phase := .running, seen := []
    restart := { smallest := x.restart.smallest, changedAt := x.restart.changedAt, coordinator := x.restart.coordinator } }

/-- Generations before the restore point are released (R301, R407). -/
theorem released_releaseOlder {n : Nat} {gs : List Gen} {g : Gen} (hg : g ∈ releaseOlder n gs) (hlt : g.step < n) :
    g.state = .released := by
  obtain ⟨x, -, rfl⟩ := List.mem_map.1 hg
  by_cases hx : x.step < n
  · rw [if_pos hx]
  · rw [if_neg hx] at hlt
    exact absurd hlt hx

/-- A queue of a job that runs again leaves FROZEN (R413, R442). -/
def CmdQueue.thawed (id : Nat) (q : CmdQueue) : CmdQueue :=
  if q.job = id ∧ q.state = .frozen then { q with state := if q.team = 0 then .unbound else State.readyState q } else q

namespace CmdQueue

variable {id : Nat} {q : CmdQueue}

theorem thawed_of_job_ne (h : q.job ≠ id) : q.thawed id = q := if_neg fun hq => h hq.1

theorem thawed_state (h : (q.thawed id).job = id) : (q.thawed id).state ≠ .frozen := by
  unfold thawed at h ⊢
  split at h
  next hq =>
    rw [if_pos hq]
    dsimp only [State.readyState]
    split
    · exact nofun
    · split <;> exact nofun
  next hq =>
    rw [if_neg hq]
    exact fun hf => hq ⟨h, hf⟩

end CmdQueue

namespace State

variable {s : State} {id n : Nat} {j : Job}

/-! ### The restore is complete -/

/-- Packets of a job that came early. -/
def earlyOf (s : State) (id : Nat) : List (Nat × Packet × Bool) := s.early.filter fun e => e.2.1.job.toNat == id

theorem earlyOf_discarded {e : Nat × Packet × Bool} (he : e ∈ s.early.diff (s.earlyOf id)) : e.2.1.job.toNat ≠ id :=
  beq_eq_false_iff_ne.1 (not_of_mem_diff_filter (p := fun e : Nat × Packet × Bool => e.2.1.job.toNat == id) he)

/-- A device whose groups of the job have rejoined; its transfers of the job are over (R413). -/
def regrouped (s : State) (id : Nat) : State :=
  { s with
    groups := s.groups.map fun g => if g.job = id then s.rejoin g else g
    transfers := s.transfers.filter fun t => t.job != id }

theorem restoreComplete_idle (hj : s.job? id = some j) (hn : j.restart.restorePoint = none) : s.restoreComplete id = s := by
  simp only [restoreComplete, hj, hn]

/-- Once the restore is complete, groups rejoin, early packets of the job leave their buffers, and the restore point is marked
(R407, R413). -/
theorem restoreComplete_restored (hj : s.job? id = some j) (hr : j.phase = .restarting) (hn : j.restart.restorePoint = some n)
    (hd : j.restart.restored = true) :
    ∃ u, ((s.regrouped id).withEarly (s.early.diff (s.earlyOf id))).Links u ∧
      s.restoreComplete id = u.modJob id (Job.rejoinedAt n) := by
  refine ⟨_, links_discardEarly (s.earlyOf id) (s.regrouped id), ?_⟩
  simp only [restoreComplete, hj, hr, hn, hd, ne_eq, not_true_eq_false, Bool.not_true, Bool.false_eq_true, or_self, if_false]
  rfl

/-! ### The job resumes -/

/-- The queues of the job have left FROZEN. -/
def thawing (s : State) (id : Nat) : State := { s with queues := s.queues.map (CmdQueue.thawed id) }

theorem jobResumed_running (hj : s.job? id = some j) (hr : j.phase = .running) : s.jobResumed id = s := by
  rw [jobResumed, hj]
  refine if_pos (.inl ?_)
  rw [hr]
  exact nofun

/-- A job whose groups have rejoined runs again: its queues leave FROZEN, and messages and an event tell of it (R413, R442). -/
theorem jobResumed_rejoined (hj : s.job? id = some j) (hr : j.phase = .restarting) (hd : j.restart.rejoined = true) :
    ((s.thawing id).modJob id Job.resumed).Tells (s.jobResumed id) := by
  simp only [jobResumed, hj, hr, hd, ne_eq, not_true_eq_false, Bool.not_true, Bool.false_eq_true, or_self, if_false]
  exact (Tells.tellCores ..).trans (.postRecord ..)

end State
end Sys2Proof.Machine
end

section
open Sys2Proof.Machine Sys2Proof.Machine.State
namespace Sys2Proof.Proofs

/-- Settles O41: a path notice and a claim change the record of one transfer and send; the end of a restart changes its job, its groups
and its early packets, then its queues. -/
theorem transfersAndRestartEnd : Obligations.TransfersAndRestartEnd := by
  refine ⟨fun s p job => ⟨fun spare hx => ?_, fun x hx => ?_, fun hx => ?_, fun x q hx hc hp => ?_⟩, fun s job j hj =>
    ⟨fun n hr hn hd => ?_, fun hn => ?_, fun hr hd => ?_, fun hr => ?_⟩⟩
  · have hlinks := links_pathNoticed (s := s.fresh.2) (p := p.val) (origin := s.fresh.1) (step := s.fresh.1.toNat) (spare := spare) hx
    exact ⟨_, _, rfl, (transfer?_of_links hlinks job).trans (transfer?_withTransfer ..), rfl, rfl, rfl,
      hlinks.same State.mem fun _ _ => rfl, hlinks.same State.jobs fun _ _ => rfl, hlinks.same State.queues fun _ _ => rfl⟩
  · exact congrArg Host.Outcome.next (pathNoticed_known (s := s.fresh.2) hx)
  · exact congrArg Host.Outcome.next (pathClaimed_unknown hx)
  · have hlinks := links_pathClaimed (p := p.val) hx hc hp
    exact ⟨_, _, rfl, (transfer?_of_links hlinks job).trans (transfer?_modTransfer (fun _ => rfl) hx), rfl,
      hlinks.same State.mem fun _ _ => rfl, hlinks.same State.jobs fun _ _ => rfl, hlinks.same State.queues fun _ _ => rfl⟩
  · obtain ⟨u, hlinks, heq⟩ := restoreComplete_restored hj hr hn hd
    have hu : u.job? job = some j := (hlinks.same (fun s => s.job? job) fun _ _ => rfl).trans hj
    have hearly : u.early = s.early.diff (s.earlyOf job) := hlinks.same State.early fun _ _ => rfl
    refine ⟨_, _, congrArg Host.Outcome.next heq, job?_modJob (fun _ => rfl) hu, rfl, rfl,
      fun g hg hlt => released_releaseOlder hg hlt, hlinks.same State.groups fun _ _ => rfl, fun e he => ?_,
      hlinks.same State.chains fun _ _ => rfl, hlinks.same State.mem fun _ _ => rfl, hlinks.same State.queues fun _ _ => rfl⟩
    exact earlyOf_discarded (hearly ▸ he)
  · exact congrArg Host.Outcome.next (restoreComplete_idle hj hn)
  · have htells := jobResumed_rejoined hj hr hd
    obtain ⟨j1, hj1, hsame⟩ := htells.job? (job?_modJob (s := s.thawing job) (fun _ => rfl) hj)
    have hqueues : (s.jobResumed job).queues = s.queues.map (CmdQueue.thawed job) := by
      rw [htells.frame]
      rfl
    have hcores : (s.jobResumed job).cores = s.cores := by
      rw [htells.frame]
      rfl
    refine ⟨_, j1, rfl, hj1, (congrArg Job.phase hsame :), (congrArg Job.step hsame :), fun q hq hjob => ?_, fun q hq hne => ?_,
      hcores⟩
    · obtain ⟨q0, -, rfl⟩ := List.mem_map.1 (hqueues ▸ hq)
      exact CmdQueue.thawed_state hjob
    · exact hqueues ▸ List.mem_map.2 ⟨q, hq, CmdQueue.thawed_of_job_ne hne⟩
  · exact congrArg Host.Outcome.next (jobResumed_running hj hr)

end Sys2Proof.Proofs
end
